-- ==== Sys2Proof/Word.lean ====
section
/-! DEFINITION. The machine words of the AX7416 manual and nothing else: 8-, 16-, 32- and 64-bit values (00, Tables 0.3 and 0.4). -/

namespace Sys2Proof

/-- One byte. -/
abbrev Byte := BitVec 8
/-- A 16-bit value. -/
abbrev Half := BitVec 16
/-- A register word (R14). -/
abbrev Word := BitVec 32
/-- A 64-bit value. -/
abbrev DWord := BitVec 64

end Sys2Proof
end

