-- ==== Sys2Proof/Syntax.lean ====
section
/-! DEFINITION. The commands of the block: one constructor for each row of spec/opcode_table.json, with its operands, and
the records those operands are made of. -/

namespace Sys2Proof

/-- The transports of 04: bit positions 0 to 3 of TRANSPORTS (Table 4.10). -/
inductive Transport where
  | pcie | spit0 | spit1 | fabric
  deriving DecidableEq, Repr, Inhabited

/-- The four time words of Table 2.2. -/
structure Stamp where
  sHi : Word := 0
  sLo : Word := 0
  ns : Word := 0
  frac : Word := 0
  deriving DecidableEq, Repr, Inhabited

/-- What a packet carries beside its opcode and parameters (Table 4.4): the sending tenant, the transport, CLASS, FLAGS,
TAG, GROUP, GSEQ and the apply time; `origin` is the ORIGIN word of a packet that came in a command cell: node and tenant
(Table 8.4, R218). -/
structure Req where
  tenant : Fin 16
  via : Transport := .pcie
  cls : BitVec 4 := 0
  flags : Byte := 0
  tag : Half := 0
  group : Half := 0
  gseq : Half := 0
  apply : Stamp := {}
  origin : Option (BitVec 16) := none
  deriving DecidableEq, Repr

/-- Parameters of GPTP_CONFIG (Table 6.4). -/
structure GptpCfg where
  mode : Byte
  domain1 : Byte
  priority1 : Byte
  priority2 : Byte
  clockClass : Byte
  clockAccuracy : Byte
  logVariance : Half
  logSync : Byte
  logPdelay : Byte
  logAnnounce : Byte
  syncTimeout : Byte
  announceTimeout : Byte
  flags : Byte
  timeSource : Byte
  pdelayThresh : Word
  clockId : DWord
  deriving DecidableEq, Repr, Inhabited

/-- Parameters of AVTP_TALKER_CONFIG and AVTP_LISTENER_CONFIG (Table 6.4). -/
structure AvtpCfg where
  stream : Byte
  port : Byte
  format : Byte
  nsr : Byte
  streamId : DWord
  destMac : BitVec 48
  cls : Byte
  channels : Byte
  base : Half
  presOffset : Half
  deriving DecidableEq, Repr, Inhabited

/-- Parameters of CRF_CONFIG (Table 6.4). -/
structure CrfCfg where
  dir : Byte
  stream : Byte
  port : Byte
  cls : Byte
  streamId : DWord
  destMac : BitVec 48
  mcg : Byte
  tsPerPdu : Byte
  baseFreq : Word
  tsInterval : Half
  deriving DecidableEq, Repr, Inhabited

/-- Parameters of TPIN_CONFIG (Table 7.4). -/
structure TpinCfg where
  pin : Byte
  mode : Byte
  edge : Byte
  flags : Byte
  source : Byte
  width : Word
  period : DWord
  offset : DWord
  deriving DecidableEq, Repr, Inhabited

/-- Parameters of REFLEX_CONFIG (Table 7.4). -/
structure ReflexCfg where
  path : Byte
  inPin : Byte
  outPin : Byte
  mode : Byte
  delay : Word
  width : Word
  deriving DecidableEq, Repr, Inhabited

/-- Parameters of REFLEX_WINDOW (Table 7.4). -/
structure WindowCfg where
  path : Byte
  base : Byte
  fsg : Byte
  openAt : DWord
  length : DWord
  period : DWord
  deriving DecidableEq, Repr, Inhabited

/-- Parameters of FSG_CONFIG (Table 7.4). -/
structure FsgCfg where
  fsg : Byte
  num : Word
  den : Word
  width : Word
  phase : Word
  minFrame : Word
  deriving DecidableEq, Repr, Inhabited

/-- Parameters of PLINK_AUDIO_MAP (Table 8.8). -/
structure MapCfg where
  port : Byte
  dir : Byte
  rate : Byte
  kind : Byte
  slot : Half
  count : Half
  ch : Half
  fwdPort : Byte
  fwdSlot : Half
  deriving DecidableEq, Repr, Inhabited

/-- Parameters of APORT_CONFIG (Table 9.7). -/
structure AportCfg where
  port : Byte
  format : Byte
  role : Byte
  mcg : Byte
  rate : Byte
  slots : Byte
  slotWidth : Byte
  word : Byte
  frameBits : Half
  flags : Byte
  dIn : Byte
  dOut : Byte
  preroll : Byte
  postroll : Byte
  fadeLen : Half
  deriving DecidableEq, Repr, Inhabited

/-- One item of PRISM_XP_SET (Table 10.12). -/
structure XpItem where
  source : Half
  bus : Byte
  gain : Half
  deriving DecidableEq, Repr, Inhabited

/-- One item of PRISM_XP_CLEAR (Table 10.12). -/
structure XpKey where
  source : Half
  bus : Byte
  deriving DecidableEq, Repr, Inhabited

/-- Parameters of LENS_CHAIN (Table 11.14). -/
structure ChainCfg where
  core : Byte
  slot : Byte
  family : Byte
  rate : Byte
  block : Byte
  inKind : Byte
  inFrom : Byte
  outKind : Byte
  outFirst : Byte
  deriving DecidableEq, Repr, Inhabited

/-- One item of LENS_PARAM (Table 11.14). -/
structure LensItem where
  core : Byte
  slot : Byte
  word : Half
  value : Word
  deriving DecidableEq, Repr, Inhabited

/-- Parameters of HOLD_CONFIG (Table 15.6). -/
structure HoldCfg where
  en : Byte
  after : Byte
  keep : Byte
  holdTime : Half
  vMin : Half
  shunt : Word
  deriving DecidableEq, Repr, Inhabited

/-- Parameters of BALANCE_CONFIG (Table 15.6). -/
structure BalanceCfg where
  cells : Byte
  mode : Byte
  charge : Byte
  balTimeout : Byte
  balTarget : Half
  balWindow : Half
  vOv : Half
  deriving DecidableEq, Repr, Inhabited

/-- One move field of a Lens instruction (Table 11.6). -/
structure Move where
  kind : BitVec 2 := 0
  pair : Bool := false
  reg : BitVec 4 := 0
  ptr : BitVec 3 := 0
  upd : BitVec 2 := 0
  modl : Bool := false
  deriving DecidableEq, Repr, Inhabited

/-- What a firmware slot of the flash holds, as the boot ROM reads it (R417, Table 16.5). `failing` is the number of the
first of checks 1 to 4 of R418 that the image fails, 0 when it passes them. -/
structure FwSlot where
  seq : Word
  version : Word
  rollback : Nat
  size : Word
  failing : Nat
  deriving DecidableEq, Repr, Inhabited

/-- What the board and the self-checks show a start of Table 16.2: straps, REFCLK (Hz as measured against AON_FAST, none when absent), the fuse
bank CRCs, the floor units, the entropy source, the Store rail, and a firmware area programmed from outside. -/
structure StartEnv where
  straps : BitVec 3 := 0
  refclk : Option Nat := some 25000000
  fuseCrcOk : Bool := true
  floorOk : Bool := true
  entropyOk : Bool := true
  progA : Option (Option FwSlot) := none
  progB : Option (Option FwSlot) := none
  deriving DecidableEq, Repr, Inhabited

/-- What replaces EXTEST at the TAP (R435), and what the board gives the start that follows. -/
structure TapLoad where
  ir : BitVec 5
  env : StartEnv := {}
  deriving DecidableEq, Repr, Inhabited

/-- A PDU of a CRF talker (R163): for a measuring MCG, the 0.25 ns between each edge it stamped and the TIME cycle of the row. -/
structure CrfPdu where
  stream : Fin 64
  ages : List Nat := []
  deriving DecidableEq, Repr, Inhabited

/-- The stamps, in 0.25 ns, of the first and the last of the edges that a measurement takes (R247). -/
structure EdgeSpan where
  first : Int
  last : Int
  deriving DecidableEq, Repr, Inhabited

/-- A received Ethernet frame, as the PCS and MAC hand it over (R167). `tap` is the 0.25 ns position of its stamp in the
TIME cycle (R61); `ownSet` is what the DMA reads as OWN of the next ring slot, `ringUp` whether PCIe reaches the host. -/
structure EthFrame where
  fcsOk : Bool
  dest : BitVec 48
  etherType : Half
  streamId : DWord
  bytes : List Byte
  tap : Fin 8
  ownSet : Bool
  ringUp : Bool
  deriving DecidableEq, Repr, Inhabited

/-- What a port's PCS reports of its link (R146): the end of SGMII auto-negotiation with the speed in Mb/s, and the gain or the loss of
code-group synchronisation. -/
inductive LinkReport where
  | autoNeg (mbps : Nat) (up : Bool)
  | codeGroups (sync : Bool)
  deriving DecidableEq, Repr

/-- A received Sync (06); `domain` is its domainNumber. -/
structure SyncMsg where
  domain : Byte
  twoStep : Bool
  seq : Half
  logInterval : Byte
  seconds : BitVec 48
  ns : Word
  correction : DWord
  rateOffset : Word
  tap : Fin 8
  deriving DecidableEq, Repr, Inhabited

/-- A received Follow_Up (06), with its cumulativeScaledRateOffset. -/
structure FollowUpMsg where
  domain : Byte
  seq : Half
  seconds : BitVec 48
  ns : Word
  correction : DWord
  rateOffset : Word
  deriving DecidableEq, Repr, Inhabited

/-- A received Announce (06). -/
structure AnnounceMsg where
  domain : Byte
  priority1 : Byte
  clockClass : Byte
  clockAccuracy : Byte
  logVariance : Half
  priority2 : Byte
  gmId : DWord
  steps : Half
  sourceId : DWord
  sourcePort : Half
  logInterval : Byte
  deriving DecidableEq, Repr, Inhabited

/-- A port identity of IEEE 802.1AS: clockIdentity and portNumber (R151). -/
structure PortId where
  clock : DWord
  port : Half
  deriving DecidableEq, Repr, Inhabited

/-- A received peer delay message (R147, R149): a request with its sender, the answers with the requester they name and a stamp in whole ns
with its correctionField. -/
inductive PdelayMsg where
  | request (seq : Half) (source : PortId) (tap : Fin 8)
  | response (seq : Half) (asked : PortId) (seconds : BitVec 48) (ns : Word) (correction : DWord) (tap : Fin 8)
  | responseFollowUp (seq : Half) (asked : PortId) (seconds : BitVec 48) (ns : Word) (correction : DWord)
  deriving DecidableEq, Repr

/-- A received AVTP packet (R157, R162): an AAF packet with its payload, or a CRF PDU with its type and its stamps. -/
structure AvtpPkt where
  dest : BitVec 48
  tv : Bool
  format : Byte
  nsr : Byte
  channels : Byte
  timestamp : Word
  seq : Byte
  payload : List Byte
  crfType : Byte
  stamps : List DWord
  tap : Fin 8
  deriving DecidableEq, Repr, Inhabited

/-- A Prieth time cell (Table 8.3). -/
structure TimeCell where
  role : Byte
  rate : Byte
  samples : Byte
  txTime : Stamp
  rxTime : Option Stamp
  node : Half
  depth : Byte
  flags : Byte
  rxFrame : Word
  epoch : Half
  deriving DecidableEq, Repr, Inhabited

/-- A received Prieth frame (R210): the time cell when its CRC is right, whether DIR_CRC is right, which AUDIO blocks are
right, the samples of each slot, and how many command and express cells were discarded. -/
structure PlFrame where
  time : Option TimeCell
  dirOk : Bool
  audioOk : BitVec 24
  audio : List (List Word)
  cells : Nat
  expBad : Nat
  tap : Fin 8
  deriving DecidableEq, Repr, Inhabited

/-- A command cell with its directory entry of 8 bytes (Table 8.4). -/
structure CmdCell where
  entry : DWord
  cell : List Byte
  deriving DecidableEq, Repr

/-- A matrix transaction (05): master, target, the tag that M0 sets, kind, address and beats; write data and byte enables
one per byte. `lock` marks a half of a locked sequence (R127); `cut` says that the row ends after so many beats, the burst still in flight. -/
structure MatrixReq where
  master : Fin 16
  target : Fin 6
  tag : BitVec 5
  write : Bool
  lock : Bool
  addr : Word
  beats : Nat
  data : List Byte
  enables : List Bool
  cut : Option Nat := none
  deriving DecidableEq, Repr

/-- What tells of a lost clock (R64, R70): its edges stop, a window counts it out of range, or the lock detector of its PLL falls. -/
inductive ClockLoss where
  | stops | counts (count : Word) | unlocks
  deriving DecidableEq, Repr

/-- What tells of a clock's return (R67, R71): its edges are back, its PLL has locked, or two windows counted it in range after so many us. -/
inductive ClockReturn where
  | edges | locks | inRange (lostUs : Word)
  deriving DecidableEq, Repr

/-- A wake source of R388. -/
inductive WakeSource where
  | wakeAt | mainSense | resetN
  deriving DecidableEq, Repr, Inhabited

/-- Who performs a register access: a host that writes or reads over a transport, a SPI host with its instruction byte (Table 4.3), the debugger
under DBG_AP, or a master of the matrix. -/
inductive RegMaster where
  | host (via : Transport)
  | hostRead (via : Transport)
  | spi (port : Fin 2) (instruction : Byte)
  | debug
  | matrix (m : Fin 16)
  deriving DecidableEq, Repr

/-- The commands of the block: every row of spec/opcode_table.json, in the table's order. -/
inductive Instr where
  -- 04: system, tenants, groups, fuses, firmware
  | sysInfo (r : Req)
  | tenantOpen (r : Req) (tenant transports : Byte)
  | tenantClose (r : Req) (tenant : Byte)
  | grant (r : Req) (tenant type : Byte) (first count : Half)
  | revoke (r : Req) (tenant type : Byte) (first count : Half)
  | groupCommit (r : Req)
  | groupAbort (r : Req)
  | groupStatus (r : Req)
  | fuseRead (r : Req) (field : Half)
  | fuseProgram (r : Req) (field : Half) (value : BitVec 256)
  | fwWrite (r : Req) (offset : Word) (data : List Byte)
  | fwCommit (r : Req) (size : Word)
  -- 02: the Last
  | timeGet (r : Req)
  | timeSet (r : Req) (time : Stamp) (utcOffset flags : Half)
  | timeStep (r : Req) (offset : DWord)
  | timeAdjust (r : Req) (offset : DWord) (slew : Word)
  | rateSet (r : Req) (rate : Word)
  | sourceSet (r : Req) (src domain : Byte)
  | servoConfig (r : Req) (stepThr lockThr unlockThr slewMax : Word) (lockCount loopBw : Half)
  | lastStatus (r : Req)
  | calSet (r : Req) (item index sub : Byte) (value : Word)
  | calGet (r : Req) (item index sub : Byte)
  -- 06: Ethernet time ports
  | ethPortConfig (r : Req) (port mode : Byte) (vid : Half) (mac : BitVec 48)
  | ethPortStatus (r : Req) (port : Byte)
  | gptpConfig (r : Req) (cfg : GptpCfg)
  | gptpPortRole (r : Req) (port role domains : Byte)
  | gptpStatus (r : Req) (domain : Byte)
  | avtpTalkerConfig (r : Req) (cfg : AvtpCfg)
  | avtpListenerConfig (r : Req) (cfg : AvtpCfg)
  | avtpStreamStart (r : Req) (dir stream : Byte)
  | avtpStreamStop (r : Req) (dir stream : Byte)
  | avtpStreamStatus (r : Req) (dir stream : Byte)
  | crfConfig (r : Req) (cfg : CrfCfg)
  | cbsConfig (r : Req) (port : Byte) (idleA idleB : Word)
  | ethRxFilter (r : Req) (ports actions rlog2 : Byte) (base : DWord)
  -- 07: time pins
  | tpinConfig (r : Req) (cfg : TpinCfg)
  | tpinSchedule (r : Req) (pin action policy : Byte) (time : Stamp)
  | tpinCancel (r : Req) (pin : Byte) (handle : Half)
  | tpinCaptureRead (r : Req) (pin max : Byte)
  | reflexConfig (r : Req) (cfg : ReflexCfg)
  | reflexWindow (r : Req) (cfg : WindowCfg)
  | fsgConfig (r : Req) (cfg : FsgCfg)
  | fsgStart (r : Req) (fsg : Byte)
  | fsgStop (r : Req) (fsg : Byte)
  | fsgStatus (r : Req) (fsg : Byte)
  -- 08: Prieth
  | plinkStatus (r : Req) (port : Byte)
  | plinkEnumerate (r : Req) (flags : Byte)
  | plinkTopology (r : Req)
  | plinkAudioMap (r : Req) (cfg : MapCfg)
  | fabricPrepare (r : Req) (fid tenant : Byte) (group : Half)
  | fabricApply (r : Req) (fid : Byte)
  | fabricAbort (r : Req) (fid : Byte)
  | plinkDelayGet (r : Req) (port : Byte)
  -- 09: audio ports
  | mcgConfig (r : Req) (mcg mode family mult : Byte) (window : Half)
  | mcgMeasure (r : Req) (mcg : Byte)
  | aportConfig (r : Req) (cfg : AportCfg)
  | aportStart (r : Req) (port : Byte)
  | aportStop (r : Req) (port : Byte)
  | aportMask (r : Req) (port : Byte) (txMask rxMask : Word)
  | aportRate (r : Req) (port mcg rate : Byte)
  | aportStatus (r : Req) (port : Byte)
  -- 10: Prism, scenes, Mirror
  | prismInputClass (r : Req) (source : Half) (cls wind : Byte)
  | prismXpSet (r : Req) (items : List XpItem)
  | prismXpClear (r : Req) (items : List XpKey)
  | prismRoute (r : Req) (sink source : Half) (flags : Byte)
  | prismBusConfig (r : Req) (bus family rate mode range : Byte)
  | prismBusRange (r : Req) (bus range : Byte)
  | prismDirectGain (r : Req) (source : Half) (bus : Byte) (gain : Half)
  | prismStatus (r : Req) (bus : Byte)
  | sceneStore (r : Req) (scene : Byte) (page : Half) (offset : Word)
  | sceneRecall (r : Req) (scene : Byte)
  | sceneDelete (r : Req) (scene : Byte)
  | sceneList (r : Req)
  | mirrorConfig (r : Req) (family rate block : Byte) (rampLen : Half)
  | mirrorStatus (r : Req)
  -- 11: Lens commands
  | lensLoad (r : Req) (core slot : Byte) (page : Half) (offset : Word)
  | lensChain (r : Req) (cfg : ChainCfg)
  | lensStart (r : Req) (core slots : Byte)
  | lensStop (r : Req) (core slots : Byte)
  | lensParam (r : Req) (items : List LensItem)
  | lensStatus (r : Req) (core : Byte)
  | lensDeadline (r : Req) (core strikes : Byte) (guard : Half)
  -- 05: pages
  | pageInfo (r : Req)
  | pageRead (r : Req) (page : Half) (offset : Word) (length : Half)
  | pageWrite (r : Req) (page : Half) (offset : Word) (data : List Byte)
  | pageCopy (r : Req) (src dst : Half)
  -- 13: event recorder
  | evrecConfig (r : Req) (cBase cSize dumpBase : Word) (tick : Half)
  | evrecRead (r : Req) (channel max : Byte) (from_ : Word)
  | evrecStatus (r : Req)
  | evrecRate (r : Req) (code rate : Half) (burst : Byte)
  | evrecFlush (r : Req)
  | evrecErase (r : Req) (target : Byte)
  -- 14: watchdog
  | wdogConfig (r : Req) (period : Half)
  | wdogStatus (r : Req)
  | wdogCountClear (r : Req)
  | superviseStatus (r : Req)
  -- 15: power
  | powerMode (r : Req) (mode flags : Byte) (wakeAt : Stamp)
  | powerStatus (r : Req)
  | coreClock (r : Req) (mhz : Half)
  | holdConfig (r : Req) (cfg : HoldCfg)
  | stackStatus (r : Req)
  | balanceConfig (r : Req) (cfg : BalanceCfg)
  -- 17: debug commands
  | dbgOpen (r : Req) (scope : Byte) (duration : Half)
  | dbgClose (r : Req)
  | dbgStatus (r : Req)
  -- 04: Eyelet and packets
  | send (t : Fin 16) (via : Transport)
  | take (t : Fin 16) (via : Transport)
  | packetTake (t : Fin 16) (ring : Option (List Byte))
  | eyCringIdxTailWrite (t : Fin 16) (tail : Half)
  | eyRringIdxHeadWrite (t : Fin 16) (head : Half)
  | eyRingCfgWrite (t : Fin 16) (value : Word)
  | eyTimeLatch (t : Fin 16)
  | wdogServe (value : Word)
  -- 03, 04, 08, 02: register bridge, replies, time
  | registerWrite (who : RegMaster) (addr : Word) (size : BitVec 3) (value : Word)
  | registerHoldTimeout (domain : Fin 29)
  | fenceWaitEnd (domain : Fin 29)
  | remoteReplyTimeout (t : Fin 16) (tag : Half)
  | timedCommandApply (t : Fin 16)
  | mirrorSwap (t : Fin 16)
  | timeCycle (n : Nat)
  | slewEnd
  | tempTermUpdate (die : BitVec 16)
  | sourceLost
  | refclkLost
  | refclkReturned
  | refclkStopInSleep
  | clockLost (domain : Fin 29) (how : ClockLoss)
  | clockReturned (domain : Fin 29) (how : ClockReturn)
  | crystalFail
  -- 07: pin events
  | captureEdge (pin : Fin 32) (falling : Bool) (tap : Fin 8) (nearPasses : Bool)
  | scheduledAction (pin : Fin 32)
  | gridPulse (pin : Fin 32)
  | fsgFrameStart (fsg : Fin 8)
  -- 06: Ethernet events
  | ethLinkChange (port : Fin 4) (report : LinkReport) (cause : Byte)
  | ethFrameRx (port : Fin 4) (frame : EthFrame)
  | sync (port : Fin 4) (msg : SyncMsg)
  | followUp (port : Fin 4) (msg : FollowUpMsg)
  | announce (port : Fin 4) (msg : AnnounceMsg)
  | pdelay (port : Fin 4) (msg : PdelayMsg)
  | syncInterval (extra : Bool)
  | pdelayInterval (port : Fin 4)
  | announceInterval (extra : Bool)
  | syncReceiptTimeout (port : Fin 4) (extra : Bool)
  | announceReceiptTimeout (port : Fin 4) (extra : Bool)
  | avtpPacket (stream : Fin 64) (pkt : AvtpPkt)
  | avtpTalkerInterval (stream : Fin 64)
  | crfPduSend (pdu : CrfPdu)
  -- 08: Prieth events
  | commaAlign (port : Fin 4)
  | commaLoss (port : Fin 4)
  | linkTimeout (port : Fin 4)
  | plinkFrame (port : Fin 4) (frame : PlFrame)
  | plinkFrameLaunch (port : Fin 4)
  | commandCell (port : Fin 4) (cell : CmdCell)
  | cellEnum (port : Fin 4) (addr : BitVec 12) (depth : Byte) (setSource : Bool) (epoch : Half) (limit : BitVec 12)
  | cellEnumDone (port : Fin 4) (next : BitVec 13) (epoch : Half)
  | cellEnumReject (port : Fin 4) (reason : Byte) (epoch : Half)
  | cellPrepare (port : Fin 4) (fid : Byte) (tenant : Fin 16) (group : Half)
  | cellPrepareAck (port : Fin 4) (fid : Byte) (ready idle failed firstFailed : Half)
  | cellApply (port : Fin 4) (fid : Byte) (time : Stamp)
  | cellAbort (port : Fin 4) (fid : Byte)
  | prepareTimeout
  | armTimeout
  -- 09: audio events
  | portFrameStart (port : Fin 8) (sdi : List Bool)
  | slaveFrameSync (port : Fin 8) (bits : Nat) (tap : Fin 8)
  | slaveFrameTimeout (port : Fin 8)
  | prerollEnd (port : Fin 8)
  | postrollEnd (port : Fin 8)
  | fadeComplete (port : Fin 8) (tx : Bool)
  | aportRateSwitch (port : Fin 8)
  | mcgWindowEnd (mcg : Fin 4) (edges : Nat) (span : EdgeSpan)
  -- 10, 11: Prism and Lens events
  | prismSample (family : Bool) (rate : Fin 3)
  | busRangeStepDown (bus : Fin 128)
  | blockStart (core : Fin 8)
  | deadlineMiss (core : Fin 8)
  | coreMemoryClearDone (core : Fin 8)
  -- 11: Lens instructions, class CTL
  | lNop (core : Fin 8)
  | lEnd (core : Fin 8)
  | lBr (core : Fin 8) (cc : BitVec 4) (t : BitVec 13)
  | lCall (core : Fin 8) (t : BitVec 13)
  | lRet (core : Fin 8)
  | lLoop (core : Fin 8) (rot reg : Bool) (dc : BitVec 4) (count : Half) (e : BitVec 13)
  | lRep (core : Fin 8) (reg : Bool) (dc : BitVec 4) (count : BitVec 13)
  | lBrk (core : Fin 8)
  -- class ALU
  | lAdd (core : Fin 8) (d a b : BitVec 4) (x y : Move)
  | lSub (core : Fin 8) (d a b : BitVec 4) (x y : Move)
  | lAnd (core : Fin 8) (d a b : BitVec 4) (x y : Move)
  | lOr (core : Fin 8) (d a b : BitVec 4) (x y : Move)
  | lXor (core : Fin 8) (d a b : BitVec 4) (x y : Move)
  | lAsl (core : Fin 8) (d a : BitVec 4) (sh : BitVec 6) (x y : Move)
  | lAsr (core : Fin 8) (d a : BitVec 4) (sh : BitVec 6) (x y : Move)
  | lLsr (core : Fin 8) (d a : BitVec 4) (sh : BitVec 6) (x y : Move)
  | lAbs (core : Fin 8) (d a : BitVec 4) (x y : Move)
  | lNeg (core : Fin 8) (d a : BitVec 4) (x y : Move)
  | lMin (core : Fin 8) (d a b : BitVec 4) (x y : Move)
  | lMax (core : Fin 8) (d a b : BitVec 4) (x y : Move)
  | lMov (core : Fin 8) (d a : BitVec 4) (x y : Move)
  | lCmp (core : Fin 8) (a b : BitVec 4) (x y : Move)
  | lPar (core : Fin 8) (x y : Move)
  -- class MAC
  | lMpy (core : Fin 8) (a : BitVec 3) (opx opy : BitVec 4) (csrc neg : Bool) (x y : Move)
  | lMac (core : Fin 8) (a : BitVec 3) (opx opy : BitVec 4) (csrc neg : Bool) (x y : Move)
  | lMpy4 (core : Fin 8) (a : BitVec 3) (opx opy : BitVec 4) (csrc neg : Bool) (x y : Move)
  | lMac4 (core : Fin 8) (a : BitVec 3) (opx opy : BitVec 4) (csrc neg : Bool) (x y : Move)
  | lMac2e (core : Fin 8) (a : BitVec 3) (opx opy : BitVec 4) (neg : Bool) (x y : Move)
  | lMac2c (core : Fin 8) (a : BitVec 3) (opx opy : BitVec 4) (neg : Bool) (x y : Move)
  | lClr (core : Fin 8) (a : BitVec 3) (x y : Move)
  | lClr4 (core : Fin 8) (a : BitVec 3) (x y : Move)
  | lRnd (core : Fin 8) (d : BitVec 4) (a : BitVec 3) (sh : BitVec 5) (x y : Move)
  | lMva (core : Fin 8) (a : BitVec 3) (opx : BitVec 4) (x y : Move)
  -- classes LDI and BUS
  | lLdi (core : Fin 8) (r : BitVec 6) (imm : Word)
  | lMvr (core : Fin 8) (r1 r2 : BitVec 6)
  | lLds (core : Fin 8) (d a : BitVec 4)
  | lSts (core : Fin 8) (d a : BitVec 4)
  | lLks (core : Fin 8) (d a : BitVec 4)
  | lUns (core : Fin 8) (d a : BitVec 4)
  | lLdb (core : Fin 8) (p : BitVec 3) (a : BitVec 4) (n1 : BitVec 4)
  | lStb (core : Fin 8) (p : BitVec 3) (a : BitVec 4) (n1 : BitVec 4)
  -- 05, 13: Store and recorder events
  | storeAccess (l : List MatrixReq)
  | lockTimeout
  | channelCScanDone
  | channelCProgramDone (ok : Bool)
  | dumpPageDone (ok : Bool)
  | operatingTimeMark
  -- 14, 15: watchdog and power events
  | watchdogExpiry
  | graceEnd (env : StartEnv)
  | powerFailTrip
  | mainPowerReturn
  | holdEnRelease
  | holdTimeEnd
  | holdoverEnd
  | cellMeasurement (cells : List Half) (shuntNv : BitVec 32)
  | balanceTick
  | heartbeat
  | heartbeatTimeout
  | cellOvervoltage (cell : Fin 12) (mv : Half)
  | chgEnRecovery
  | shankSilent
  | sleepEntry
  | wake (source : WakeSource)
  | wakeRelease (env : StartEnv)
  | thetaHigh (theta : Half)
  | thetaLow (theta : Half)
  | aonPowerLoss
  | storeRetentionTrip
  | pciePerst (low : Bool)
  -- 16: start-up
  | powerOnReset
  | resetNAssert
  | resetNRelease (env : StartEnv)
  | selfTestDone (unit : Fin 21) (pass : Bool) (cause : Byte)
  -- 17: debug
  | dbgAp (addr wdata : Word) (write consume go : Bool)
  | dbgChal
  | dbgResp (scope reserved : Byte) (duration : Half) (pubX pubY sigR sigS : BitVec 256)
  | extest
  | extestExit (load : TapLoad)
  | debugSessionExpiry
  | dbgHalt (cores : BitVec 9)
  | coreHalted (core : Fin 9)
  | dbgResume (cores : BitVec 9)
  | dbgStep (cores : BitVec 9)
  | dbgLcnDataWrite (core : Fin 8) (value : Word)
  -- 07, 02, 10, 04, 13, 03: the remaining rows
  | pulseTrailingEdge (pin : Fin 32)
  | gateBoundary (path : Fin 16)
  | coarseCounterUpdate
  | mirrorLoaderFilled (t : Fin 16)
  | class2CommandDone (t : Fin 16) (ok : Bool) (readback : BitVec 256)
  | sectorEraseDone (ok : Bool)
  | registerAcknowledge (domain : Fin 29)
  | spitCsNRise (port : Fin 2)
  deriving DecidableEq, Repr

end Sys2Proof
end

