-- ==== Sys2Proof/Machine/Bits.lean ====
section
/-! DEFINITION. Byte order, signed readings, rounding and CRC-32C: the plain arithmetic every chapter uses (R10, R96). -/

namespace Sys2Proof.Machine

/-- `n` bytes of a number, least significant first (R10). -/
def le : Nat → Nat → List Byte
  | 0, _ => []
  | n + 1, v => BitVec.ofNat 8 v :: le n (v / 256)

/-- The number a list of bytes spells, least significant first (R10). -/
def unle : List Byte → Nat
  | [] => 0
  | b :: bs => b.toNat + 256 * unle bs

/-- `n` bytes of a signed number in two's complement. -/
def leInt (n : Nat) (v : Int) : List Byte := le n (v % (2 ^ (8 * n) : Nat)).toNat

/-- `n` bytes of a number that saturates at the largest value they hold. -/
def leSat (n v : Nat) : List Byte := le n (min v (2 ^ (8 * n) - 1))

/-- `v` limited to lo..hi. -/
def clampInt (lo hi v : Int) : Int := max lo (min hi v)

/-- The sample rates of Table 9.2: family 0 is 44.1 kHz, 1 is 48 kHz; rate code r multiplies by 2^r. -/
def fsOf (family rate : Nat) : Nat := (if family = 0 then 44100 else 48000) * 2 ^ rate

/-- The MCG frequencies of Table 9.3 in Hz, by multiple and family. -/
def mcgHz (mult family : Nat) : Nat := (if family = 0 then 44100 else 48000) * 2 ^ (8 + mult)

/-- The rate of an nsr code (R157). -/
def nsrRate (nsr : Nat) : Nat := fsOf ((nsr - 4) % 2) ((nsr - 4) / 2)

/-- The rate of a Prieth rate code (Table 8.6). -/
def plFs (code : Nat) : Option Nat := if code = 0 then none else some (fsOf ((code - 1) % 2) ((code - 1) / 2))

/-- The bytes of a bit vector, least significant first. -/
def leBits {w : Nat} (n : Nat) (v : BitVec w) : List Byte := le n v.toNat

/-- num/den rounded to the nearest integer, ties away from zero (R33, R43); den > 0. -/
def roundAway (num : Int) (den : Nat) : Int :=
  if 0 ≤ num then (2 * num + den) / (2 * den) else -((2 * (-num) + den) / (2 * den))

/-- num/den rounded to the nearest integer, ties toward the lower value (R41: toward the earlier time); den > 0. -/
def roundEarly (num : Int) (den : Nat) : Int := -((-2 * num + den) / (2 * den))

/-- num/den rounded to the nearest integer, ties upward; den > 0. -/
def roundUp (num : Int) (den : Nat) : Int := (2 * num + den) / (2 * den)

/-- num/den rounded to the nearest integer, ties to even; den > 0. -/
def roundEven (num den : Nat) : Nat :=
  let r := num % den
  num / den + if 2 * r < den then 0 else if den < 2 * r then 1 else num / den % 2

/-- num/den rounded to a number of double precision, 53 bits with ties to even (R43): a pair (m, k) stands for m/2^k; den > 0. The values of
R43 lie far from the ends of the exponent's range. -/
def double (num : Int) (den : Nat) : Int × Nat :=
  if num = 0 then (0, 0)
  else
    let a := num.natAbs
    let k0 : Int := 52 + (Nat.log2 den : Int) - (Nat.log2 a : Int)
    let k := if a * 2 ^ k0.toNat < 2 ^ 52 * (den * 2 ^ (-k0).toNat) then k0 + 1 else k0
    let m : Int := (roundEven (a * 2 ^ k.toNat) (den * 2 ^ (-k).toNat) * 2 ^ (-k).toNat : Nat)
    (if num < 0 then -m else m, k.toNat)

/-- The product and the sum of two numbers of double precision, each rounded once. -/
def dblMul (x y : Int × Nat) : Int × Nat := double (x.1 * y.1) (2 ^ (x.2 + y.2))
def dblAdd (x y : Int × Nat) : Int × Nat := double (x.1 * 2 ^ y.2 + y.1 * 2 ^ x.2) (2 ^ (x.2 + y.2))

/-- One bit step of CRC-32C with reflected input and output (R96): 0x82F63B78 is 0x1EDC6F41 reflected. -/
def crcBit (c : BitVec 32) : BitVec 32 :=
  if c.getLsbD 0 then (c >>> 1) ^^^ 0x82F63B78#32 else c >>> 1

/-- One byte of CRC-32C. -/
def crcByte (c : BitVec 32) (b : Byte) : BitVec 32 :=
  crcBit (crcBit (crcBit (crcBit (crcBit (crcBit (crcBit (crcBit (c ^^^ b.zeroExtend 32))))))))

/-- CRC-32C of bytes in ascending address order (R96). -/
def crc32c (bs : List Byte) : BitVec 32 := (bs.foldl crcByte 0xFFFFFFFF#32) ^^^ 0xFFFFFFFF#32

/-- The bytes with their CRC-32C appended. -/
def withCrc (bs : List Byte) : List Byte := bs ++ leBits 4 (crc32c bs)

/-- `n` bytes of `bs` from offset `i`, zero where there are none. -/
def slice (bs : List Byte) (i n : Nat) : List Byte :=
  ((bs.drop i).take n) ++ List.replicate (n - (bs.length - i)) 0

/-- The number in `n` bytes at offset `i`. -/
def peekLe (bs : List Byte) (i n : Nat) : Nat := unle (slice bs i n)

/-- Entry `i` of a table held as a list, or the type's default value where there is none. -/
def nth {α : Type} [Inhabited α] (l : List α) (i : Nat) : α := l.getD i default

/-- A table with entry `i` replaced by `f` of it. -/
def updAt {α : Type} (l : List α) (i : Nat) (f : α → α) : List α := l.modify i f

/-- The value an association list gives a key. -/
def assoc {α : Type} : List (Nat × α) → Nat → Option α
  | [], _ => none
  | (k, v) :: l, x => if k = x then some v else assoc l x

/-- An association list, keys rising, with a key set to a value. -/
def assocSet {α : Type} : List (Nat × α) → Nat → α → List (Nat × α)
  | [], x, a => [(x, a)]
  | (k, v) :: l, x, a =>
    if x < k then (x, a) :: (k, v) :: l else if k = x then (x, a) :: l else (k, v) :: assocSet l x a

/-- An association list without a key. -/
def assocDel {α : Type} (l : List (Nat × α)) (x : Nat) : List (Nat × α) := l.filter (fun p => p.1 ≠ x)

/-- A bit vector with bit `i` set to `b`. -/
def setBit {w : Nat} (v : BitVec w) (i : Nat) (b : Bool) : BitVec w :=
  if b then v ||| BitVec.ofNat w (2 ^ i) else v &&& ~~~ BitVec.ofNat w (2 ^ i)

/-- 1 for true, 0 for false. -/
def bit (b : Bool) : Nat := if b then 1 else 0

/-- The least significant byte of a number. -/
def byteOf (n : Nat) : Byte := BitVec.ofNat 8 n

/-- The largest r with r·r ≤ n, by `fuel` bits from the top. -/
def isqrtGo : Nat → Nat → Nat → Nat
  | 0, _, r => r
  | f + 1, n, r => if (r + 2 ^ f) * (r + 2 ^ f) ≤ n then isqrtGo f n (r + 2 ^ f) else isqrtGo f n r

/-- Integer square root of n < 2^512. -/
def isqrt (n : Nat) : Nat := isqrtGo 256 n 0

end Sys2Proof.Machine
end

