-- ==== Sys2Proof/Machine/Crypto.lean ====
section
/-! DEFINITION. SHA-256 and the verification of ECDSA over P-256, which firmware and debug authentication use (R418, R438), and
XTS-AES-128, under which the Store keeps its lines (R135): the published algorithms (log entry 22). -/

namespace Sys2Proof.Machine

/-- The number a list of bytes spells, most significant first. -/
def beNat (l : List Byte) : Nat := l.foldl (fun n b => 256 * n + b.toNat) 0

/-- `n` bytes of a number, most significant first. -/
def beBytes (n v : Nat) : List Byte := (le n v).reverse

/-! SHA-256 (FIPS 180-4). Its constants are the fractional bits of the square and cube roots of the first primes. -/

/-- The first 64 primes: below 312 what no smaller number under 18 divides. -/
def shaPrimes : List Nat := (List.range 312).filter fun p => 1 < p && (List.range (min p 18)).all fun d => d < 2 || p % d ≠ 0

/-- The greatest r of `n` bits above `r` with r ^ k ≤ v. -/
def rootUnder (k v : Nat) : Nat → Nat → Nat
  | 0, r => r
  | n + 1, r => rootUnder k v n (if (r + 2 ^ n) ^ k ≤ v then r + 2 ^ n else r)

/-- The first 32 fractional bits of the k-th root of a prime. -/
def rootBits (k p : Nat) : Word := BitVec.ofNat 32 (rootUnder k (p * 2 ^ (32 * k)) 40 0)

/-- The exclusive or of a word turned right by three amounts. -/
def turned (i j k : Nat) (w : Word) : Word := w.rotateRight i ^^^ w.rotateRight j ^^^ w.rotateRight k

/-- The working words as two sequences, newest first: a, b, c, d and e, f, g, h. -/
structure ShaLanes where
  up : List Word
  low : List Word
  deriving DecidableEq, Repr

/-- The value before the first block. -/
def shaStart : ShaLanes :=
  let l := (shaPrimes.take 8).map (rootBits 2)
  { up := l.take 4, low := l.drop 4 }

/-- One round: the next word of each sequence, from a message word with its constant added. -/
def shaRound (x : ShaLanes) (w : Word) : ShaLanes :=
  let e := nth x.low 0
  let a := nth x.up 0
  let mix := turned 6 11 25 e + (nth x.low 2 ^^^ (e &&& (nth x.low 1 ^^^ nth x.low 2))) + nth x.low 3 + w
  let most := (a &&& (nth x.up 1 ||| nth x.up 2)) ||| (nth x.up 1 &&& nth x.up 2)
  { up := (mix + turned 2 13 22 a + most) :: x.up.take 3, low := (nth x.up 3 + mix) :: x.low.take 3 }

/-- The message schedule continued by `n` words, newest first. -/
def shaSchedule : Nat → List Word → List Word
  | 0, l => l
  | n + 1, l =>
    let older := nth l 14
    let newer := nth l 1
    shaSchedule n ((nth l 15 + (older.rotateRight 7 ^^^ older.rotateRight 18 ^^^ older >>> 3) + nth l 6 +
      (newer.rotateRight 17 ^^^ newer.rotateRight 19 ^^^ newer >>> 10)) :: l)

/-- The words of a block of 64 bytes, newest first. -/
def blockWords (l : List Byte) : List Word := (List.range 16).reverse.map fun i => BitVec.ofNat 32 (beNat ((l.drop (4 * i)).take 4))

/-- One block taken into the value. -/
def shaBlock (x : ShaLanes) (l : List Byte) : ShaLanes :=
  let w := List.zipWith (· + ·) (shaPrimes.map (rootBits 3)) (shaSchedule 48 (blockWords l)).reverse
  let y := w.foldl shaRound x
  { up := List.zipWith (· + ·) x.up y.up, low := List.zipWith (· + ·) x.low y.low }

/-- SHA-256 of bytes: 32 bytes. -/
def sha256 (m : List Byte) : List Byte :=
  let full := m ++ 0x80#8 :: List.replicate ((119 - m.length % 64) % 64) 0 ++ beBytes 8 (8 * m.length)
  let x := (List.range (full.length / 64)).foldl (fun x i => shaBlock x ((full.drop (64 * i)).take 64)) shaStart
  (x.up ++ x.low).flatMap fun w => beBytes 4 w.toNat

/-! XTS-AES-128 (IEEE Std 1619; AES of FIPS 197). A block is 16 bytes, columns in turn. -/

def aesBox : List Nat := [
  0xc072a49cafa2d4adf04759fa7dc982ca76abd7fe2b670130c56f6bf27b777c63,
  0x75b227ebe28012079a059618c323c7041531d871f1e5a534ccf73f362693fdb7,
  0xcf584c4a39becb6a5bb1fc20ed00d153842fe329b3d63b52a05a6e1b1a2c8309,
  0xd2f3ff1021dab6bcf5389d928f40a351a89f3c507f02f94585334d43fbaaefd0,
  0xdb0b5ede14b8ee4688902a22dc4f816073195d643d7ea7c41744975fec130ccd,
  0x08ae7a65eaf4566ca94ed58d6d37c8e779e4959162acd3c25c2406490a3a32e0,
  0x9e1dc186b95735610ef6034866b53e708a8bbd4b1f74dde8c6b4a61c2e2578ba,
  0x16bb54b00f2d99416842e6bf0d89a18cdf2855cee9871e9b948ed9691198f8e1]

/-- The substitution of AES. -/
def aesSub (b : Byte) : Byte := BitVec.ofNat 8 (nth aesBox (b.toNat / 32) >>> (8 * (b.toNat % 32)))

/-- Twice a byte in the field of AES. -/
def aesTwice (b : Byte) : Byte := (b <<< 1) ^^^ (if b.msb then 0x1B else 0)

def xorBytes (a b : List Byte) : List Byte := List.zipWith (· ^^^ ·) a b

/-- Rows shifted: byte i comes from place 5i. -/
def aesShift (l : List Byte) : List Byte := (List.range 16).map fun i => nth l (5 * i % 16)

/-- Columns mixed. -/
def aesMix (l : List Byte) : List Byte := (List.range 16).map fun i =>
  let at_ := fun k => nth l (i / 4 * 4 + (i + k) % 4)
  aesTwice (at_ 0) ^^^ aesTwice (at_ 1) ^^^ at_ 1 ^^^ at_ 2 ^^^ at_ 3

/-- The key of the next round, with the round's constant. -/
def aesNextKey (rc : Byte) (k : List Byte) : List Byte :=
  let t := [aesSub (nth k 13) ^^^ rc, aesSub (nth k 14), aesSub (nth k 15), aesSub (nth k 12)]
  let w0 := xorBytes (k.take 4) t
  let w1 := xorBytes (slice k 4 4) w0
  let w2 := xorBytes (slice k 8 4) w1
  w0 ++ w1 ++ w2 ++ xorBytes (slice k 12 4) w2

/-- The rounds left, the last one without the mixing of columns. -/
def aesRounds : Nat → Byte → List Byte → List Byte → List Byte
  | 0, _, _, x => x
  | n + 1, rc, k, x =>
    let k := aesNextKey rc k
    let y := aesShift (x.map aesSub)
    aesRounds n (aesTwice rc) k (xorBytes (if n = 0 then y else aesMix y) k)

/-- A block encrypted under a key of 16 bytes. -/
def aesEncrypt (k x : List Byte) : List Byte := aesRounds 10 1 k (xorBytes x k)

/-- The tweak of the next block: times x in the field of 2 ^ 128. -/
def xtsNext (t : List Byte) : List Byte :=
  let v := 2 * unle t
  le 16 (if v < 2 ^ 128 then v else v ^^^ 0x87)

/-- Blocks of a data unit encrypted in turn. -/
def xtsBlocks (k : List Byte) : Nat → List Byte → List Byte → List Byte
  | 0, _, _ => []
  | n + 1, t, l => xorBytes (aesEncrypt k (xorBytes (l.take 16) t)) t ++ xtsBlocks k n (xtsNext t) (l.drop 16)

/-- XTS-AES-128 of a data unit of whole blocks under a key pair, with the number of the unit as its tweak. -/
def xtsEncrypt (key tweakKey : List Byte) (unit : Nat) (l : List Byte) : List Byte :=
  xtsBlocks key (l.length / 16) (aesEncrypt tweakKey (le 16 unit)) l

/-! ECDSA over P-256. -/

def p256p : Nat := 0xffffffff00000001000000000000000000000000ffffffffffffffffffffffff
def p256n : Nat := 0xffffffff00000000ffffffffffffffffbce6faada7179e84f3b9cac2fc632551
def p256b : Nat := 0x5ac635d8aa3a93e7b3ebbd55769886bc651d06b0cc53b0f63bce3c3e27d2604b
def p256g : Nat × Nat := (0x6b17d1f2e12c4247f8bce6e563a440f277037d812deb33a0f4a13945d898c296,
  0x4fe342e2fe1a7f9b8ee7eb4a7c0f9e162bce33576b315ececbb6406837bf51f5)

/-- x^k modulo m, over `f` bits of k. -/
def powModGo : Nat → Nat → Nat → Nat → Nat
  | 0, _, _, _ => 1
  | f + 1, x, k, m =>
    let h := powModGo f (x * x % m) (k / 2) m
    if k % 2 = 1 then x * h % m else h

/-- The inverse of x modulo a prime m. -/
def invMod (x m : Nat) : Nat := powModGo 256 (x % m) (m - 2) m

/-- The sum of two points of the curve; none is the point at infinity. -/
def ecAdd : Option (Nat × Nat) → Option (Nat × Nat) → Option (Nat × Nat)
  | none, q => q
  | p, none => p
  | some (x1, y1), some (x2, y2) =>
    if x1 = x2 && (y1 + y2) % p256p = 0 then none
    else
      let l := if x1 = x2 then (3 * x1 * x1 + (p256p - 3)) * invMod (2 * y1) p256p % p256p
        else (y2 + (p256p - y1)) * invMod (x2 + (p256p - x1)) p256p % p256p
      let x3 := (l * l + (p256p - x1) + (p256p - x2)) % p256p
      some (x3, (l * (x1 + (p256p - x3)) + (p256p - y1)) % p256p)

/-- A multiple of a point, over `f` bits. -/
def ecMul : Nat → Nat → Option (Nat × Nat) → Option (Nat × Nat)
  | 0, _, _ => none
  | f + 1, k, p =>
    let h := ecMul f (k / 2) (ecAdd p p)
    if k % 2 = 1 then ecAdd p h else h

/-- A public key lies on the curve. -/
def onCurve (x y : Nat) : Bool :=
  x < p256p && y < p256p && (y * y) % p256p = (x * x * x + (p256p - 3) * x + p256b) % p256p

/-- ECDSA P-256 over SHA-256: the signature (r, s) of a message verifies under the public key (x, y). -/
def ecdsaOk (msg : List Byte) (x y r s : Nat) : Bool :=
  if r = 0 || s = 0 || p256n ≤ r || p256n ≤ s || !onCurve x y then false
  else
    let e := beNat (sha256 msg)
    let w := invMod s p256n
    match ecAdd (ecMul 256 (e * w % p256n) (some p256g)) (ecMul 256 (r * w % p256n) (some (x, y))) with
    | some (rx, _) => rx % p256n = r
    | none => false

end Sys2Proof.Machine
end

