-- ==== Sys2Proof/Config.lean ====
section
/-! DEFINITION. What an implementation fixes and the values the spec leaves open: constants without a body, so that nothing
can be proved of their values (log entries 3, 8, 9, 10). -/

namespace Sys2Proof

/-- A free bit pattern, drawn by the counter `free` of the state (log entry 3). -/
opaque Config.freeBits : Nat → BitVec 64

/-- The rate the servo's second-order loop asks for after its n-th sample (R33 names the loop, no rule gives its trajectory);
log entry 4. -/
opaque Config.loopRate : Nat → Int

/-- The servo's own slew after its n-th sample, beside the loop's rate, in 2^-40 (R36); log entry 4. -/
opaque Config.loopSlew : Nat → Int

/-- What the entropy source gives at its n-th draw: a Store key, a nonce (R136, R438); log entry 8. -/
opaque Config.entropy : Nat → BitVec 256

/-- The byte at an address of a page of pages 0 to 231 that nothing has written under the present key (R138); it may change
with every store, so it is applied to the store counter and the key; log entry 9. -/
opaque Config.rawStoreByte : Nat → Nat → Nat → BitVec 8

/-- A flash byte after a failed or cut program or erase (R364, R366); log entry 9. -/
opaque Config.rawFlashByte : Nat → Nat → BitVec 8

/-- The raw value of which the edge is made on which the firmware lands KEY2 in the n-th period of the watchdog (R373 bounds it); log
entry 139. -/
opaque Config.fwServe : Nat → Nat

/-- The raw value of which the log2 of the flash's bytes is made (Table 13.5 bounds it to 20 to 31); log entry 25. -/
opaque Config.flashLog2 : Nat

/-- The number by which an event's data names a cause or a failed check that its table does not number: a table and an index
into the causes the chapter lists; log entry 29. -/
opaque Config.causeCode : Nat → Nat → BitVec 8

/-- EY_ID.REV, the silicon revision (Table 4.12); log entry 10. -/
opaque Config.revision : BitVec 8

/-- The value a fuse field carries from the factory (Table 16.4, fields set by Zhocon); log entry 10. -/
opaque Config.factoryFuse : Nat → BitVec 256

/-- d_pad_in of a time pin in ps (R40); log entry 10. -/
opaque Config.padIn : Nat → Int

/-- d_pad_out of a time pin in ps (R40); log entry 10. -/
opaque Config.padOut : Nat → Int

/-- The factory tap table: the place in ps, within its TIME cycle, of an edge with a tap code (R40); log entry 10. -/
opaque Config.tapMap : Nat → Int

/-- d_path of an Ethernet port in ps, in the direction 0 tx or 1 rx (R42); log entry 10. -/
opaque Config.ethPath : Nat → Nat → Int

/-- The factory asymmetry of a Prieth port in ps (R224, Table 2.9); log entry 10. -/
opaque Config.plAsym : Nat → Int

/-- The raw value of which d_fix of a reflex path is made (R184 bounds it); log entry 10. -/
opaque Config.reflexFix : Nat → Nat

/-- d_theta_factory in 0.01 degC (R43); log entry 10. -/
opaque Config.thetaOffset : Int

/-- The factory offset of a cell in uV (Table 2.9); log entry 10. -/
opaque Config.cellOffset : Nat → Int

/-- A byte of the boot ROM, target S1 (Table 5.2); log entry 33. -/
opaque Config.bootRom : Nat → BitVec 8

/-- Where an address outside the Store, Lens local memory and the register blocks lies: target 1 boot ROM, 4 NVM window, 5 PCIe
outbound, any other number none; and its offset there. The manual gives no base for these; log entry 33. -/
opaque Config.windowOf : Nat → Nat × Nat

end Sys2Proof
end

