-- ==== Sys2Proof/Machine/StateAon.lean ====
section
/-! DEFINITION. State of the Store and the matrix (05), of the watchdog (14), of power, holdover and the Shank (15) and of
debug access (17): plain data. -/

namespace Sys2Proof.Machine

/-- A locked read-modify-write sequence between its halves (R127): the master and the 32-byte line it holds. -/
structure StoreLock where
  master : Nat
  line : Nat
  frozen : Bool := false
  deriving DecidableEq, Repr

/-- A burst granted and not yet through: so many of its beats are done (R123, R143). -/
structure Burst where
  req : MatrixReq
  done : Nat
  deriving DecidableEq, Repr

/-- The Store and the matrix (05). `bursts` are in flight, `waiting` holds the requests their arbiters have not granted; `timedOut` lists the masters whose locked write is still to be answered with an error (R128), `rrRt` and `rrBulk`
the round-robin pointers of each target (R124). A cell is listed under key·2^24 + Store offset, with the plaintext byte written under that key. Key 0 is
the all-zero key of R137; other keys are numbered by their draw. -/
structure Store where
  cells : List (Nat × Byte) := []
  owner : List (BitVec 5) := List.replicate 232 0 ++ List.replicate 24 16
  keys : List (Option Nat) := List.replicate 17 none
  drawn : BitVec 17 := 0
  draws : Nat := 0
  writes : Nat := 0
  lost : Bool := true
  lock : Option StoreLock := none
  timedOut : List Nat := []
  rrRt : List Nat := List.replicate 6 0
  rrBulk : List Nat := List.replicate 6 0
  bursts : List Burst := []
  waiting : List MatrixReq := []
  deriving DecidableEq, Repr

/-- The watchdog (14). `periods` counts the periods begun, the model's own (log entry 139). -/
structure Wdog where
  c : Nat := 0
  periods : Nat := 0
  period : Nat := 4096
  armed : Bool := false
  locked : Bool := false
  running : Bool := false
  grace : Bool := false
  count : Nat := 0
  cause : Nat := 0
  cRetained : Nat := 0
  report : Bool := false
  nmi : Bool := false
  deriving DecidableEq, Repr

/-- Power modes (Table 15.3, numbered as event 0x0C04). -/
inductive PowerMode where
  | run | quiet | holdover | sleep | off
  deriving DecidableEq, Repr, Inhabited

/-- The numbers of event 0x0C04. -/
def PowerMode.code : PowerMode → Nat
  | .run => 0 | .quiet => 1 | .holdover => 2 | .sleep => 3 | .off => 4

/-- What a change of mode still waits for (R387, R392, R407, R394). -/
inductive Entering where
  | none | quiet | holdoverFades | sleep
  deriving DecidableEq, Repr, Inhabited

/-- Power, holdover and the Shank (15). Cell readings are in 0.1 mV; `lowSeen` holds, per cell, the HOURS of its last event
0x0C08; `lowDue` marks cells whose event waits for the next run at L1; `hbLost` that the Shank stopped balancing for want of a heartbeat; `volts`
and `current` are the last readings. -/
structure Pwr where
  mode : PowerMode := .run
  entering : Entering := .none
  mainOk : Bool := false
  tripped : Bool := false
  holdEn : Bool := false
  chgEn : Bool := false
  pwrSleep : Bool := false
  en : Bool := false
  after : Nat := 0
  keep : BitVec 3 := 0
  holdTime : Nat := 0
  vMin : Nat := 0
  shunt : Nat := 0
  cells : Nat := 0
  balMode : Bool := false
  charge : Bool := false
  balTimeout : Nat := 4
  balTarget : Nat := 0
  balWindow : Nat := 0
  vOv : Nat := 2700
  volts : List Nat := List.replicate 12 0
  current : Int := 0
  measured : Bool := false
  sw : BitVec 12 := 0
  prevSw : BitVec 12 := 0
  tickOdd : Bool := false
  hbOk : Bool := false
  hbLost : Bool := false
  ovLatch : Bool := false
  low : BitVec 12 := 0
  high : BitVec 12 := 0
  lowSeen : List (Option Nat) := List.replicate 12 none
  lowDue : BitVec 12 := 0
  wakeAt : Option Int := none
  tripTicks : Nat := 0
  timeEnded : Bool := false
  ending : Bool := false
  released : Bool := false
  modeEvent : Option (Nat × Nat × Nat) := none
  deriving DecidableEq, Repr

/-- An open debug session (R436): source 1 fuse, 2 challenge, 3 DBG_OPEN; its scope; its duration in s, none without limit; the
AON tick at which it opened. -/
structure Session where
  source : Nat
  scope : Nat
  left : Option Nat
  since : Nat
  deriving DecidableEq, Repr

/-- Debug access (17). `nonce` is the AON tick at which the valid nonce `chal` was drawn; `halted` and `haltReq` name the control core
by bit 0 and LCn by bit 1 + n; `ctlPc` is the program counter of the halted control core; `apWait` is a debug access to the Store that
waits for a locked sequence to end, with the word it writes; `tapIr` is the TAP's instruction register; `seenHalt` names the cores halted
since the last reset of CTL, whose program counters have been seen. -/
structure Dbg where
  tapIr : BitVec 5 := 2
  seenHalt : BitVec 9 := 0
  session : Option Session := none
  wdFreeze : Bool := true
  halted : BitVec 9 := 0
  haltReq : BitVec 9 := 0
  nonce : Option Nat := none
  chal : BitVec 256 := 0
  refusals : Nat := 0
  respDone : Bool := false
  respAccepted : Bool := false
  apRdata : Word := 0
  apDone : Bool := false
  apError : Bool := false
  apWait : Option (Nat × Option Word) := none
  extest : Bool := false
  extestStart : Bool := false
  sel : List (BitVec 7) := List.replicate 8 0
  ctlPc : Word := 0
  deriving DecidableEq, Repr

end Sys2Proof.Machine
end

