-- ==== Sys2Proof/Machine/StateCore.lean ====
section
/-! DEFINITION. State of start-up, clocks and straps (03, 16), of the Last (02), of the tenants (04) and of the event recorder
and its flash (13): plain data. -/

namespace Sys2Proof.Machine

/-- A time of the Last in units of 1/(3·2^39·10^9) ns, in which the step of a TIME cycle, the share of a slew and the grid of
1/300 s are whole numbers (log entry 4). -/
abbrev Time := Int

/-- The command whose register write the bridge holds: its tenant, whether it was a pending class 1 command, and the bytes it copied. -/
structure HeldCmd where
  tenant : Nat
  cmd : Instr
  timed : Bool
  copied : List Byte
  deriving DecidableEq, Repr

/-- An access the register bridge holds for a domain that does not acknowledge (R64, R65): a read acts (`consume`) or peeks;
`waiting` says that its fence wait runs; `job` is the command that caused it, when one did; a `queued` one waits for the bridge itself. -/
structure HeldAccess where
  domain : Nat
  who : RegMaster
  addr : Word
  size : BitVec 3
  value : Word
  write : Bool := true
  consume : Bool := false
  waiting : Bool := false
  job : Option HeldCmd := none
  queued : Bool := false
  deriving DecidableEq, Repr

/-- An event AON holds while the recorder is not in service (R77). -/
structure HeldEvent where
  code : Nat
  origin : Nat
  data : List Byte
  valid : Bool
  time : Nat
  hours : Nat
  raw : Bool
  deriving DecidableEq, Repr

/-- One fuse field (R415): its programmed marker and value. -/
structure Fuse where
  field : Nat
  programmed : Bool := false
  value : BitVec 256 := 0
  deriving DecidableEq, Repr, Inhabited

/-- The kinds of a start (Table 16.9). -/
inductive StartKind where
  | cold | warm | watchdog | wake
  deriving DecidableEq, Repr, Inhabited

/-- What stands on a signal ball: the driver off, driven low or high, or under the boundary register (R434, R469). -/
inductive Ball where
  | z | low | high | boundary
  deriving DecidableEq, Repr, Inhabited

/-- The balls of the NVM bank between two accesses to the flash (Table 19.7): NVM_CS_N, NVM_CK and NVM_DQ0 to NVM_DQ7. -/
structure NvmBalls where
  csN : Ball := .z
  ck : Ball := .z
  dq : Ball := .z
  deriving DecidableEq, Repr

/-- Clocks, reset, straps, start-up and fuses (03, 16). `fresh` says that no start has reached L1 since AON powered up, `begun` that one has begun; `stopped` marks the clocks
that have failed and are not declared lost yet, `lost` those declared lost and not returned (R70, R71). -/
structure Sys where
  fresh : Bool := true
  begun : Bool := false
  clkOk : BitVec 29 := 1
  stopped : BitVec 29 := 0
  lost : BitVec 29 := 0
  rst : BitVec 29 := 0x1FFFFFFE
  pllLock : BitVec 5 := 0
  refOk : Bool := false
  frozen : Bool := false
  slowRc : Bool := false
  reqFence : BitVec 29 := 0
  held : List HeldAccess := []
  running : Bool := false
  hostBoot : Bool := false
  tested : BitVec 21 := 0
  fenced : BitVec 21 := 0
  resetN : Bool := false
  nvmBalls : NvmBalls := {}
  perstN : Bool := true
  bootsel : BitVec 3 := 0
  slotB : Bool := false
  fallback : Bool := false
  kind : StartKind := .cold
  retained : Bool := false
  fwVersion : Word := 0
  fwRollback : Nat := 0
  bootSeq : Word := 0
  imageA : Option FwSlot := none
  imageB : Option FwSlot := none
  fuses : List Fuse
  shadow : List Fuse
  coreMhz : Nat := 200
  coreReq : Nat := 400
  refclkHz : Nat := 25000000
  aonEvents : List HeldEvent := []
  aonDropped : Nat := 0
  aonTicks : Nat := 0
  spiWord : List (Nat × Nat × List Byte) := []
  deriving DecidableEq, Repr

/-- Servo states (Table 2.4). -/
inductive Servo where
  | free | acquire | locked | holdover
  deriving DecidableEq, Repr, Inhabited

/-- The numbers of Table 2.4. -/
def Servo.code : Servo → Nat
  | .free => 0 | .acquire => 1 | .locked => 2 | .holdover => 3

/-- User calibration (R39, Table 2.9). -/
structure Calib where
  trace : List Int := List.replicate 32 0
  phyTx : List Int := List.replicate 4 0
  phyRx : List Int := List.replicate 4 0
  asym : List Int := List.replicate 4 0
  theta0 : Int := 0
  c1 : Int := 0
  c2 : Int := 0
  cell : List Int := List.replicate 12 0
  deriving DecidableEq, Repr, Inhabited

/-- A slew by TIME_ADJUST in progress (R50): the offset still to slew, in units of `Time`, and SLEW in ppb. -/
structure Slew where
  left : Time
  ppb : Nat
  deriving DecidableEq, Repr

/-- The settings of SERVO_CONFIG (Table 2.7). -/
structure ServoSet where
  stepThr : Nat := 10000
  lockThr : Nat := 100
  unlockThr : Nat := 1000
  slewMax : Nat := 500000
  lockCount : Nat := 8
  loopBw : Nat := 100
  deriving DecidableEq, Repr

/-- The Last (02). `cfgNext` is a SERVO_CONFIG that waits for the servo's next sample; `rateLog` holds the rates of the time in LOCKED, newest
first, with how long each held; `sinceSample` is the time since the latest valid sample (R33), `gap` that since the instant from which R478
counts, and `holdTime` the time in HOLDOVER, all in units of `Time` of the undisciplined clock; `loopBase` is the rate the loop would use without the servo's own slew (R36);
`calOld` holds the calibration before each CAL_SET of the last microsecond, oldest first, with the launch time up to which it holds (R44). -/
structure Last where
  counter : Time := 0
  coarse : Bool := true
  cycles : Nat := 0
  rateSet : Int := 0
  rateEff : Int := 0
  rHold : Int := 0
  thetaEntry : Int := 0
  rateLog : List (Int × Nat) := []
  sinceSample : Nat := 0
  gap : Nat := 0
  servo : Servo := .free
  src : Byte := 0
  domain : Byte := 0
  valid : Bool := false
  rcFallback : Bool := false
  utcOffset : Half := 0
  utcValid : Bool := false
  slew : Option Slew := none
  offset : Int := 0
  inRun : Nat := 0
  outRun : Nat := 0
  holdTime : Nat := 0
  die : Int := 2500
  hot : Bool := false
  cfg : ServoSet := {}
  cfgNext : Option ServoSet := none
  samples : Nat := 0
  loopBase : Int := 0
  cal : Calib := {}
  calOld : List (Calib × Time) := []
  deriving DecidableEq, Repr

/-- The status codes of Table 4.7. -/
inductive Status where
  | ok | pending | staged | badVersion | badOpcode | badLength | badCrc | notOwner | locked | noResource | busy | range
  | tooLate | split | fenced | notSynced | noClock | timeout | groupUnknown | denied | internal
  deriving DecidableEq, Repr, Inhabited

/-- The code of a status (Table 4.7). -/
def Status.code : Status → Nat
  | .ok => 0x0000 | .pending => 0x0001 | .staged => 0x0002 | .badVersion => 0x0100 | .badOpcode => 0x0101
  | .badLength => 0x0102 | .badCrc => 0x0103 | .notOwner => 0x0104 | .locked => 0x0105 | .noResource => 0x0106
  | .busy => 0x0107 | .range => 0x0108 | .tooLate => 0x0109 | .split => 0x010A | .fenced => 0x010B | .notSynced => 0x010C
  | .noClock => 0x010D | .timeout => 0x010E | .groupUnknown => 0x010F | .denied => 0x0110 | .internal => 0x0200

/-- A reply (Table 4.6): status, opcode and tag, completion time in whole ns of the Last, result bytes; `dest` is the ORIGIN
word of the command cell it goes back to when the packet came in a command cell (R218); `raw` is not empty for a reply that came
from another node, and holds its bytes. -/
structure Reply where
  status : Status
  opcode : Half
  tag : Half
  done : Nat
  results : List Byte := []
  dest : Option (BitVec 16) := none
  raw : List Byte := []
  deriving DecidableEq, Repr

/-- A command accepted and not yet in effect: class 1 with its apply time, or a class 0 command that waits for a Mirror swap
boundary (R100). `passed` says that a forward step passed its time (R55), `halted` that its time passed while the control core was halted (R446); `copied` holds
the entries a recall copied (R294), `loaded` says that the Mirror loader has filled the shadow bank with the entries of a commit (R289). -/
structure Pending where
  cmd : Instr
  due : Time
  timed : Bool
  passed : Bool := false
  halted : Bool := false
  copied : List Byte := []
  loaded : Bool := false
  deriving DecidableEq, Repr

/-- A command staged in a group (R104), with its GSEQ and staging entries. -/
structure Staged where
  gseq : Nat
  entries : Nat
  cmd : Instr
  copied : List Byte := []
  deriving DecidableEq, Repr

/-- An open commit group (R104 to R108): its commands by ascending GSEQ. `epoch` counts the epochs applied,
`commands`, `entries`, `epochs` and `split` are those of Table 4.11 at commit; `noClock` says that a register write of one of them
ended without an acknowledge (R66). -/
structure Group where
  num : Nat
  staged : List Staged := []
  committing : Bool := false
  armed : Bool := false
  epoch : Nat := 0
  commands : Nat := 0
  entries : Nat := 0
  epochs : Nat := 0
  split : Nat := 0
  noClock : Bool := false
  deriving DecidableEq, Repr, Inhabited

/-- A class 2 command, running when first in its queue (R100); `denied` says that it ends at its next stopping point with S_DENIED
(R117, R142); `line` counts the lines that a running PAGE_COPY has copied (R141). -/
structure Class2 where
  cmd : Instr
  denied : Bool := false
  line : Nat := 0
  deriving DecidableEq, Repr

/-- EY_STATUS.STATE (Table 4.12). -/
inductive TenantState where
  | closed | open | closing
  deriving DecidableEq, Repr, Inhabited

/-- The number of a state of a tenant (Table 4.12). -/
def TenantState.code : TenantState → Nat
  | .closed => 0 | .open => 1 | .closing => 2

/-- An entry of the scene directory (R293, Table 10.12): scene, page, byte offset, entries, bytes. -/
structure Scene where
  scene : Nat
  page : Nat
  offset : Nat
  entries : Nat
  bytes : Nat
  deriving DecidableEq, Repr, Inhabited

/-- The Mirror of a tenant (R288): boundary settings, swaps and the active bank. -/
structure MirrorState where
  family : Nat := 1
  rate : Nat := 0
  block : Nat := 32
  rampLen : Nat := 256
  bankB : Bool := false
  swaps : Nat := 0
  deriving DecidableEq, Repr, Inhabited

/-- A packet taken and not yet executed (R94): one given as the command it spells, or one given as its bytes with the tenant,
transport and origin it came by. -/
inductive Arrival where
  | cmd (i : Instr)
  | raw (r : Req) (bytes : List Byte)
  deriving DecidableEq, Repr

/-- One tenant: its Eyelet (Table 4.12), its replies, its commands and its Mirror. `remote` lists the opcode and tag of each packet
forwarded to another node whose final reply has not come, with 0 while no reply has come, 1 after an interim reply, 2 when it was
answered S_TIMEOUT (R89). `taken` holds the packets taken and not yet executed, each with its place in the one queue of R100; `markDue` says that the tenant opened while channel C was scanned, so its mark is the head the
scan finds (R362). -/
structure Tenant where
  st : TenantState := .closed
  transports : BitVec 4 := 0
  irqEn : BitVec 6 := 0
  cringBase : DWord := 0
  rringBase : DWord := 0
  clog2 : BitVec 4 := 0
  rlog2 : BitVec 4 := 0
  ringEn : Bool := false
  cTail : Half := 0
  cHead : Half := 0
  rHead : Half := 0
  rTail : Half := 0
  inbox : List (Nat × Byte) := []
  inboxHigh : Nat := 0
  inboxBusy : Bool := false
  inboxVia : Transport := .pcie
  outbox : List Byte := []
  outFull : Bool := false
  replyQ : List Reply := []
  waiting : List (Bool × Reply) := []
  latch : Stamp := {}
  latchServo : BitVec 2 := 0
  irqSeen : BitVec 6 := 0
  cancelled : Nat := 0
  discarded : Nat := 0
  openC : Word := 0
  markDue : Bool := false
  openB : Word := 0
  scenes : List Scene := []
  mirror : MirrorState := {}
  pend : List Pending := []
  groups : List Group := []
  class2 : List Class2 := []
  taken : List (Nat × Arrival) := []
  remote : List (Half × Half × Nat) := []
  deriving DecidableEq, Repr, Inhabited

/-- The xSPI flash as far as the recorder uses it: programmed bytes (unlisted bytes read 0xFF, erased), and the sectors whose
erase was cut or failed, which never count as erased (R364, R366). -/
structure Flash where
  cells : List (Nat × Byte) := []
  dirty : List Nat := []
  sizeLog2 : Nat := 0
  deriving DecidableEq, Repr

/-- A channel C entry waiting in the queue of R351: the fields of its record but SEQ, which it takes when programmed; `raw`
says that its HOURS is a count since AON power-up, not yet settled (R480). -/
structure CEntry where
  code : Nat
  origin : Nat
  supp : Nat
  hours : Nat
  raw : Bool
  valid : Bool
  time : Nat
  data : List Byte
  deriving DecidableEq, Repr

/-- The recorder descriptor (Table 13.6). -/
structure Descriptor where
  cBase : Nat
  cSize : Nat
  dumpBase : Nat
  tick : Nat
  deriving DecidableEq, Repr, Inhabited

/-- A channel B record in the ring (Table 13.4). -/
structure BRec where
  seq : Word
  code : Nat
  origin : Nat
  data : List Byte
  deriving DecidableEq, Repr, Inhabited

/-- A dump in progress (R357): slot, trigger, FREEZE, records done; whether its header and its COUNT are programmed; HOURS
(`raw`: counted since AON power-up, not yet settled), TIME_VALID and TIME at the trigger; whether EVREC_FLUSH began it. -/
structure Dump where
  slot : Nat
  trigger : Nat
  freeze : Word
  index : Nat := 0
  header : Bool := false
  counted : Bool := false
  hours : Nat
  raw : Bool
  valid : Bool
  time : Nat
  flush : Bool := false
  deriving DecidableEq, Repr

/-- The event recorder (13). `cHead` is the next channel C SEQ, `bHead` the next channel B SEQ; `ring` is channel B, newest
first, and `bOld` what it held before a loss of AON power that the Store survived (R356). Bucket levels are in units of
1/960,000,000 token, at the AON tick they were last brought up to. `eraseQ` holds the sectors to erase, oldest first, by flash
address; `flushed` is FREEZE, COUNT and SLOT of the dump an EVREC_FLUSH made. -/
structure Evrec where
  cState : Nat := 0
  bService : Bool := false
  queue : List CEntry := []
  cHead : Word := 0
  ring : List BRec := []
  bOld : List BRec := []
  bHead : Word := 0
  buckets : List (Nat × Nat × Nat) := []
  global : Nat × Nat := (16 * 960000000, 0)
  rates : List (Nat × Nat × Nat) := []
  rateAll : Nat × Nat := (60, 16)
  supp : List (Nat × Nat) := []
  suppressed : Word := 0
  nvmErrors : Word := 0
  failures : Nat := 0
  hours : Nat := 0
  hoursTicks : Nat := 0
  cycles : Nat := 0
  settled : Bool := false
  desc : Option Descriptor := none
  writePos : Nat := 0
  skipSector : Option Nat := none
  eraseQ : List Nat := []
  dump : Option Dump := none
  flushed : Option (Nat × Nat × Nat) := none
  flash : Flash := {}
  deriving DecidableEq, Repr

end Sys2Proof.Machine
end

