-- ==== Sys2Proof/Machine/StateMedia.lean ====
section
/-! DEFINITION. State of the Prieth fabric (08), the audio ports and MCGs (09), Prism and Mirror (10) and the Lens cores (11):
plain data. -/

namespace Sys2Proof.Machine

/-- A fade of R257 to R259: `step` counts boundaries; `again` says that a ramp-in waits for a fade-out to end; `held` is the
last sample before the fade. -/
inductive FadeState where
  | pass | out | silent | rampIn
  deriving DecidableEq, Repr, Inhabited

/-- The fade of one channel. -/
structure Fade where
  st : FadeState := .pass
  step : Nat := 0
  again : Bool := false
  held : Word := 0
  deriving DecidableEq, Repr, Inhabited

/-- An express cell (Table 8.5). -/
inductive ExpressCell where
  | enum (addr : Nat) (depth : Nat) (setSource : Bool) (epoch : Half) (limit : Nat)
  | enumDone (next : Nat) (epoch : Half)
  | enumReject (reason : Nat) (epoch : Half)
  | prepare (fid tenant group : Nat)
  | prepareAck (fid ready idle failed firstFailed : Nat)
  | apply (fid : Nat) (sHi sLo ns : Word)
  | abort (fid : Nat)
  deriving DecidableEq, Repr

/-- A symbol of 8b/10b coding, by its octet: a control symbol Kx.y or a data symbol Dx.y (R208). -/
inductive LinkSymbol where
  | k (octet : Byte)
  | d (octet : Byte)
  deriving DecidableEq, Repr

/-- A cell in a transmit queue: a reply or a packet, its destination, origin node and tenant, its bytes (Table 8.4). -/
structure QueuedCell where
  isReply : Bool
  dest : Nat
  origin : Nat
  tenant : Nat
  bytes : List Byte
  deriving DecidableEq, Repr

/-- What feeds or takes a link slot (R216): a Prism channel, or a forward to or from a slot of another port. -/
inductive SlotMap where
  | prism (ch : Nat)
  | forward (port slot : Nat)
  deriving DecidableEq, Repr

/-- A Prieth port (08). States: 0 DOWN, 1 SYNCING, 2 UP; roles: 0 unassigned, 1 upstream, 2 downstream, 3 blocked. `txLog` holds
the index and launch of the frames sent last, newest first, `lastRx` the index, launch and receive stamp of the last frame with a
valid time cell, in 0.25 ns; `dMean` the delay values of R223, newest first, and `offset` the last sample of R224, in 2^-16 ns;
`express` the express cells to send, with the TIME cycle in which each was queued; `rx` buffers samples by slot and release boundary, `txBuf`
those to send by slot and boundary; `reattach` asks for the ENUM of R233. `launched` is the elapsed position at which the frame sent last began,
`tailDue` says that its EXP1 and what follows are still to be sent (R222); `rxFrame` and `rxRate` are the number of the frame received last, counted
from the epoch, and the RATE it carries (R210, R213). -/
structure PlPort where
  st : Nat := 0
  role : Nat := 0
  rateTx : Nat := 0
  rateRx : Nat := 0
  peer : Half := 0xFFFF
  peerDepth : Byte := 0xFF
  peerFlags : Byte := 0
  framesOk : Word := 0
  framesBad : Word := 0
  cellsDropped : Word := 0
  audioBad : Word := 0
  goodRun : Nat := 0
  txLog : List (Nat × Int) := []
  launched : Option Nat := none
  tailDue : Bool := false
  rxFrame : Option Int := none
  rxRate : Nat := 0
  lastRx : Option (Nat × Int × Int) := none
  dMean : List Int := []
  lastMean : Int := 0
  offset : Int := 0
  first : Nat := 0xFFFF
  last : Nat := 0xFFFF
  queue : List QueuedCell := []
  express : List (Nat × ExpressCell) := []
  tx : List (Nat × SlotMap) := []
  rxMap : List (Nat × SlotMap) := []
  rx : List (Nat × List (Int × Word)) := []
  txBuf : List (Nat × List (Int × Word)) := []
  rxFades : List (Nat × Fade) := []
  pendingMap : List MapCfg := []
  acked : Bool := false
  reattach : Bool := false
  deriving DecidableEq, Repr, Inhabited

/-- An enumeration a node runs (R228): the port in turn (4 when every port was tried), the next free address, the limit, the
ports it left blocked; `again` marks the re-attachment of one port (R233). -/
structure EnumRun where
  port : Nat
  next : Nat
  limit : Nat
  setSource : Bool
  isRoot : Bool
  tenant : Nat
  blocked : Nat
  again : Bool
  deriving DecidableEq, Repr

/-- The root's fabric commit (R234 to R240), or a node's share of it: `by_` is the preparing tenant, 16 at a node that is not the
root; `prepared` says that its counts are complete and sent on, `applied` that the root has accepted FABRIC_APPLY. -/
structure FabricRun where
  fid : Nat
  tenant : Nat
  by_ : Nat
  group : Nat
  prepared : Bool := false
  applied : Bool := false
  ready : Nat := 0
  idle : Nat := 0
  failed : Nat := 0
  firstFailed : Nat := 0xFFFF
  deriving DecidableEq, Repr

/-- An armed commit of this node (R234): FID, tenant, group. -/
structure Armed where
  fid : Nat
  tenant : Nat
  group : Nat
  due : Option Time := none
  deriving DecidableEq, Repr

/-- The Prieth fabric (08). -/
structure Plink where
  ports : List PlPort := List.replicate 4 {}
  addr : Nat := 0
  rooted : Bool := false
  root : Bool := false
  depth : Nat := 0
  epoch : Half := 0
  lastAddr : Nat := 0
  enumRun : Option EnumRun := none
  nodes : Nat := 0
  maxDepth : Nat := 0
  blockedAll : Nat := 0
  fabric : Option FabricRun := none
  armed : Option Armed := none
  deriving DecidableEq, Repr

/-- A media clock generator (09). Modes: 0 disabled, 1 SYNTHESISE, 2 MEASURE. `began` is the time at which the window in progress began. -/
structure Mcg where
  mode : Nat := 0
  family : Nat := 0
  mult : Nat := 0
  window : Nat := 0
  clockOk : Bool := false
  ppb : Int := 0
  phase : Int := 0
  began : Time := 0
  deriving DecidableEq, Repr, Inhabited

/-- One direction of a port's FIFO with its fades: frames of compacted channels, oldest first, each with the mask it was written under
(R255, R256); `mask` is that of the frame read last (R268). -/
structure PortFifo where
  frames : List (Word × List Word) := []
  reading : Bool := false
  mask : Word := 0
  slip : Bool := false
  overrun : Bool := false
  fades : List Fade := List.replicate 32 { st := .silent }
  deriving DecidableEq, Repr, Inhabited

/-- A change of a running port not yet finished (R268, R269). -/
inductive PortChange where
  | mask (tx rx : Word) (started : Bool)
  | rate (mcg rate family : Nat) (started : Bool)
  deriving DecidableEq, Repr

/-- An audio port (09). States: 0 stopped, 1 pre-roll, 2 running, 3 post-roll, 4 waiting, 5 change. `stopping` says that the
fade-outs before a post-roll run; `recv` is the input frame in progress, which the FIFO takes when it is complete; `frameB` the boundary at
which an on-grid port's last frame began; `lastSync` the stamp of a slave port's last frame sync; `meas` the start and the frames of the
second over which DRIFT is measured; `low` says that the outputs drive low for want of a clock (Table 3.6); `sdo` holds APn_SDO bit by bit
over the frame, none where it is high impedance. -/
structure Aport where
  cfg : Option AportCfg := none
  family : Nat := 0
  mcg : Nat := 0
  rate : Nat := 0
  st : Nat := 0
  txMask : Word := 0
  rxMask : Word := 0
  startReq : Bool := false
  stopReq : Bool := false
  change : Option PortChange := none
  left : Nat := 0
  stopping : Bool := false
  inp : PortFifo := {}
  outp : PortFifo := {}
  underruns : Word := 0
  overruns : Word := 0
  frames : Word := 0
  locked : Bool := false
  goodRun : Nat := 0
  drift : Int := 0
  meas : Option (Time × Nat) := none
  clocks : Bool := false
  recv : Option (Word × List Word) := none
  frameB : Option Int := none
  lastSync : Option Time := none
  low : Bool := false
  sdo : List (Option Bool) := []
  deriving DecidableEq, Repr, Inhabited

/-- The audio ports and MCGs (09); `grid` is G of R244. -/
structure Audio where
  grid : Time := 0
  mcgs : List Mcg := List.replicate 4 {}
  ports : List Aport := List.replicate 8 {}
  deriving DecidableEq, Repr

/-- The class of a source (Table 10.3) with a change under way, its fade of R279 (steps 0 to 63 out, 64 to 127 in, none at
full gain), the rate its history was formed at, and that history: x[n-1], y[n-1] of the DC blocker, x[n-1], x[n-2], y[n-1],
y[n-2] of the wind high-pass. -/
structure SourceClass where
  cls : Nat := 0
  wind : Nat := 0
  change : Option (Nat × Nat) := none
  fade : Option Nat := none
  fs : Nat := 0
  dc : Int × Int := (0, 0)
  hp : Int × Int × Int × Int := (0, 0, 0, 0)
  deriving DecidableEq, Repr, Inhabited

/-- A ramp of a gain (R291): the gain it starts from, a fraction of 2^-27, the steps done, the length. -/
structure Ramp where
  num : Int
  den : Nat
  step : Nat
  len : Nat
  deriving DecidableEq, Repr

/-- A crosspoint (R280): its gain code, its ramp, whether it is being cleared, the step of its fade-out after a revoke, whether a
rate mismatch holds it at zero (R273), the tenant that set it. -/
structure Xp where
  source : Nat
  bus : Nat
  code : Int
  ramp : Option Ramp := none
  clearing : Bool := false
  dying : Option Nat := none
  mismatch : Bool := false
  owner : Nat := 0
  deriving DecidableEq, Repr

/-- A route of a sink (R272), with the old source and the step and length of a cross-fade while one runs (R292), and the step of
its fade-out after a revoke. -/
structure Route where
  sink : Nat
  source : Option Nat
  cut : Bool := false
  old : Option Nat := none
  ramp : Option (Nat × Nat) := none
  dying : Option Nat := none
  mismatch : Bool := false
  owner : Nat := 0
  deriving DecidableEq, Repr

/-- A mix bus (R282 to R286): settings, range now, its count of R285, the word and range formed, and the word and range now
at its output. -/
structure Bus where
  family : Nat := 1
  rate : Nat := 0
  auto : Bool := false
  range : Nat := 0
  below : Nat := 0
  steps : Word := 0
  formed : Int := 0
  formedS : Nat := 0
  out : Int := 0
  outS : Nat := 0
  deriving DecidableEq, Repr, Inhabited

/-- What a route gives its sink, before the bus outputs it takes are formed (R274, R292): (known + the sum of weight·output over `buses`)/den,
in 2^-31, scaled by the step of the fade of a revoke. -/
structure SinkForm where
  sink : Nat
  known : Int
  buses : List (Nat × Int) := []
  den : Nat := 1
  dying : Option Nat := none
  deriving DecidableEq, Repr

/-- The pipeline of one rate (R274): for each of the boundaries in the route and mix stages, the routed values and the bus sums,
in 2^-35; and the sink values that leave at the next boundary. -/
structure Pipe where
  stages : List (List SinkForm × List (Nat × Int)) := []
  formed : List (Nat × Word) := []
  deriving DecidableEq, Repr, Inhabited

/-- Prism (10). `srcFades` are the fades of listener channels by source; `sinkFades` those of routed sinks while they fade for
QUIET, SLEEP or HOLDOVER or ramp in after; `gated` says that Prism is gated. -/
structure Prism where
  classes : List (Nat × SourceClass) := []
  xps : List Xp := []
  routes : List Route := []
  buses : List Bus := List.replicate 128 {}
  pipes : List Pipe := List.replicate 6 {}
  sinkFades : List (Nat × Fade) := []
  srcFades : List (Nat × Fade) := []
  gated : Bool := false
  deriving DecidableEq, Repr

/-- The kernel header fields the core uses (Table 11.12). -/
structure Kernel where
  tri : Bool
  inCh : Nat
  outCh : Nat
  params : Nat
  init : Nat
  block : Nat
  pmBase : Nat
  pmWords : Nat
  xmBase : Nat
  xmWords : Nat
  ymBase : Nat
  ymWords : Nat
  inBuf : Nat
  outBuf : Nat
  prmBuf : Nat
  fix : Nat
  per : Nat
  crc : Word
  deriving DecidableEq, Repr, Inhabited

/-- A kernel slot (11). States: 0 EMPTY, 1 LOADED, 2 CHAINED, 3 RUNNING, 4 STOPPING, 5 FAULT. `staged` says that the slot
takes its other parameter bank at the next block start, with the values written there; `outq` holds blocks formed, by output boundary,
each a list of samples by channel; `fadeAt` and `rampAt` are the output boundaries at which a fade-out or a ramp-in begins. -/
structure LensSlot where
  st : Nat := 0
  kernel : Option Kernel := none
  chain : Option ChainCfg := none
  bankB : Bool := false
  newBank : Bool := false
  staged : List (Nat × Word) := []
  pch : Bool := false
  first : Bool := false
  needInit : Bool := false
  startReq : Bool := false
  stopReq : Bool := false
  outq : List (Int × List (List Word)) := []
  fadeAt : Option Int := none
  rampAt : Option Int := none
  fades : List Fade := List.replicate 16 { st := .silent }
  deriving DecidableEq, Repr, Inhabited

/-- A loop stack entry (R317): start, end, count left, rotation base of the loop enclosing, whether this loop rotates, whether
its first iteration runs. -/
structure LoopEntry where
  start : Nat
  last : Nat
  count : Nat
  rotOuter : Nat
  rot : Bool
  first : Bool
  deriving DecidableEq, Repr, Inhabited

/-- What a core is running: the block whose input it processes, the output boundary of its first sample, the slot, whether its INIT entry,
and the entries still to run in this block. -/
structure LensRun where
  blk : Int
  out : Int
  slot : Nat
  init : Bool
  rest : List (Nat × Bool)
  deriving DecidableEq, Repr

/-- A Lens core (11). Memories list their words that are not zero; pm is by 32-bit word. `cache` is the body the loop cache
holds, `rep` the repetitions a REP asks of the next instruction; `aborting` says that a deadline abort waits for its point, `discard`
that the outputs of this block are thrown away after a halt (R445); `inBlk` the samples of the sixteen input sinks gathered in
this block. -/
structure LensCore where
  pm : List (Nat × Word) := []
  xm : List (Nat × Word) := []
  ym : List (Nat × Word) := []
  d : List Word := List.replicate 16 0
  a : List (BitVec 80) := List.replicate 8 0
  p : List Half := List.replicate 8 0
  m : List Half := List.replicate 8 0
  l : List Half := List.replicate 8 0
  o : List Half := List.replicate 8 0
  z : Bool := false
  n : Bool := false
  sat : Bool := false
  be : Bool := false
  pch : Bool := false
  firstBlk : Bool := false
  tri : Bool := false
  rot : Nat := 0
  loops : List LoopEntry := []
  calls : List Nat := []
  cache : Option (Nat × Nat) := none
  rep : Option Nat := none
  pc : Nat := 0
  run : Option LensRun := none
  family : Nat := 1
  rate : Nat := 0
  block : Nat := 8
  slots : List LensSlot := List.replicate 4 {}
  strikesSet : Nat := 0
  guard_ : Nat := 256
  deadlineSet : Option (Nat × Nat) := none
  strikes : Nat := 0
  overruns : Word := 0
  faults : Word := 0
  cyclesMax : Nat := 0
  cyclesLast : Nat := 0
  cycles : Nat := 0
  missed : Bool := false
  aborting : Bool := false
  discard : Bool := false
  clearing : Bool := false
  sinks : List Word := List.replicate 16 0
  inBlk : List (List Word) := []
  deriving DecidableEq, Repr, Inhabited

end Sys2Proof.Machine
end

