-- ==== Sys2Proof/Machine/StatePorts.lean ====
section
/-! DEFINITION. State of the Ethernet time ports with gPTP and AVTP (06) and of the time pins, reflex paths and FSGs (07):
plain data. Elapsed times are counts of 0.25 ns of TIME cycles (R202 counts WIDTH in elapsed time). -/

namespace Sys2Proof.Machine

/-- Best master vector of an Announce (06): priorities, quality, identity, steps, sender. -/
structure Vector802 where
  priority1 : Nat
  clockClass : Nat
  accuracy : Nat
  variance : Nat
  priority2 : Nat
  gmId : DWord
  steps : Nat
  sender : DWord
  senderPort : Nat
  deriving DecidableEq, Repr, Inhabited

/-- A PTP Port in one domain (R152 to R156). Roles: 0 disabled, 1 master, 2 slave, 3 passive. -/
structure PtpRole where
  set : Option Nat := none
  role : Nat := 0
  best : Option Vector802 := none
  lost : Bool := false
  logSync : Option Int := none
  lastSync : Option Nat := none
  lastAnn : Option Nat := none
  logAnn : Option Int := none
  waiting : Option (Half × Time × Int) := none
  deriving DecidableEq, Repr, Inhabited

/-- What an AVTP frame carries after its stream_id (R157, R160, R163). -/
inductive AvBody where
  | aaf (tv : Bool) (format nsr channels : Byte) (timestamp : Word) (payload : List Byte)
  | crf (kind : Byte) (baseFreq : Word) (tsInterval : Half) (stamps : List DWord)
  deriving DecidableEq, Repr

/-- An AVTP frame a talker sends (R159): its port and stream slot, its addresses, its VLAN tag. -/
structure AvFrame where
  port : Nat
  stream : Nat
  dest : BitVec 48
  source : BitVec 48
  priority : Nat
  vid : Nat
  streamId : DWord
  seq : Byte
  body : AvBody
  deriving DecidableEq, Repr

/-- The head of a gPTP message: the port it leaves by, its domainNumber, its sourcePortIdentity, its sequenceId (R149, R151). -/
structure PtpHead where
  port : Nat
  domain : Nat
  source : PortId
  seq : Half
  deriving DecidableEq, Repr, Inhabited

/-- A credit-based shaped queue (R165): the frames that wait, oldest first, with their bits on the wire, and the credit in units of
2·10^-6 bit, so that one TIME cycle of 2 ns adds the idleSlope in kb/s. -/
structure Shaper where
  frames : List (AvFrame × Nat) := []
  credit : Int := 0
  deriving DecidableEq, Repr, Inhabited

/-- An Ethernet time port (06). Delays are in 2^-16 ns. `req` is the stamp t1 and sequence of the peer delay request in
flight, `resp` the t2 and t4 of its response. `lineFree` is the TIME cycle from which the line is free, `credAt` that up to which the
credits of the two queues are counted (R165). -/
structure EthPort where
  mode : Nat := 0
  vid : Nat := 0
  mac : Option (BitVec 48) := none
  link : Bool := false
  rxFrames : Word := 0
  rxFcsErr : Word := 0
  rxDropped : Word := 0
  txFrames : Word := 0
  ringDropped : Word := 0
  idleA : Nat := 0
  idleB : Nat := 0
  shapeA : Shaper := {}
  shapeB : Shaper := {}
  lineFree : Nat := 0
  credAt : Nat := 0
  linkDelay : Int := 0
  asCapable : Bool := false
  lostResponses : Nat := 0
  pdelaySeq : Half := 0
  req : Option (Half × Int) := none
  resp : Option (Half × Int × Int) := none
  respPrev : Option (Int × Int) := none
  ratio : Int × Nat := (1, 1)
  d0 : PtpRole := {}
  d1 : PtpRole := {}
  deriving DecidableEq, Repr, Inhabited

/-- The settings of GPTP_CONFIG (Table 6.4). -/
structure GptpSet where
  mode : Nat := 0
  domain1 : Nat := 0
  priority1 : Nat := 248
  priority2 : Nat := 248
  clockClass : Nat := 248
  accuracy : Nat := 0xFE
  variance : Nat := 0x4100
  logSync : Int := -3
  logPdelay : Int := 0
  logAnnounce : Int := 0
  syncTimeout : Nat := 3
  announceTimeout : Nat := 3
  gmCapable : Bool := false
  timeSource : Byte := 0
  pdelayThresh : Nat := 800
  clockId : DWord := 0
  deriving DecidableEq, Repr

/-- What is common to a domain: its grandmaster, and the sequence of Syncs sent. -/
structure PtpDomain where
  gm : DWord := 0
  steps : Nat := 0
  syncSeq : Half := 0
  annSeq : Half := 0
  deriving DecidableEq, Repr, Inhabited

/-- What a stream slot carries (R157). -/
inductive StreamCfg where
  | aaf (cfg : AvtpCfg)
  | crf (cfg : CrfCfg)
  deriving DecidableEq, Repr

/-- An AVTP stream slot (06). State: 0 idle, 1 running, 2 waiting, from boundary `startB` on and up to boundary `stopB` (R169). `buf` holds the
samples accepted for each boundary index; `next` is the boundary after the last sample placed; `collected` is what a talker has gathered for
its next packet, from boundary `firstB` on, and `nextSend` the TIME cycle at which its class's interval has passed (R159); `crfLast` is the last
stamp a CRF listener was given. -/
structure Stream where
  cfg : Option StreamCfg := none
  state : Nat := 0
  packets : Word := 0
  late : Word := 0
  early : Word := 0
  seqGaps : Word := 0
  bad : Word := 0
  crfPpb : Int := 0
  crfPhase : Int := 0
  next : Option Int := none
  seq : Option Byte := none
  buf : List (Int × List Word) := []
  collected : List (List Word) := []
  firstB : Int := 0
  sent : Byte := 0
  startB : Option Int := none
  stopB : Option Int := none
  nextSend : Nat := 0
  crfLast : Option DWord := none
  deriving DecidableEq, Repr, Inhabited

/-- The Ethernet time ports (06). -/
structure Eth where
  ports : List EthPort := List.replicate 4 {}
  gptp : GptpSet := {}
  dom0 : PtpDomain := {}
  dom1 : PtpDomain := {}
  talkers : List Stream := List.replicate 64 {}
  listeners : List Stream := List.replicate 64 {}
  rxPorts : BitVec 4 := 0
  rxActions : BitVec 3 := 0
  rxLog2 : Nat := 0
  rxBase : DWord := 0
  rxIndex : Nat := 0
  deriving DecidableEq, Repr

/-- An action queued on a SINGLE pin (R174): 0 inactive, 1 active, 2 pulse. -/
structure PinAction where
  handle : Nat
  time : Time
  action : Nat
  fireLate : Bool
  late : Bool := false
  deriving DecidableEq, Repr

/-- An entry of a pin's report queue (Table 7.5): its time, its kind, its handle. -/
structure PinReport where
  time : Time
  kind : Nat
  handle : Nat
  deriving DecidableEq, Repr

/-- A time pin (07). `z` says that the watchdog holds the ball at high impedance (R374); `falls` holds the elapsed position of the
trailing edge of each pulse in progress (R202), `reflexEnd` the end of the latest pulse a reflex path gave the pin (R187). -/
structure Pin where
  mode : Nat := 0
  edge : BitVec 2 := 0
  invert : Bool := false
  validOnly : Bool := false
  fireLate : Bool := false
  source : Nat := 0
  width : Nat := 0
  period : Nat := 0
  offset : Nat := 0
  level : Bool := false
  active : Bool := false
  z : Bool := false
  falls : List Nat := []
  lastEdge : Option Nat := none
  actions : List PinAction := []
  handle : Nat := 0
  reports : List PinReport := []
  lost : Word := 0
  next : Option Time := none
  pendingCfg : Option (TpinCfg × Time) := none
  reflexEnd : Option Nat := none
  deriving DecidableEq, Repr, Inhabited

/-- A reflex path (07). `trim` and `lat` are the trim of R184 and the latency from ball to ball it serves, in ps; `trimNext` holds the
trims that a CAL_SET gave and that edges after a time take (R185), in the order of those times; `used` is the number of the window already
used (MODE 2). -/
structure Path where
  mode : Nat := 0
  inPin : Nat := 0
  outPin : Nat := 0
  delay : Nat := 0
  width : Nat := 0
  trim : Int := 0
  lat : Int := 0
  trimNext : List (Time × Int × Int) := []
  base : Nat := 0
  fsg : Nat := 0
  openAt : Nat := 0
  length : Nat := 0
  period : Nat := 0
  gate : Bool := false
  used : Option Int := none
  deriving DecidableEq, Repr, Inhabited

/-- The settings of an FSG (R191, R192), NUM/DEN in lowest terms; times in 0.25 ns. -/
structure FsgSet where
  num : Nat
  den : Nat
  width : Nat
  phase : Nat
  minFrame : Nat
  deriving DecidableEq, Repr, Inhabited

/-- A frame-sync generator (07). `k` numbers the next grid start; `skip` says that start is skipped, with its cause; `starts` holds the
number and the start of the frame in progress and of the one before it (R189), `launched` the pins whose edge of start `k` has already been
launched, because it leaves the ball before the frame start (R40). -/
structure Fsg where
  running : Bool := false
  cfg : Option FsgSet := none
  change : Option (FsgSet × Time) := none
  frames : Word := 0
  skips : Word := 0
  k : Int := 0
  skip : Option Nat := none
  frameBegan : Option Nat := none
  pulseEnd : Option Nat := none
  starts : List (Nat × Time) := []
  launched : List Nat := []
  deriving DecidableEq, Repr, Inhabited

/-- Time pins, reflex paths and FSGs (07). `stoppedAt` is the AON tick at which the TIME domain went into reset (R204). -/
structure Trig where
  pins : List Pin := List.replicate 32 {}
  paths : List Path := List.replicate 16 {}
  fsgs : List Fsg := List.replicate 8 {}
  stoppedAt : Option Nat := none
  deriving DecidableEq, Repr

end Sys2Proof.Machine
end

