-- ==== Sys2Proof/Machine/State.lean ====
section
/-! DEFINITION. The state of the block, the reasons a step can stop, and the state after power-on reset. -/

namespace Sys2Proof.Machine

/-- What the block sends to the outside, in the order it sends it (log entry 6). -/
inductive Output where
  /-- An Ethernet frame of a port, by its kind and fields. -/
  | ethSync (head : PtpHead)
  | ethFollowUp (head : PtpHead) (ns : Nat) (correction rateOffset : Int)
  | ethAnnounce (head : PtpHead) (gm : Vector802) (timeSource : Byte)
  | ethPdelayReq (head : PtpHead)
  | ethPdelayResp (head : PtpHead) (asked : PortId) (ns : Nat) (correction : Int)
  | ethPdelayFollowUp (head : PtpHead) (asked : PortId) (ns : Nat) (correction : Int)
  | avtp (frame : AvFrame)
  /-- Bytes written into host memory by the Ethernet DMA (R168). -/
  | hostWrite (addr : DWord) (bytes : List Byte)
  /-- The symbols of a Prieth frame from its SFD up to EXP1, and then EXP1 with the pair of idle symbols that repeats up to the next SFD (R208,
  R209, R222). -/
  | plFrame (port : Nat) (symbols : List LinkSymbol)
  | plTail (port : Nat) (symbols idle : List LinkSymbol)
  /-- A reply written into a reply ring slot (R93), and an MSI-X message (R88). -/
  | ringReply (tenant slot : Nat) (bytes : List Byte)
  | msix (tenant vector : Nat)
  /-- The answer of the matrix to a master (05): an error or not, and the bytes read; and a posted write to the host. -/
  | response (master : Nat) (error : Bool) (data : List Byte)
  /-- The bytes a host reads from an Eyelet over a transport (R14, R84, R87). -/
  | hostData (via : Transport) (bytes : List Byte)
  | pcieWrite (addr : Word) (data : List (Byte × Bool))
  deriving DecidableEq, Repr

/-- The whole block. -/
structure State where
  pending : List Instr
  free : Nat
  out : List Output
  sys : Sys
  last : Last
  tenants : List Tenant
  owners : List (Nat × Nat × Nat)
  store : Store
  eth : Eth
  trig : Trig
  plink : Plink
  audio : Audio
  prism : Prism
  lens : List LensCore
  evrec : Evrec
  wdog : Wdog
  pwr : Pwr
  dbg : Dbg
  deriving DecidableEq, Repr

/-- Why a step can stop with a fault. -/
inductive Fault where
  /-- Raised by a step whose operands describe an outside event that the spec says cannot be: the model stops where no
  hardware behaviour exists (safe). -/
  | badStimulus (what : String)
  deriving DecidableEq, Repr

/-- Why a command can be refused. -/
inductive Refusal where
  /-- Raised by an arm of `exec` whose command has no meaning in the model yet (safe). -/
  | notModelled (mnemonic : String)
  deriving DecidableEq, Repr

/-- The fields of Table 16.4 as the part leaves Zhocon: Root's fields unprogrammed, Zhocon's programmed (R415). -/
def fusesAtFactory : List Fuse :=
  ([1, 2, 3, 4, 5, 6, 7, 8].map fun f => { field := f }) ++
  ([0x10, 0x11, 0x12, 0x13, 0x14, 0x15, 0x16, 0x1F].map fun f =>
    { field := f, programmed := true, value := Config.factoryFuse f })

/-- T0 as it is from reset: open on every transport (R85, Table 4.12). -/
def rootAtReset : Tenant := { st := .open, transports := 15 }

/-- The block right after AON power-on reset (step 1 of Table 16.2): AON released, every other domain in reset, and every
register at the value its table gives (log entries 5 and 7). -/
def State.reset : State where
  pending := []
  free := 0
  out := []
  sys := { fuses := fusesAtFactory, shadow := fusesAtFactory }
  last := {}
  tenants := rootAtReset :: List.replicate 15 {}
  owners := []
  store := {}
  eth := {}
  trig := {}
  plink := {}
  audio := {}
  prism := {}
  lens := List.replicate 8 {}
  evrec := {}
  wdog := {}
  pwr := {}
  dbg := {}

end Sys2Proof.Machine
end

