-- ==== Sys2Proof/Machine/Ops.lean ====
section
/-! DEFINITION. The named operations every chapter uses: time words, access to the parts of the state, ownership, service
level, recording an event (13), and posting a reply (04). -/

namespace Sys2Proof.Machine

/-- The outcome of a step of the block. -/
abbrev Out := Host.Outcome State Fault Refusal

/-! Time words (02). -/

/-- Units of `Time` in one ns. -/
def nsU : Nat := 3 * 2 ^ 39 * 1000000000

/-- 2^48 s (R477). -/
def topTime : Time := (2 ^ 48 * 1000000000 * nsU : Nat)

/-- A whole number of ns as a `Time`. -/
def ofNs (n : Int) : Time := n * nsU

/-- A number of 2^-16 ns as a `Time`. -/
def ofFrac (n : Int) : Time := n * (nsU / 65536 : Nat)

/-- A number of 0.25 ns as a `Time`. -/
def ofQuarter (n : Int) : Time := n * (nsU / 4 : Nat)

/-- A number of ps as a `Time`. -/
def ofPs (n : Int) : Time := n * (nsU / 1000 : Nat)

/-- The whole ns of a time, its fraction dropped. -/
def nsOf (t : Time) : Int := t / nsU

/-- A time in whole 2^-16 ns, rounded down. -/
def fracOf (t : Time) : Int := t / (nsU / 65536 : Nat)

/-- A time rounded to whole 0.25 ns, ties toward the earlier (R41). -/
def quarterOf (t : Time) : Int := roundEarly t (nsU / 4)

/-- The seconds and ns words of a count of ns (Table 2.2). -/
def stampOfNs (n : Int) : Stamp where
  sHi := BitVec.ofInt 32 (n / 1000000000 / 2 ^ 32)
  sLo := BitVec.ofInt 32 (n / 1000000000)
  ns := BitVec.ofInt 32 (n % 1000000000)

/-- The four words of a time (R22), its fraction of 2^-16 ns rounded down. -/
def stampOf (t : Time) : Stamp :=
  { stampOfNs (nsOf t) with frac := BitVec.ofInt 32 (fracOf t % 65536 * 65536) }

/-- The time four words spell; reserved bits are ignored (R23). -/
def timeOf (w : Stamp) : Time :=
  ofNs (((w.sHi.toNat % 65536 * 2 ^ 32 + w.sLo.toNat) * 1000000000 + w.ns.toNat : Nat) : Int) +
    ofFrac ((w.frac.toNat / 65536 : Nat) : Int)

/-- The time of an apply time, which has no FRAC (R22). -/
def applyTime (w : Stamp) : Time := timeOf { w with frac := 0 }

/-- An NS word above 999,999,999 (R23). -/
def badNs (w : Stamp) : Bool := 999999999 < w.ns.toNat

/-- The 16 bytes of a time word. -/
def stampBytes (w : Stamp) : List Byte := leBits 4 w.sHi ++ leBits 4 w.sLo ++ leBits 4 w.ns ++ leBits 4 w.frac

/-- The advance of one TIME cycle at a rate, 2·(1 + rate·2^-40) ns (02, The counter). -/
def stepUnits (rate : Int) : Time := 2 * nsU + rate * 3000000000

/-! Parts of the state. -/

/-- The present value of the Last. -/
def State.now (s : State) : Time := s.last.counter

/-- The Last as the engine reports it: FRAC reads 0 while the coarse counter carries it (R26). -/
def reportStamp (s : State) : Stamp :=
  if s.last.coarse then { stampOf s.now with frac := 0 } else stampOf s.now

/-- The Last in whole ns, fraction dropped. -/
def nowNs (s : State) : Nat := (nsOf s.now).toNat

def State.tenant (s : State) (t : Nat) : Tenant := nth s.tenants t

def modTenant (t : Nat) (f : Tenant → Tenant) (s : State) : State := { s with tenants := updAt s.tenants t f }

def modSys (f : Sys → Sys) (s : State) : State := { s with sys := f s.sys }

def modLast (f : Last → Last) (s : State) : State := { s with last := f s.last }

def modEvrec (f : Evrec → Evrec) (s : State) : State := { s with evrec := f s.evrec }

def modPwr (f : Pwr → Pwr) (s : State) : State := { s with pwr := f s.pwr }

def modDbg (f : Dbg → Dbg) (s : State) : State := { s with dbg := f s.dbg }

def modWdog (f : Wdog → Wdog) (s : State) : State := { s with wdog := f s.wdog }

def modStore (f : Store → Store) (s : State) : State := { s with store := f s.store }

def modPin (p : Nat) (f : Pin → Pin) (s : State) : State :=
  { s with trig := { s.trig with pins := updAt s.trig.pins p f } }

def modPath (p : Nat) (f : Path → Path) (s : State) : State :=
  { s with trig := { s.trig with paths := updAt s.trig.paths p f } }

def modFsg (k : Nat) (f : Fsg → Fsg) (s : State) : State :=
  { s with trig := { s.trig with fsgs := updAt s.trig.fsgs k f } }

def modEthPort (p : Nat) (f : EthPort → EthPort) (s : State) : State :=
  { s with eth := { s.eth with ports := updAt s.eth.ports p f } }

def modStream (talker : Bool) (k : Nat) (f : Stream → Stream) (s : State) : State :=
  if talker then { s with eth := { s.eth with talkers := updAt s.eth.talkers k f } }
  else { s with eth := { s.eth with listeners := updAt s.eth.listeners k f } }

def modPl (p : Nat) (f : PlPort → PlPort) (s : State) : State :=
  { s with plink := { s.plink with ports := updAt s.plink.ports p f } }

def modAport (p : Nat) (f : Aport → Aport) (s : State) : State :=
  { s with audio := { s.audio with ports := updAt s.audio.ports p f } }

def modMcg (m : Nat) (f : Mcg → Mcg) (s : State) : State :=
  { s with audio := { s.audio with mcgs := updAt s.audio.mcgs m f } }

def modPrism (f : Prism → Prism) (s : State) : State := { s with prism := f s.prism }

def modBus (b : Nat) (f : Bus → Bus) (s : State) : State :=
  { s with prism := { s.prism with buses := updAt s.prism.buses b f } }

def modLens (n : Nat) (f : LensCore → LensCore) (s : State) : State := { s with lens := updAt s.lens n f }

def State.pin (s : State) (p : Nat) : Pin := nth s.trig.pins p
def State.path (s : State) (p : Nat) : Path := nth s.trig.paths p
def State.fsg (s : State) (k : Nat) : Fsg := nth s.trig.fsgs k
def State.ethPort (s : State) (p : Nat) : EthPort := nth s.eth.ports p
def State.stream (s : State) (talker : Bool) (k : Nat) : Stream := nth (if talker then s.eth.talkers else s.eth.listeners) k
def State.pl (s : State) (p : Nat) : PlPort := nth s.plink.ports p
def State.aport (s : State) (p : Nat) : Aport := nth s.audio.ports p
def State.mcg (s : State) (m : Nat) : Mcg := nth s.audio.mcgs m
def State.bus (s : State) (b : Nat) : Bus := nth s.prism.buses b
def State.core (s : State) (n : Nat) : LensCore := nth s.lens n

/-- Send to the outside. -/
def emit (o : Output) (s : State) : State := { s with out := s.out ++ [o] }

/-- Domain n has its clock and is out of reset. -/
def domainUp (s : State) (n : Nat) : Bool := s.sys.clkOk.getLsbD n && !s.sys.rst.getLsbD n

/-- The monitor of a domain's clock watches it (Table 3.2); of SPIT and JTAG it tells activity only. -/
def monitored (s : State) (d : Nat) : Bool :=
  if d < 4 || d = 25 then true
  else if d < 8 then (s.mcg (d - 4)).mode ≠ 0
  else if d < 16 then (s.aport (d - 8)).st ≠ 0
  else if d < 20 then (s.ethPort (d - 16)).mode ≠ 0
  else if d < 24 then (s.pl (d - 20)).st ≠ 0
  else d = 24 && s.sys.perstN && !s.sys.rst.getLsbD 24

/-- SYS_CLK_OK (Table 3.4): the clocks in range now, and those of SPIT and JTAG that toggled in the last window. -/
def clkWord (s : State) : BitVec 29 :=
  BitVec.ofNat 29 (((List.range 29).filter fun d => s.sys.clkOk.getLsbD d && (monitored s d || 26 ≤ d)).map fun d => 2 ^ d).sum

/-- A unit of SYS_INFO.FENCED is fenced. -/
def isFenced (s : State) (b : Nat) : Bool := s.sys.fenced.getLsbD b

/-- The value a fuse field has in the AON shadow, which every unit acts on (R416). -/
def shadowOf (s : State) (f : Nat) : Nat :=
  match s.sys.shadow.find? (fun x => x.field = f) with
  | some x => x.value.toNat
  | none => 0

/-- The number of set bits of the low `n` bits of a number. -/
def popcount : Nat → Nat → Nat
  | 0, _ => 0
  | n + 1, v => v % 2 + popcount n (v / 2)

/-- The anti-rollback count of a value of ROLLBACK_CTR (Table 16.4). -/
def rollbackCount (v : Nat) : Nat := popcount 64 v

/-! Ownership (R80). -/

/-- The holder of a unit: the tag of a page, otherwise the tenant it was granted to, otherwise Root. -/
def ownerOf (s : State) (ty u : Nat) : Nat :=
  if ty = 5 then (nth s.store.owner u).toNat
  else match s.owners.find? (fun x => x.1 = ty && x.2.1 = u) with
    | some x => x.2.2
    | none => 0

/-- A unit given to a holder; units of Root are not listed. -/
def setOwner (ty u t : Nat) (s : State) : State :=
  if ty = 5 then modStore (fun m => { m with owner := updAt m.owner u (fun _ => BitVec.ofNat 5 t) }) s
  else
    let rest := s.owners.filter (fun x => !(x.1 = ty && x.2.1 = u))
    { s with owners := if t = 0 then rest else (ty, u, t) :: rest }

/-- How many units a resource type has (Table 4.2); 0 for no type. -/
def unitCount : Nat → Nat
  | 0x01 => 2048 | 0x02 => 2048 | 0x03 => 128 | 0x04 => 8 | 0x05 => 256 | 0x06 => 32 | 0x07 => 8 | 0x08 => 1
  | 0x09 => 8 | 0x0A => 4 | 0x0B => 4 | 0x0C => 64 | 0x0D => 64 | 0x0E => 16 | 0x0F => 4 | 0x10 => 1 | 0x11 => 1
  | _ => 0

/-! What each unit needs (R20, Table 1.3), by bit of SYS_INFO.FENCED. -/

/-- The Last and TIME are in service. -/
def lastUp (s : State) : Bool := !isFenced s 0 && domainUp s 3

/-- A unit that needs the Last, by its FENCED bit: TRIG, MCGs, ETH, PLINK. -/
def timeUnitUp (s : State) (b : Nat) : Bool := !isFenced s b && lastUp s

/-- Mirror needs CORE; Prism needs CORE and Mirror. -/
def mirrorUp (s : State) : Bool := !isFenced s 7 && domainUp s 2
def prismUp (s : State) : Bool := !isFenced s 6 && mirrorUp s

/-- A unit that needs Prism, by its FENCED bit: the audio ports, a Lens core. -/
def prismUnitUp (s : State) (b : Nat) : Bool := !isFenced s b && prismUp s

/-! Service level and FAULT_N (16). -/

/-- The service level of Table 16.7: a unit counts as not fenced once its self-test has ended and it is not fenced. -/
def levelOf (s : State) : Nat :=
  let up := fun b => s.sys.tested.getLsbD b && !s.sys.fenced.getLsbD b
  if !s.sys.running then 0
  else if up 0 && domainUp s 3 && (up 1 || up 4 || up 5) then (if up 6 && up 7 && domainUp s 2 then 3 else 2)
  else 1

/-- FAULT_N (R425): low at L0 and from a watchdog expiry until the next L1. -/
def faultN (s : State) : Bool := s.sys.running && !s.wdog.grace

/-! The event recorder: entering an event (13). -/

/-- The data block of an event (R345): fields of given sizes, little-endian; a field that would pass byte 7 is left out with
every field after it. -/
def packData : Nat → List (Nat × Nat) → List Byte
  | room, [] => List.replicate room 0
  | room, (n, v) :: l => if n ≤ room then le n v ++ packData (room - n) l else List.replicate room 0

/-- A signed field of 4 bytes, saturated (Table 13.2, offset). -/
def sat32 (v : Int) : Nat := (clampInt (-(2 ^ 31)) (2 ^ 31 - 1) v % 2 ^ 32).toNat

/-- A count in 2 bytes, saturating (Table 13.2). -/
def sat16 (v : Nat) : Nat := min v 0xFFFF

/-- The next sequence number (R349): 0xFFFF_FFFF is skipped. -/
def nextSeq (a : Word) : Word := if a = 0xFFFFFFFE then 0 else a + 1

/-- SEQ a is newer than SEQ b (R349). -/
def newer (a b : Word) : Bool := let d := (a - b).toNat; 1 ≤ d && d ≤ 2 ^ 31 - 1

/-- Codes that no bucket limits (R351). -/
def exemptCode (c : Nat) : Bool := 0x0A01 ≤ c && c ≤ 0x0A07

/-- RATE and BURST of a code (R350). -/
def rateOf (e : Evrec) (code : Nat) : Nat × Nat :=
  match e.rates.find? (fun x => x.1 = code) with
  | some x => x.2
  | none => e.rateAll

/-- One token, in units of 1/960,000,000: a bucket of RATE gains RATE units per AON tick of 1/16,000,000 s. -/
def tokenU : Nat := 960000000

/-- The level of a bucket brought up to an AON tick. -/
def refill (level at_ now rate burst : Nat) : Nat := min (burst * tokenU) (level + rate * (now - at_))

/-- The level of a code's bucket now (R350): full before its first record. -/
def bucketNow (s : State) (code : Nat) : Nat :=
  let (rate, burst) := rateOf s.evrec code
  match s.evrec.buckets.find? (fun x => x.1 = code) with
  | some x => refill x.2.1 x.2.2 s.sys.aonTicks rate burst
  | none => burst * tokenU

/-- The level of the global bucket now: 16 tokens, 20 per second. -/
def globalNow (s : State) : Nat := refill s.evrec.global.1 s.evrec.global.2 s.sys.aonTicks 1200 16

/-- A code's bucket set to a level now. -/
def setBucket (code level : Nat) (s : State) : State :=
  modEvrec (fun e => { e with buckets := assocSet e.buckets code (level, s.sys.aonTicks) }) s

/-- Enter an event into channel C, or count it as suppressed (R342, R351, R353); a code with RATE 0 enters channel B only. -/
def recordC (code origin : Nat) (data : List Byte) (valid : Bool) (time hours : Nat) (raw : Bool) (s : State) : State :=
  let e := s.evrec
  if e.cState = 0 || e.cState = 3 || (!exemptCode code && (rateOf e code).1 = 0) then s
  else
    let ex := exemptCode code
    let room := if ex then e.queue.length < 72 else e.queue.length < 64
    let tokens := ex || (tokenU ≤ bucketNow s code && tokenU ≤ globalNow s)
    let supp := (assoc e.supp code).getD 0
    if room && tokens then
      let s := if ex then s else
        modEvrec (fun e => { e with global := (globalNow s - tokenU, s.sys.aonTicks) })
          (setBucket code (bucketNow s code - tokenU) s)
      modEvrec (fun e => { e with
        queue := e.queue ++ [{ code, origin, supp := min supp 255, hours, raw, valid, time, data }]
        supp := assocDel e.supp code }) s
    else modEvrec (fun e => { e with supp := assocSet e.supp code (supp + 1), suppressed := e.suppressed + 1 }) s

/-- Enter an event into channel B (R341, R356). -/
def recordB (code origin : Nat) (data : List Byte) (s : State) : State :=
  modEvrec (fun e => { e with
    ring := { seq := e.bHead, code, origin, data } :: e.ring.take 16383
    bOld := e.bOld.filter (fun x => x.seq.toNat % 16384 ≠ e.bHead.toNat % 16384)
    bHead := nextSeq e.bHead }) s

/-- The Last in ns for a record, zero while `VALID` is 0 (R346). -/
def recordTime (s : State) : Nat := if s.last.valid then nowNs s else 0

/-- The engine records an event: held in AON while the recorder is not in service (R77), else in both channels (R341,
R342). `data` lists the fields as (size, value). -/
def record (code origin : Nat) (data : List (Nat × Nat)) (s : State) : State :=
  let d := packData 8 data
  let raw := !s.evrec.settled
  if !s.evrec.bService then
    modSys (fun y =>
      if y.aonEvents.length < 16 then
        { y with aonEvents := y.aonEvents ++
          [{ code, origin, data := d, valid := s.last.valid, time := recordTime s, hours := s.evrec.hours, raw }] }
      else { y with aonDropped := y.aonDropped + 1 }) s
  else recordC code origin d s.last.valid (recordTime s) s.evrec.hours raw (recordB code origin d s)

/-- The owner tag of events that concern no tenant (R344). -/
def engineTag : Nat := 0x10

/-! Replies (04). -/

/-- The bytes of a reply (Table 4.6). -/
def replyBytes (r : Reply) : List Byte :=
  let st := stampOfNs r.done
  if r.raw ≠ [] then r.raw else withCrc (leBits 2 r.opcode ++ le 2 r.status.code ++ le 2 (r.results.length / 4) ++ leBits 2 r.tag ++
    leBits 4 st.sHi ++ leBits 4 st.sLo ++ leBits 4 st.ns ++ r.results)

/-- The downstream port whose range contains a node, else the upstream port (R218). -/
def routePort (s : State) (dest : Nat) : Option Nat :=
  match (List.range 4).find? (fun p => let q := s.pl p; q.role = 2 && q.first ≤ dest && dest ≤ q.last && q.first ≠ 0xFFFF) with
  | some p => some p
  | none => (List.range 4).find? (fun p => (s.pl p).role = 1)

/-- Put a cell into a port's transmit queue of 64, or drop it with event 0x0405 (R219). -/
def queueCell (c : QueuedCell) (s : State) : State :=
  match routePort s c.dest with
  | none => s
  | some p =>
    if (s.pl p).queue.length < 64 then modPl p (fun q => { q with queue := q.queue ++ [c] }) s
    else
      record 0x0405 engineTag [(1, p), (2, c.dest)]
        (modPl p (fun q => { q with cellsDropped := q.cellsDropped + 1 }) s)

/-- A transport reaches the engine: PCIe while its domain is up and not in HOLDOVER, SPIT1 while it is not fenced (Table 15.2,
Table 3.6). -/
def viaUp (s : State) : Transport → Bool
  | .pcie => domainUp s 24 && s.pwr.mode ≠ .holdover
  | .spit1 => !isFenced s 19
  | _ => true

/-- The reply ring has a slot to write (R93). -/
def ringRoom (n : Tenant) : Bool := (n.rTail - n.rHead).toNat < 2 ^ n.rlog2.toNat

/-- Move one queued reply to the reply ring while rings are on, else to the free outbox, and fill the queue of 80 from the
replies that wait in their pending entries (R91 to R93). The outbox holds that reply alone: beyond its end it reads zero (log entry 122). -/
def deliverOne (t : Nat) (s : State) : State :=
  let n := s.tenant t
  match n.replyQ with
  | [] => s
  | r :: q =>
    let q := q ++ (n.waiting.take (80 - q.length)).map (fun x => x.2)
    let w := n.waiting.drop (80 - (n.replyQ.length - 1))
    if n.ringEn then
      if ringRoom n && viaUp s .pcie then
        emit (.ringReply t (n.rTail.toNat % 2 ^ n.rlog2.toNat) (replyBytes r))
          (modTenant t (fun n => { n with replyQ := q, waiting := w, rTail := n.rTail + 1 }) s)
      else s
    else if n.outFull then s
    else modTenant t (fun n => { n with replyQ := q, waiting := w, outbox := replyBytes r, outFull := true }) s

/-- A closing tenant whose replies are all delivered becomes CLOSED (R118). -/
def finishClose (t : Nat) (s : State) : State :=
  let n := s.tenant t
  if n.st = .closing && n.replyQ = [] && n.waiting = [] && !n.outFull && n.class2 = [] then
    record 0x0002 t [(1, t), (2, sat16 n.cancelled), (2, sat16 n.discarded)]
      (modTenant t (fun n => { n with st := .closed }) s)
  else s

/-- Deliver up to `k` queued replies of a tenant. -/
def deliverMany : Nat → Nat → State → State
  | 0, _, s => s
  | k + 1, t, s => deliverMany k t (deliverOne t s)

/-- Deliver what can be delivered, then see whether a closing tenant is done. -/
def deliver (t : Nat) (s : State) : State :=
  finishClose t (deliverMany ((s.tenant t).replyQ.length + (s.tenant t).waiting.length) t s)

/-- The ORIGIN word names this node (R220). -/
def ownNode (s : State) (d : BitVec 16) : Bool := s.plink.rooted && d.toNat % 4096 = s.plink.addr

/-- Enter a reply into a tenant's queue, or behind it (R91, R92). -/
def enqueue (t : Nat) (timed : Bool) (r : Reply) (s : State) : State :=
  if (s.tenant t).st = .closed then s
  else deliver t (modTenant t (fun n =>
    if n.replyQ.length < 80 then { n with replyQ := n.replyQ ++ [r] } else { n with waiting := n.waiting ++ [(timed, r)] }) s)

/-- Post a reply to a tenant (R91, R92, R118), or send it back over the fabric to the node its packet came from (R218), which may be
this one (R220). A reply to a CLOSED tenant is discarded, and none is posted from the watchdog's expiry to the grace reset (R375).
`timed` says that a class 1 command's entry stays counted while the reply waits. -/
def post (t : Nat) (timed : Bool) (r : Reply) (s : State) : State :=
  if s.wdog.grace then s
  else match r.dest with
  | some d =>
    if ownNode s d then enqueue (d.toNat / 4096) timed { r with dest := none } s
    else queueCell { isReply := true, dest := d.toNat % 4096, origin := d.toNat % 4096, tenant := d.toNat / 4096, bytes := replyBytes r } s
  | none => enqueue t timed r s

/-- Pending class 1 commands, EY_STATUS.TIMED (R92, Table 4.12). -/
def timedCount (n : Tenant) : Nat :=
  (n.pend.filter (fun p => p.timed)).length + (n.waiting.filter (fun p => p.1)).length

/-- The TAP holds an instruction, with TCK active (R432, Table 3.4). -/
def tapLoad (ir : BitVec 5) (s : State) : State :=
  modSys (fun y => { y with clkOk := setBit y.clkOk 28 true }) (modDbg (fun d => { d with tapIr := ir }) s)

/-! Answers to accesses over the matrix (R66, R145, Table 17.3). -/

/-- The latest debug access is done: its error bit, and the word read when it was a read. -/
def apAnswer (error : Bool) (rdata : Option Word) (s : State) : State :=
  modDbg (fun d => { d with apDone := true, apError := error, apRdata := rdata.getD d.apRdata }) s

/-- A register access is answered: with its word when it was a read, zero with an error. -/
def answer (who : RegMaster) (error write : Bool) (v : Word) (s : State) : State :=
  let w := if error then 0 else v
  match who with
  | .host _ | .hostRead _ | .spi _ _ => s
  | .debug => apAnswer error (if write then none else some w) s
  | .matrix m => emit (.response m error (if write then [] else leBits 4 w)) s

/-- Values free of any rule, drawn in turn (log entry 3). -/
def drawFree (s : State) : BitVec 64 × State := (Config.freeBits s.free, { s with free := s.free + 1 })

/-- A time within the range of R477. -/
def inRange (t : Time) : Bool := 0 ≤ t && t < topTime

/-- A time the engine reports: the computed one where it lies within the range of R477, else a free one within it, since no reported time
lies outside (log entry 119). -/
def reportable (t : Time) (s : State) : Time × State :=
  if inRange t then (t, s)
  else
    let (a, s) := drawFree s
    let (b, s) := drawFree s
    (ofNs ((a.toNat % 2 ^ 48 * 1000000000 : Nat) : Int) + ofQuarter ((b.toNat % 4000000000 : Nat) : Int), s)

end Sys2Proof.Machine
end

