-- ==== Sys2Proof/Machine/Operands.lean ====
section
/-! DEFINITION. What the tables of the chapters say of each opcode beside its effect: its number, classes, authority, the units
it names and their ranges, the units whose fence answers it, and its staging entries (Tables 2.6, 4.9, 5.5, 6.3, 7.3, 8.7,
9.6, 10.11, 11.13, 13.8, 14.5, 15.5, 17.5). -/

namespace Sys2Proof.Machine

/-- The authority an opcode needs (R98, check 7). -/
inductive Auth where
  | any | root | steer | power | fabric
  deriving DecidableEq, Repr

/-- What the opcode tables say of one opcode. `swap` marks the groupable commands of Prism and Lens cores, which take effect
at a Mirror swap boundary (R290, R326). -/
structure OpInfo where
  op : Nat
  classes : List Nat := [0]
  auth : Auth := .any
  groupable : Bool := false
  swap : Bool := false
  fences : List Nat := []
  deriving DecidableEq, Repr

/-- FENCED bits by unit (Table 4.11). -/
def fenceLast : Nat := 0
def fenceTrig : Nat := 1
def fenceMcg : Nat := 2
def fenceAport : Nat := 3
def fenceEth : Nat := 4
def fencePlink : Nat := 5
def fencePrism : Nat := 6
def fenceMirror : Nat := 7
def fenceLens (n : Nat) : Nat := 8 + n % 8
def fenceEvrec : Nat := 16
def fenceShank : Nat := 17
def fenceEntropy : Nat := 20

/-- The request of an opcode's row; none for a row that is no opcode. -/
def reqOf : Instr → Option Req
  | .sysInfo r | .tenantOpen r _ _ | .tenantClose r _ | .grant r _ _ _ _ | .revoke r _ _ _ _ | .groupCommit r
  | .groupAbort r | .groupStatus r | .fuseRead r _ | .fuseProgram r _ _ | .fwWrite r _ _ | .fwCommit r _
  | .timeGet r | .timeSet r _ _ _ | .timeStep r _ | .timeAdjust r _ _ | .rateSet r _ | .sourceSet r _ _
  | .servoConfig r _ _ _ _ _ _ | .lastStatus r | .calSet r _ _ _ _ | .calGet r _ _ _
  | .ethPortConfig r _ _ _ _ | .ethPortStatus r _ | .gptpConfig r _ | .gptpPortRole r _ _ _ | .gptpStatus r _
  | .avtpTalkerConfig r _ | .avtpListenerConfig r _ | .avtpStreamStart r _ _ | .avtpStreamStop r _ _
  | .avtpStreamStatus r _ _ | .crfConfig r _ | .cbsConfig r _ _ _ | .ethRxFilter r _ _ _ _
  | .tpinConfig r _ | .tpinSchedule r _ _ _ _ | .tpinCancel r _ _ | .tpinCaptureRead r _ _ | .reflexConfig r _
  | .reflexWindow r _ | .fsgConfig r _ | .fsgStart r _ | .fsgStop r _ | .fsgStatus r _
  | .plinkStatus r _ | .plinkEnumerate r _ | .plinkTopology r | .plinkAudioMap r _ | .fabricPrepare r _ _ _
  | .fabricApply r _ | .fabricAbort r _ | .plinkDelayGet r _
  | .mcgConfig r _ _ _ _ _ | .mcgMeasure r _ | .aportConfig r _ | .aportStart r _ | .aportStop r _ | .aportMask r _ _ _
  | .aportRate r _ _ _ | .aportStatus r _
  | .prismInputClass r _ _ _ | .prismXpSet r _ | .prismXpClear r _ | .prismRoute r _ _ _ | .prismBusConfig r _ _ _ _ _
  | .prismBusRange r _ _ | .prismDirectGain r _ _ _ | .prismStatus r _ | .sceneStore r _ _ _ | .sceneRecall r _
  | .sceneDelete r _ | .sceneList r | .mirrorConfig r _ _ _ _ | .mirrorStatus r
  | .lensLoad r _ _ _ _ | .lensChain r _ | .lensStart r _ _ | .lensStop r _ _ | .lensParam r _ | .lensStatus r _
  | .lensDeadline r _ _ _
  | .pageInfo r | .pageRead r _ _ _ | .pageWrite r _ _ _ | .pageCopy r _ _
  | .evrecConfig r _ _ _ _ | .evrecRead r _ _ _ | .evrecStatus r | .evrecRate r _ _ _ | .evrecFlush r | .evrecErase r _
  | .wdogConfig r _ | .wdogStatus r | .wdogCountClear r | .superviseStatus r
  | .powerMode r _ _ _ | .powerStatus r | .coreClock r _ | .holdConfig r _ | .stackStatus r | .balanceConfig r _
  | .dbgOpen r _ _ | .dbgClose r | .dbgStatus r => some r
  | _ => none

/-- The opcode tables; `op` 0 for a row that is no opcode. -/
def opInfo : Instr → OpInfo
  | .sysInfo _ => { op := 0x0001 }
  | .tenantOpen _ _ _ => { op := 0x0010, auth := .root, fences := [fenceEntropy] }
  | .tenantClose _ _ => { op := 0x0011, auth := .root }
  | .grant _ _ _ _ _ => { op := 0x0012, classes := [0, 1], auth := .root }
  | .revoke _ _ _ _ _ => { op := 0x0013, classes := [0, 1], auth := .root }
  | .groupCommit _ => { op := 0x0020, classes := [0, 1] }
  | .groupAbort _ => { op := 0x0021 }
  | .groupStatus _ => { op := 0x0022 }
  | .fuseRead _ _ => { op := 0x0030 }
  | .fuseProgram _ _ _ => { op := 0x0031, classes := [2], auth := .root }
  | .fwWrite _ _ _ => { op := 0x0040, classes := [2], auth := .root }
  | .fwCommit _ _ => { op := 0x0041, classes := [2], auth := .root, fences := [fenceEvrec] }
  | .timeGet _ => { op := 0x0101, fences := [fenceLast] }
  | .timeSet _ _ _ _ => { op := 0x0102, auth := .steer, fences := [fenceLast] }
  | .timeStep _ _ => { op := 0x0103, classes := [0, 1], auth := .steer, fences := [fenceLast] }
  | .timeAdjust _ _ _ => { op := 0x0104, auth := .steer, fences := [fenceLast] }
  | .rateSet _ _ => { op := 0x0105, classes := [0, 1], auth := .steer, fences := [fenceLast] }
  | .sourceSet _ _ _ => { op := 0x0110, classes := [0, 1], auth := .steer, fences := [fenceLast] }
  | .servoConfig _ _ _ _ _ _ _ => { op := 0x0111, auth := .steer, fences := [fenceLast] }
  | .lastStatus _ => { op := 0x0112, fences := [fenceLast] }
  | .calSet _ _ _ _ _ => { op := 0x0D01, auth := .root }
  | .calGet _ _ _ _ => { op := 0x0D02 }
  | .ethPortConfig _ _ _ _ _ => { op := 0x0201, fences := [fenceEth] }
  | .ethPortStatus _ _ => { op := 0x0202, fences := [fenceEth] }
  | .gptpConfig _ _ => { op := 0x0210, auth := .steer, fences := [fenceEth] }
  | .gptpPortRole _ _ _ _ => { op := 0x0211, classes := [0, 1], fences := [fenceEth] }
  | .gptpStatus _ _ => { op := 0x0212, fences := [fenceEth] }
  | .avtpTalkerConfig _ _ => { op := 0x0220, fences := [fenceEth] }
  | .avtpListenerConfig _ _ => { op := 0x0221, fences := [fenceEth] }
  | .avtpStreamStart _ _ _ => { op := 0x0222, classes := [0, 1], fences := [fenceEth] }
  | .avtpStreamStop _ _ _ => { op := 0x0223, classes := [0, 1], fences := [fenceEth] }
  | .avtpStreamStatus _ _ _ => { op := 0x0224, fences := [fenceEth] }
  | .crfConfig _ _ => { op := 0x0230, fences := [fenceEth] }
  | .cbsConfig _ _ _ _ => { op := 0x0240, fences := [fenceEth] }
  | .ethRxFilter _ _ _ _ _ => { op := 0x0250, auth := .root, fences := [fenceEth] }
  | .tpinConfig _ _ => { op := 0x0301, classes := [0, 1], fences := [fenceTrig] }
  | .tpinSchedule _ _ _ _ _ => { op := 0x0302, fences := [fenceTrig] }
  | .tpinCancel _ _ _ => { op := 0x0303, fences := [fenceTrig] }
  | .tpinCaptureRead _ _ _ => { op := 0x0304, fences := [fenceTrig] }
  | .reflexConfig _ _ => { op := 0x0310, classes := [0, 1], fences := [fenceTrig] }
  | .reflexWindow _ _ => { op := 0x0311, classes := [0, 1], fences := [fenceTrig] }
  | .fsgConfig _ _ => { op := 0x0320, classes := [0, 1], fences := [fenceTrig] }
  | .fsgStart _ _ => { op := 0x0321, classes := [0, 1], fences := [fenceTrig] }
  | .fsgStop _ _ => { op := 0x0322, classes := [0, 1], fences := [fenceTrig] }
  | .fsgStatus _ _ => { op := 0x0323, fences := [fenceTrig] }
  | .plinkStatus _ _ => { op := 0x0401, fences := [fencePlink] }
  | .plinkEnumerate _ _ => { op := 0x0402, classes := [2], auth := .root, fences := [fencePlink] }
  | .plinkTopology _ => { op := 0x0403, fences := [fencePlink] }
  | .plinkAudioMap _ _ => { op := 0x0410, classes := [0, 1], groupable := true, fences := [fencePlink] }
  | .fabricPrepare _ _ _ _ => { op := 0x0420, classes := [2], auth := .fabric, fences := [fencePlink] }
  | .fabricApply _ _ => { op := 0x0421, classes := [1], fences := [fencePlink] }
  | .fabricAbort _ _ => { op := 0x0422, fences := [fencePlink] }
  | .plinkDelayGet _ _ => { op := 0x0430, fences := [fencePlink] }
  | .mcgConfig _ _ _ _ _ _ => { op := 0x0501, classes := [0, 1], fences := [fenceMcg] }
  | .mcgMeasure _ _ => { op := 0x0502, fences := [fenceMcg] }
  | .aportConfig _ _ => { op := 0x0510, fences := [fenceAport] }
  | .aportStart _ _ => { op := 0x0511, classes := [0, 1], fences := [fenceAport] }
  | .aportStop _ _ => { op := 0x0512, classes := [0, 1], fences := [fenceAport] }
  | .aportMask _ _ _ _ => { op := 0x0513, classes := [0, 1], groupable := true, fences := [fenceAport] }
  | .aportRate _ _ _ _ => { op := 0x0514, classes := [0, 1], fences := [fenceAport] }
  | .aportStatus _ _ => { op := 0x0515, fences := [fenceAport] }
  | .prismInputClass _ _ _ _ => { op := 0x0601, classes := [0, 1], groupable := true, swap := true, fences := [fencePrism] }
  | .prismXpSet _ _ => { op := 0x0602, classes := [0, 1], groupable := true, swap := true, fences := [fencePrism] }
  | .prismXpClear _ _ => { op := 0x0603, classes := [0, 1], groupable := true, swap := true, fences := [fencePrism] }
  | .prismRoute _ _ _ _ => { op := 0x0604, classes := [0, 1], groupable := true, swap := true, fences := [fencePrism] }
  | .prismBusConfig _ _ _ _ _ _ => { op := 0x0610, classes := [0, 1], groupable := true, swap := true, fences := [fencePrism] }
  | .prismBusRange _ _ _ => { op := 0x0611, classes := [0, 1], groupable := true, swap := true, fences := [fencePrism] }
  | .prismDirectGain _ _ _ _ => { op := 0x0620, classes := [0, 1], fences := [fencePrism] }
  | .prismStatus _ _ => { op := 0x0630, fences := [fencePrism] }
  | .sceneStore _ _ _ _ => { op := 0x0701, classes := [2], fences := [fenceMirror] }
  | .sceneRecall _ _ => { op := 0x0702, classes := [0, 1], groupable := true, swap := true, fences := [fenceMirror] }
  | .sceneDelete _ _ => { op := 0x0703, fences := [fenceMirror] }
  | .sceneList _ => { op := 0x0704, fences := [fenceMirror] }
  | .mirrorConfig _ _ _ _ _ => { op := 0x0710, fences := [fenceMirror] }
  | .mirrorStatus _ => { op := 0x0711, fences := [fenceMirror] }
  | .lensLoad _ c _ _ _ => { op := 0x0801, classes := [2], fences := [fenceLens c.toNat] }
  | .lensChain _ g => { op := 0x0802, fences := [fenceLens g.core.toNat] }
  | .lensStart _ c _ => { op := 0x0803, classes := [0, 1], fences := [fenceLens c.toNat] }
  | .lensStop _ c _ => { op := 0x0804, classes := [0, 1], fences := [fenceLens c.toNat] }
  | .lensParam _ l =>
    { op := 0x0805, classes := [0, 1], groupable := true, swap := true, fences := l.map fun x => fenceLens x.core.toNat }
  | .lensStatus _ c => { op := 0x0806, fences := [fenceLens c.toNat] }
  | .lensDeadline _ c _ _ => { op := 0x0807, fences := [fenceLens c.toNat] }
  | .pageInfo _ => { op := 0x0901 }
  | .pageRead _ _ _ _ => { op := 0x0902 }
  | .pageWrite _ _ _ _ => { op := 0x0903 }
  | .pageCopy _ _ _ => { op := 0x0904, classes := [2] }
  | .evrecConfig _ _ _ _ _ => { op := 0x0A01, classes := [2], auth := .root, fences := [fenceEvrec] }
  | .evrecRead _ ch _ _ => { op := 0x0A02, classes := [2], fences := if ch = 1 then [] else [fenceEvrec] }
  | .evrecStatus _ => { op := 0x0A03 }
  | .evrecRate _ _ _ _ => { op := 0x0A04, auth := .root }
  | .evrecFlush _ => { op := 0x0A05, classes := [2], auth := .root, fences := [fenceEvrec] }
  | .evrecErase _ _ => { op := 0x0A06, classes := [2], auth := .root, fences := [fenceEvrec] }
  | .wdogConfig _ _ => { op := 0x0B01, auth := .root }
  | .wdogStatus _ => { op := 0x0B02 }
  | .wdogCountClear _ => { op := 0x0B03, auth := .root }
  | .superviseStatus _ => { op := 0x0B10 }
  | .powerMode _ _ _ _ => { op := 0x0C01, classes := [0, 1], auth := .power }
  | .powerStatus _ => { op := 0x0C02 }
  | .coreClock _ _ => { op := 0x0C03, classes := [0, 1], auth := .power }
  | .holdConfig _ _ => { op := 0x0C10, auth := .power, fences := [fenceShank] }
  | .stackStatus _ => { op := 0x0C11, fences := [fenceShank] }
  | .balanceConfig _ _ => { op := 0x0C12, auth := .power, fences := [fenceShank] }
  | .dbgOpen _ _ _ => { op := 0x0E01, auth := .root }
  | .dbgClose _ => { op := 0x0E02, auth := .root }
  | .dbgStatus _ => { op := 0x0E03 }
  | _ => { op := 0 }

/-- A unit an opcode names: its resource type (0 when no one need hold it), its number, how many there are. -/
structure UnitRef where
  ty : Nat
  unit : Nat
  limit : Nat
  deriving DecidableEq, Repr

/-- `n` consecutive units from `first`. -/
def unitRange (ty first n limit : Nat) : List UnitRef := (List.range n).map fun i => ⟨ty, first + i, limit⟩

/-- Talker streams are type 0x0C, listener streams 0x0D (Table 4.2). -/
def streamType (dir : Byte) : Nat := if dir = 0 then 0x0C else 0x0D

/-- The units an opcode names by number, with their ranges (R98 check 7, R83); ID ranges of streams and maps, and pages of
kernels, are named here as well. -/
def unitsOf : Instr → List UnitRef
  | .tenantOpen _ t _ | .tenantClose _ t => [⟨0, if t = 0 then 16 else t.toNat, 16⟩]
  | .grant _ t ty first _ | .revoke _ t ty first _ => [⟨0, if t = 0 then 16 else t.toNat, 16⟩] ++
      (if unitCount ty.toNat = 0 then [] else [⟨0, first.toNat, unitCount ty.toNat⟩])
  | .sourceSet _ src _ =>
    if 0x10 ≤ src.toNat && src.toNat < 0x14 then [⟨0x0B, src.toNat - 0x10, 4⟩]
    else if 0x40 ≤ src.toNat && src.toNat < 0x60 then [⟨0x06, src.toNat - 0x40, 32⟩] else []
  | .ethPortConfig _ p _ _ _ | .gptpPortRole _ p _ _ | .cbsConfig _ p _ _ => [⟨0x0B, p.toNat, 4⟩]
  | .ethPortStatus _ p => [⟨0, p.toNat, 4⟩]
  | .gptpStatus _ d => [⟨0, d.toNat, 2⟩]
  | .avtpTalkerConfig _ c => ⟨0x0C, c.stream.toNat, 64⟩ :: ⟨0, c.port.toNat, 4⟩ ::
      unitRange 0x02 c.base.toNat (min 32 c.channels.toNat) 2048
  | .avtpListenerConfig _ c => ⟨0x0D, c.stream.toNat, 64⟩ :: ⟨0, c.port.toNat, 4⟩ ::
      unitRange 0x01 c.base.toNat (min 32 c.channels.toNat) 2048
  | .avtpStreamStart _ d k | .avtpStreamStop _ d k | .avtpStreamStatus _ d k => [⟨streamType d, k.toNat, 64⟩]
  | .crfConfig _ c => ⟨streamType c.dir, c.stream.toNat, 64⟩ :: ⟨0, c.port.toNat, 4⟩ ::
      (if c.dir = 0 then [⟨0x0A, c.mcg.toNat, 4⟩] else [])
  | .tpinConfig _ c => ⟨0x06, c.pin.toNat, 32⟩ :: (if c.mode = 5 then [⟨0x07, c.source.toNat, 8⟩] else [])
  | .tpinSchedule _ p _ _ _ | .tpinCancel _ p _ | .tpinCaptureRead _ p _ => [⟨0x06, p.toNat, 32⟩]
  | .reflexConfig _ c => [⟨0x0E, c.path.toNat, 16⟩, ⟨0x06, c.inPin.toNat, 32⟩, ⟨0x06, c.outPin.toNat, 32⟩]
  | .reflexWindow _ c => ⟨0x0E, c.path.toNat, 16⟩ :: (if c.base = 3 then [⟨0x07, c.fsg.toNat, 8⟩] else [])
  | .fsgConfig _ c => [⟨0x07, c.fsg.toNat, 8⟩]
  | .fsgStart _ k | .fsgStop _ k | .fsgStatus _ k => [⟨0x07, k.toNat, 8⟩]
  | .plinkStatus _ p | .plinkDelayGet _ p => [⟨0, p.toNat, 4⟩]
  | .plinkAudioMap _ c => [⟨0x0F, c.port.toNat, 4⟩] ++
      (if c.kind = 1 then unitRange (if c.dir = 0 then 0x02 else 0x01)
        (0x300 + 256 * (c.port.toNat % 4) + c.ch.toNat) (min 256 c.count.toNat) 2048 else []) ++
      (if c.kind = 2 then [⟨0x0F, c.fwdPort.toNat, 4⟩] else [])
  | .fabricPrepare _ _ t _ => [⟨0, t.toNat, 16⟩]
  | .mcgConfig _ m _ _ _ _ | .mcgMeasure _ m => [⟨0x0A, m.toNat, 4⟩]
  | .aportConfig _ c => ⟨0x09, c.port.toNat, 8⟩ ::
      (unitRange 0x01 (32 * (c.port.toNat % 8)) 32 2048 ++ unitRange 0x02 (32 * (c.port.toNat % 8)) 32 2048 ++
        [⟨if c.role = 0 then 0x0A else 0, c.mcg.toNat, 4⟩])
  | .aportStart _ p | .aportStop _ p | .aportMask _ p _ _ | .aportStatus _ p => [⟨0x09, p.toNat, 8⟩]
  | .aportRate _ p m _ => [⟨0x09, p.toNat, 8⟩, ⟨0, m.toNat, 4⟩]
  | .prismInputClass _ src _ _ => [⟨0x01, src.toNat, 0x780⟩]
  | .prismXpSet _ l => l.flatMap fun x => [⟨0x01, x.source.toNat, 2048⟩, ⟨0x03, x.bus.toNat, 128⟩]
  | .prismXpClear _ l => l.map fun x => ⟨0x03, x.bus.toNat, 128⟩
  | .prismRoute _ sink src _ => ⟨0x02, sink.toNat, 2048⟩ ::
      (if src = 0xFFFF then [] else [⟨0x01, src.toNat, 2048⟩])
  | .prismBusConfig _ b _ _ _ _ | .prismBusRange _ b _ | .prismStatus _ b => [⟨0x03, b.toNat, 128⟩]
  | .prismDirectGain _ src b _ => [⟨0x01, src.toNat, 2048⟩, ⟨0x03, b.toNat, 128⟩]
  | .sceneStore _ sc p _ => [⟨0, sc.toNat, 64⟩, ⟨0x05, p.toNat, 232⟩]
  | .sceneRecall _ sc | .sceneDelete _ sc => [⟨0, sc.toNat, 64⟩]
  | .lensLoad _ c sl p _ => [⟨0x04, c.toNat, 8⟩, ⟨0, sl.toNat, 4⟩, ⟨0x05, p.toNat, 232⟩]
  | .lensChain _ g => [⟨0x04, g.core.toNat, 8⟩, ⟨0, g.slot.toNat, 4⟩] ++
      (if g.inKind = 1 then [⟨0x04, g.inFrom.toNat / 4, 8⟩] else [])
  | .lensStart _ c _ | .lensStop _ c _ | .lensStatus _ c | .lensDeadline _ c _ _ => [⟨0x04, c.toNat, 8⟩]
  | .lensParam _ l => l.flatMap fun x => [⟨0x04, x.core.toNat, 8⟩, ⟨0, x.slot.toNat, 4⟩]
  | .pageRead _ p _ _ | .pageWrite _ p _ _ => [⟨0x05, p.toNat, 232⟩]
  | .pageCopy _ a b => [⟨0x05, a.toNat, 232⟩, ⟨0x05, b.toNat, 232⟩]
  | _ => []

/-- The staging entries of a groupable command (Table 10.11, R241, R261, R326); those of a recall are its scene's ENTRIES. -/
def entriesOf (s : State) : Instr → Nat
  | .prismXpSet _ l => l.length
  | .prismXpClear _ l => l.length
  | .lensParam _ l => l.length
  | .sceneRecall r sc =>
    match (s.tenant r.tenant).scenes.find? (fun x => x.scene = sc.toNat) with
    | some x => x.entries
    | none => 0
  | _ => 1

/-- A class 1 command that waits for a Mirror swap boundary rather than for a TIME cycle: a groupable command of Prism or
Lens cores, or a GROUP_COMMIT (R106, R290, R326). -/
def atSwap (i : Instr) : Bool :=
  match i with
  | .groupCommit _ => true
  | _ => (opInfo i).swap

end Sys2Proof.Machine
end

