-- ==== Sys2Proof/WellFormed.lean ====
section
/-! DEFINITION. What a command's operands must meet to be one: byte counts of a packet (check 5 of R98) and the shapes of what an
outside event brings. -/

namespace Sys2Proof

/-- A byte list that a count field gives: whole words, no more than a packet of 1,024 bytes holds (R95, R98 check 5). -/
def wordBytes (l : List (BitVec 8)) : Bool := l.length % 4 = 0 && l.length ≤ 992

/-- The parameters of an opcode fit its PLEN (check 5 of R98). -/
def Instr.fits : Instr → Bool
  | .fwWrite _ _ d => wordBytes d
  | .pageWrite _ _ _ d => wordBytes d
  | .prismXpSet _ l => 4 + 8 * l.length ≤ 1004
  | .prismXpClear _ l => 4 + 4 * l.length ≤ 1004
  | .lensParam _ l => 4 + 8 * l.length ≤ 1004
  | _ => true

/-- An outside event brings what its unit can bring: at most 32 slots, 24 audio blocks of 1,024 bytes, 12 cells, 16 beats. -/
def Instr.eventFits : Instr → Bool
  | .portFrameStart _ l => l.length ≤ 1024
  | .ethFrameRx _ f => f.bytes.length ≤ 2000
  | .avtpPacket _ p => p.payload.length ≤ 1500 && p.stamps.length ≤ 8
  | .crfPduSend d => d.ages.length ≤ 8 && (d.ages.zip (d.ages.drop 1)).all fun x => x.2 < x.1
  | .plinkFrame _ f => f.audio.all (fun x => x.length ≤ 24) && f.audio.length ≤ 1024 && f.cells ≤ 32
  | .commandCell _ c => c.cell.length ≤ 256
  | .cellMeasurement l _ => l.length ≤ 12
  | .storeAccess l => l.all fun m => m.data.length ≤ 512 && m.enables.length ≤ 512
  | _ => true

/-- A well-formed command. -/
def Instr.wellFormed (i : Instr) : Bool := i.fits && i.eventFits

end Sys2Proof
end

