-- ==== Sys2Proof/Machine/Interp.lean ====
section
/-! DEFINITION. The command interpreter (04): the packet checks 4 to 10 of R98, classes, groups and replies. A chapter gives a
command its `Meaning`; `submit` runs it. -/

namespace Sys2Proof.Machine

/-- What an opcode's own chapter gives it: authority and holding that depend on the state (check 7), its own checks (check 10), what a refusal by them leaves beside its reply, what
happens at acceptance of a class 1 or 2 command beside the interim reply, the bytes it copies at acceptance, and its effect with
the final status and results. The effect of a class 2 command is given what its unit answers when it ends: a byte 1 or 0 for
done well or not, and 32 bytes read back; `start` is what happens when it begins to run, and `ready` says that it can end. -/
structure Meaning where
  authority : State → Bool := fun _ => true
  holds : State → Bool := fun _ => true
  checks : State → List (Status × Bool) := fun _ => []
  onRefuse : Status → State → State := fun _ s => s
  onAccept : State → State × Status × List Byte := fun s => (s, .pending, [])
  start : State → State := fun s => s
  ready : State → Bool := fun _ => true
  copy : State → List Byte := fun _ => []
  effect : List Byte → State → State × Status × List Byte

/-- The order of check 10 of R98; S_GROUP_UNKNOWN belongs to check 8. -/
def checkOrder : List Status :=
  [.groupUnknown, .notOwner, .locked, .range, .busy, .noResource, .notSynced, .noClock, .denied]

/-- The first status, in the order of check 10, that a failed check names. -/
def firstFailed (l : List (Status × Bool)) : Option Status :=
  checkOrder.find? (fun st => l.any (fun x => x.1 = st && x.2))

/-- The tenant holds the authority an opcode needs (R98 check 7, R45). -/
def hasAuth (s : State) (t : Nat) : Auth → Bool
  | .any => true
  | .root => t = 0
  | .steer => ownerOf s 0x08 0 = t
  | .power => ownerOf s 0x10 0 = t
  | .fabric => ownerOf s 0x11 0 = t

/-- Check 7 of R98: authority, then ranges, then holding. -/
def unitCheck (s : State) (t : Nat) (a : Auth) (us : List UnitRef) : Option Status :=
  if !hasAuth s t a then some .notOwner
  else if us.any (fun u => u.limit ≤ u.unit) then some .range
  else if us.any (fun u => u.ty ≠ 0 && ownerOf s u.ty u.unit ≠ t) then some .notOwner
  else none

/-- The commands that name a group themselves (R112). -/
def isGroupCmd : Instr → Bool
  | .groupCommit _ | .groupAbort _ | .groupStatus _ => true
  | _ => false

/-- A tenant's open group of a number. -/
def groupOf (n : Tenant) (g : Nat) : Option Group := n.groups.find? (fun x => x.num = g)

/-- The entries a tenant has staged in all its groups (R105). -/
def stagedTotal (n : Tenant) : Nat := (n.groups.map fun g => (g.staged.map fun x => x.entries).sum).sum

/-- Check 8 of R98 for the group commands (R108, R112): GROUP 0 names no group, and GSEQ is ignored (log entry 21). -/
def groupCmdCheck (s : State) (r : Req) (i : Instr) : Option Status :=
  match groupOf (s.tenant r.tenant) r.group.toNat, i with
  | none, _ => some .groupUnknown
  | some _, .groupStatus _ => none
  | some g, _ => if r.group = 0 then some .groupUnknown else if g.committing || g.armed then some .busy else none

/-- Check 8 of R98: the rules of R104, R105, R108 and R235 on a command sent with GROUP other than 0. -/
def groupCheck (s : State) (r : Req) (i : Instr) : Option Status :=
  if isGroupCmd i then groupCmdCheck s r i
  else if r.group = 0 then none
  else
    let n := s.tenant r.tenant
    if r.cls ≠ 0 || r.gseq = 0 || !(opInfo i).groupable then some .range
    else match groupOf n r.group.toNat with
      | some g =>
        if g.committing || g.armed then some .busy
        else if g.staged.any (fun x => x.gseq = r.gseq.toNat) then some .range
        else if 65536 < stagedTotal n + entriesOf s i then some .noResource else none
      | none =>
        if 16 ≤ n.groups.length || 65536 < stagedTotal n + entriesOf s i then some .noResource else none

/-- FLAGS.LATE_OK and FLAGS.NO_INTERIM (Table 4.5). -/
def lateOk (r : Req) : Bool := r.flags.getLsbD 0
def noInterim (r : Req) : Bool := r.flags.getLsbD 1

/-- 20 us (R101), and 2 ms for FABRIC_APPLY (R237), as margins after acceptance. -/
def applyMargin : Instr → Time
  | .fabricApply _ _ => ofNs 2000000
  | _ => ofNs 20000

/-- The apply time is too close or past. -/
def tooClose (s : State) (r : Req) (i : Instr) : Bool := applyTime r.apply < s.now + applyMargin i

/-- A TPIN_SCHEDULE action earlier than acceptance plus 20 us, without LATE_OK (R197). -/
def pinTooLate (s : State) (r : Req) : Instr → Bool
  | .tpinSchedule _ _ _ _ time => !badNs time && timeOf time < s.now + ofNs 20000 && !lateOk r
  | _ => false

/-- Check 9 of R98 (R23, R101, R197, R237). -/
def timeCheck (s : State) (r : Req) (i : Instr) : Option Status :=
  if pinTooLate s r i then some .tooLate
  else if r.cls ≠ 1 then none
  else if badNs r.apply then some .range
  else if tooClose s r i && (!lateOk r || (opInfo i).op = 0x0421) then some .tooLate
  else none

/-- Units of the FENCED bits that HOLDOVER stops once its fades have ended (Table 15.3, R392 step 3, R393). -/
def stoppedByHoldover (s : State) (b : Nat) : Bool :=
  s.pwr.mode = .holdover && s.pwr.entering ≠ .holdoverFades &&
    (match b with
     | 1 => !s.pwr.keep.getLsbD 0
     | 4 => !s.pwr.keep.getLsbD 1
     | 5 => !s.pwr.keep.getLsbD 2
     | b => 2 ≤ b && b ≤ 15)

/-- The clock domain whose registers an opcode writes (R57): that of its port, and TIME for the counter and the time pins. -/
def writesDomain : Instr → Option Nat
  | .timeSet _ _ _ _ | .timeStep _ _ | .timeAdjust _ _ _ | .rateSet _ _ | .tpinConfig _ _ | .tpinSchedule _ _ _ _ _ | .tpinCancel _ _ _
  | .reflexConfig _ _ | .reflexWindow _ _ | .fsgConfig _ _ | .fsgStart _ _ | .fsgStop _ _ => some 3
  | .mcgConfig _ m _ _ _ _ => some (4 + m.toNat)
  | .aportConfig _ c => some (8 + c.port.toNat)
  | .aportStart _ p | .aportStop _ p | .aportMask _ p _ _ | .aportRate _ p _ _ => some (8 + p.toNat)
  | .ethPortConfig _ p _ _ _ | .gptpPortRole _ p _ _ | .cbsConfig _ p _ _ => some (16 + p.toNat)
  | .plinkAudioMap _ c => some (20 + c.port.toNat)
  | _ => none

/-- A domain acknowledges an access: its clock has edges and it is out of reset (R63, R64). -/
def acks (s : State) (d : Nat) : Bool := domainUp s d && !s.sys.stopped.getLsbD d

/-- The domain that an opcode writes and that does not acknowledge. -/
def silentDomain (s : State) (i : Instr) : Option Nat := (writesDomain i).filter fun d => !acks s d

/-- Event 0x0B24 for a command's register write; its address is not given (log entry 31). -/
def tellNoClock (d : Nat) (s : State) : State :=
  let (a, s) := drawFree s
  record 0x0B24 engineTag [(1, d), (4, a.toNat % 2 ^ 32)] s

/-- The bridge holds the register write of a command (R64). -/
def holdWrite (d : Nat) (j : HeldCmd) (s : State) : State :=
  modSys (fun y => { y with held := y.held ++ [{ domain := d, who := .matrix 0, addr := 0, size := 4, value := 0, job := some j }] }) s

/-- Check 10 of R98, with R393: a command that needs a unit stopped by HOLDOVER replies S_BUSY. -/
def ownChecks (s : State) (i : Instr) (m : Meaning) : Option Status :=
  firstFailed ((.busy, (opInfo i).fences.any (stoppedByHoldover s)) :: m.checks s)

/-- The first check of R98, from check 4, that a packet fails; the limit of R102 follows check 9 (log entry 20), and counts every class 1
command, one that applies at once under LATE_OK too (log entry 123). -/
def refusal (i : Instr) (r : Req) (m : Meaning) (s : State) : Option Status :=
  if !((opInfo i).classes.contains r.cls.toNat) then some .badOpcode
  else if !i.fits then some .badLength
  else if (opInfo i).fences.any (isFenced s) then some .fenced
  else if !m.authority s then some .notOwner
  else unitCheck s r.tenant (opInfo i).auth (unitsOf i) |>.orElse fun _ =>
    (if m.holds s then none else some Status.notOwner) |>.orElse fun _ => groupCheck s r i |>.orElse fun _ =>
    timeCheck s r i |>.orElse fun _ =>
    (if r.cls = 1 && 64 ≤ timedCount (s.tenant r.tenant) then some Status.noResource else none) |>.orElse fun _ =>
    ownChecks s i m

/-- A reply to a packet, with its completion time in ns. -/
def mkReply (r : Req) (op : Nat) (st : Status) (done : Nat) (res : List Byte) : Reply :=
  { status := st, opcode := BitVec.ofNat 16 op, tag := r.tag, done,
    results := if st = .ok || st = .staged || st = .split then res else [], dest := r.origin }

/-- Post the final or immediate reply of a packet, completed now. -/
def say (r : Req) (i : Instr) (st : Status) (res : List Byte) (s : State) : State :=
  post r.tenant false (mkReply r (opInfo i).op st (nowNs s) res) s

/-- Post an interim reply unless NO_INTERIM suppresses it (Table 4.5). S_SPLIT is not suppressed. -/
def sayInterim (r : Req) (i : Instr) (st : Status) (res : List Byte) (s : State) : State :=
  if noInterim r && st ≠ .split then s else say r i st res s

/-- An access that the bridge gives up is answered: a command's with S_NO_CLOCK (R66). -/
def giveUp (h : HeldAccess) (s : State) : State :=
  match h.job with
  | none => answer h.who true h.write 0 s
  | some j => match reqOf j.cmd with
    | some r => post j.tenant j.timed
        { status := .noClock, opcode := BitVec.ofNat 16 (opInfo j.cmd).op, tag := r.tag, done := nowNs s, dest := r.origin } s
    | none => s

/-- Bytes of a transaction. -/
def spanOf (q : MatrixReq) : Nat := if q.target = 2 then 4 else 32 * q.beats

/-- The answer to a transaction: zeros for a read with an error response. -/
def respond (q : MatrixReq) (error : Bool) (data : List Byte) (s : State) : State :=
  emit (.response q.master.val error (if q.write then [] else if error then List.replicate (spanOf q) 0 else data)) s

/-- Every access in flight or waiting ends with an error response, and a locked sequence ends (R145). -/
def endAccesses (s : State) : State :=
  let s := s.sys.held.foldl (fun s h => giveUp h s) s
  let s := match s.dbg.apWait with
    | some (_, w) => apAnswer true (if w.isSome then none else some 0) s
    | none => s
  let s := s.store.bursts.foldl (fun s b => respond { b.req with beats := b.req.beats - b.done } true [] s) s
  let s := s.store.waiting.foldl (fun s q => respond q true [] s) s
  modSys (fun y => { y with held := [] }) (modDbg (fun d => { d with apWait := none })
    (modStore (fun m => { m with lock := none, timedOut := [], bursts := [], waiting := [] }) s))

/-- Put a staged command into its place by GSEQ. -/
def insertStaged (x : Staged) : List Staged → List Staged
  | [] => [x]
  | y :: l => if x.gseq < y.gseq then x :: y :: l else y :: insertStaged x l

/-- A staged command added to its group, which opens when it is the first (R104). -/
def stageIn (g : Nat) (x : Staged) (n : Tenant) : Tenant :=
  match groupOf n g with
  | some _ => { n with groups := n.groups.map fun y => if y.num = g then { y with staged := insertStaged x y.staged } else y }
  | none => { n with groups := n.groups ++ [{ num := g, staged := [x] }] }

/-- Stage a command and reply S_STAGED with the results of Table 4.8 (R104). -/
def stage (i : Instr) (r : Req) (m : Meaning) (s : State) : State :=
  let e := entriesOf s i
  let s := modTenant r.tenant (stageIn r.group.toNat { gseq := r.gseq.toNat, entries := e, cmd := i, copied := m.copy s }) s
  let n := s.tenant r.tenant
  sayInterim r i .staged (le 2 e ++ le 2 n.groups.length ++ le 4 (stagedTotal n)) s

/-- Execute a command now and post its reply; the bridge holds a register write whose domain does not acknowledge (R64). -/
def runNow (i : Instr) (r : Req) (m : Meaning) (s : State) : State :=
  match silentDomain s i with
  | some d => holdWrite d { tenant := r.tenant, cmd := i, timed := r.cls = 1, copied := m.copy s } s
  | none =>
    let (s, st, res) := m.effect (m.copy s) s
    say r i st res s

/-- Hold a command until its time or its boundary, with its interim reply (R100, R290); the Mirror loader
fills the shadow bank with the entries of each commit (R289). -/
def hold (i : Instr) (r : Req) (m : Meaning) (due : Time) (timed : Bool) (s : State) : State :=
  let c := m.copy s
  let (s, st, res) := m.onAccept s
  let s := modTenant r.tenant (fun n =>
    { n with pend := n.pend ++ [{ cmd := i, due, timed, copied := c }] }) s
  sayInterim r i st res s

/-- Queue a class 2 command, with its interim reply; it begins to run when no other of its tenant does (R100). -/
def startClass2 (i : Instr) (r : Req) (m : Meaning) (s : State) : State :=
  let first := (s.tenant r.tenant).class2.isEmpty
  let (s, st, res) := m.onAccept s
  let s := sayInterim r i st res (modTenant r.tenant (fun n => { n with class2 := n.class2 ++ [{ cmd := i }] }) s)
  if first then m.start s else s

/-- Execute a packet that passes its checks, by its class and group. -/
def execute (i : Instr) (r : Req) (m : Meaning) (s : State) : State :=
  if r.group ≠ 0 && !isGroupCmd i then stage i r m s
  else if r.cls = 2 then startClass2 i r m s
  else if r.cls = 0 then (if atSwap i then hold i r m s.now false s else runNow i r m s)
  else if tooClose s r i then
    (if atSwap i then hold i r m s.now true s else runNow i r m (sayInterim r i .pending [] s))
  else hold i r m (applyTime r.apply) true s

/-- Check a packet and execute it, or reply the first status that applies (R98). -/
def accept (i : Instr) (r : Req) (m : Meaning) (s : State) : State :=
  match refusal i r m s with
  | some st => say r i st [] (m.onRefuse st s)
  | none => execute i r m s

/-- The transport of Table 4.10, by its bit. -/
def viaBit : Transport → Nat
  | .pcie => 0 | .spit0 => 1 | .spit1 => 2 | .fabric => 3

/-- A tenant is open and admitted on a transport (R85). -/
def admitted (s : State) (t : Nat) (v : Transport) : Bool :=
  (s.tenant t).st = .open && (s.tenant t).transports.getLsbD (viaBit v)

/-- The control core's firmware runs: it needs CORE for the register bridge and the Store (R20, Table 1.3). -/
def fwRuns (s : State) : Bool := s.sys.running && domainUp s 2

/-- The engine serves commands: at L1 or above, in RUN, QUIET or HOLDOVER, not entering SLEEP (R407), not in the grace of the
watchdog (R375). -/
def serving (s : State) : Bool :=
  fwRuns s && !s.wdog.grace && s.pwr.entering ≠ .sleep && (s.pwr.mode = .run || s.pwr.mode = .quiet || s.pwr.mode = .holdover)

/-- The control core is held halted by the debugger (R446). -/
def ctlHalted (s : State) : Bool := s.dbg.halted.getLsbD 0

/-- The Store is kept from a bulk master by another master's locked sequence (R127). -/
def storeHeld (s : State) (master : Nat) : Bool := match s.store.lock with | some k => k.master ≠ master | none => false

/-- The firmware reaches for the Store, as M0, while it executes the command at once. -/
def usesStore : Instr → Bool
  | .pageRead _ _ _ _ | .pageWrite _ _ _ _ | .fwWrite _ _ _ | .sceneRecall _ _ => true
  | _ => false

/-- A packet waits behind others taken before it, or for the Store that another master's locked sequence keeps from M0 (R127). -/
def m0Waits (s : State) (i : Instr) : Bool := (storeHeld s 0 && usesStore i) || s.tenants.any fun n => n.taken ≠ []

/-- Host boot (R421): only Root, only on the transport of the straps, and S_BUSY to all but FW_WRITE and FW_COMMIT. -/
def hostBootSubmit (i : Instr) (r : Req) (m : Meaning) (s : State) : State :=
  if r.tenant ≠ 0 || viaBit r.via ≠ (if s.sys.bootsel.getLsbD 2 && s.sys.bootsel.getLsbD 1 then 0 else 1) then s
  else match i with
    | .fwWrite _ _ _ | .fwCommit _ _ => accept i r m s
    | _ => say r i .busy [] s

/-- The place of the next packet among those taken and not yet executed (R100). -/
def takenNext (s : State) : Nat := (s.tenants.flatMap fun n => n.taken.map fun x => x.1 + 1).foldl max 0

/-- A packet of a tenant reaches the interpreter: it is taken only while 16 reply entries are free (R92); discarded with event
0x0008 on a transport not admitted (R85), or answered S_DENIED when it came over the fabric (R89); kept, up to 8, while the
control core is halted (R94, R446) or waits for the Store (R127); else checked and executed. -/
def submit (i : Instr) (m : Meaning) (s : State) : State :=
  match reqOf i with
  | none => s
  | some r =>
    if s.sys.hostBoot then hostBootSubmit i r m s
    else if !serving s || !viaUp s r.via then s
    else if !admitted s r.tenant r.via then
      if r.origin.isSome then say r i .denied [] s
      else if (s.tenant r.tenant).st = .open then record 0x0008 r.tenant [(1, r.tenant), (1, viaBit r.via)] s else s
    else if r.origin.isNone && 64 < (s.tenant r.tenant).replyQ.length then s
    else if ctlHalted s || m0Waits s i then
      if (s.tenant r.tenant).taken.length < 8 then modTenant r.tenant (fun n => { n with taken := n.taken ++ [(takenNext s, .cmd i)] }) s else s
    else accept i r m s

/-! EY_IRQ and interrupts. -/

/-- EY_IRQ of a tenant (Table 4.12). -/
def irqOf (s : State) (t : Nat) : BitVec 6 :=
  let n := s.tenant t
  let cap := (List.range 32).any fun p => ownerOf s 0x06 p = t && (s.pin p).mode = 1 && (s.pin p).reports ≠ []
  BitVec.ofNat 6 (bit (n.outFull || n.rTail ≠ n.rHead) + 2 * bit (!n.inboxBusy) + 4 * bit (s.last.servo ≠ .locked) +
    8 * bit (s.pwr.mode = .holdover) + 16 * bit (s.sys.fenced ≠ 0) + 32 * bit cap)

/-- MSI-X vector n of function t on each rise of bit n of EY_IRQ and EY_IRQ_EN, while the tenant is open and admitted on PCIe
(R88). -/
def msixTenant (s : State) (t : Nat) : State :=
  let n := s.tenant t
  let now := irqOf s t &&& n.irqEn
  if now = n.irqSeen then s
  else
    let s1 := modTenant t (fun n => { n with irqSeen := now }) s
    if admitted s t .pcie && viaUp s .pcie then
      { s1 with out := s1.out ++ ((List.range 6).filter fun k => now.getLsbD k && !n.irqSeen.getLsbD k).map fun k => Output.msix t k }
    else s1

/-- The interrupts of every tenant brought up to date, by `k` tenants. -/
def msixScan : Nat → State → State
  | 0, s => s
  | k + 1, s => msixTenant (msixScan k s) k

/-- The end of a step: interrupts follow the state (R88). -/
def fin (s : State) : Out := .next (msixScan 16 s)

/-- SPITn_IRQ_N (R88): low while an admitted tenant has an enabled bit set. -/
def spitIrqN (s : State) (port : Nat) : Bool :=
  !((List.range 16).any fun t => (s.tenant t).transports.getLsbD (1 + port) && (s.tenant t).st ≠ .closed &&
    irqOf s t &&& (s.tenant t).irqEn ≠ 0)

end Sys2Proof.Machine
end

