-- ==== Sys2Proof/Machine/Store.lean ====
section
/-! DEFINITION. The Store (05): its bytes under the keys of their pages, admission by owner tag, locked sequences, and the
commands of group 0x09. -/

namespace Sys2Proof.Machine

/-- Bytes in a page. -/
def pageSize : Nat := 65536

/-- The page of a Store offset. -/
def pageOf (off : Nat) : Nat := off / pageSize % 256

/-- The key slot of a page's owner (R135, R136). -/
def keyOf (m : Store) (page : Nat) : Option Nat := nth m.keys (nth m.owner page).toNat

/-- Where a byte under a key is listed. -/
def cellKey (key off : Nat) : Nat := key * 2 ^ 24 + off

/-- Pages 240 to 243 stage the firmware image; the engine zeroes them before first use (R138, Table 5.4). -/
def stagingPage (page : Nat) : Bool := 240 ≤ page && page < 244

/-- A byte of the channel B ring as pages 248 to 251 hold it (R356, Table 13.4). -/
def ringByte (e : Evrec) (off : Nat) : Byte :=
  match e.ring.find? (fun x => x.seq.toNat % 16384 = off / 16) with
  | some x => nth (leBits 4 x.seq ++ le 2 x.code ++ le 1 x.origin ++ le 1 0 ++ x.data) (off % 16)
  | none => 0

/-- What a byte not written under the present key reads as: zero on a staging page, the ring on pages 248 to 251, else a
value left open (R138, log entry 9). -/
def blankByte (s : State) (key off : Nat) : Byte :=
  if stagingPage (pageOf off) then 0
  else if 248 ≤ pageOf off && pageOf off < 252 then ringByte s.evrec (off - 248 * pageSize)
  else Config.rawStoreByte s.store.writes key off

/-- The plaintext byte of the Store at an offset (R135, R138). -/
def storeByte (s : State) (off : Nat) : Byte :=
  match keyOf s.store (pageOf off) with
  | some k => (assoc s.store.cells (cellKey k off)).getD (blankByte s k off)
  | none => Config.rawStoreByte s.store.writes (s.store.draws + 1) off

/-- `n` bytes of the Store from an offset. -/
def storeBytes (s : State) (off n : Nat) : List Byte := (List.range n).map fun i => storeByte s (off + i)

/-- The key pair of a slot by the number of its draw, first key first; all zero for R137's (R136, log entry 22). -/
def keyPair (draw : Nat) : List Byte := if draw = 0 then List.replicate 32 0 else leBits 32 (Config.entropy draw)

/-- A line of the array as it stands in the Store: encrypted under the key of its page's owner, with the line index as the tweak (R135);
raw zeros where no key is held. -/
def arrayLine (s : State) (line : Nat) : List Byte :=
  match keyOf s.store (line / 1024) with
  | some k => xtsEncrypt ((keyPair k).take 16) ((keyPair k).drop 16) line (storeBytes s (64 * line) 64)
  | none => List.replicate 64 0

/-- A cell lies in the same 16-byte block under another key, so a write to the block loses it (R135, R138). -/
def sameBlock (key off : Nat) (c : Nat × Byte) : Bool :=
  c.1 / 2 ^ 24 ≠ key && c.1 % 2 ^ 24 / 16 = off / 16

/-- The cells with a byte written under a key. -/
def putCell (key off : Nat) (b : Byte) (cells : List (Nat × Byte)) : List (Nat × Byte) :=
  let rest := cells.filter (fun c => !sameBlock key off c)
  if stagingPage (pageOf off) && b = 0 then assocDel rest (cellKey key off) else assocSet rest (cellKey key off) b

/-- Write one byte of the Store under the key of its page; with no key nothing that can be read is written. -/
def storePut (off : Nat) (b : Byte) (s : State) : State :=
  match keyOf s.store (pageOf off) with
  | some k => modStore (fun m => { m with cells := putCell k off b m.cells, writes := m.writes + 1 }) s
  | none => modStore (fun m => { m with writes := m.writes + 1 }) s

/-- Write bytes whose enables are set from an offset on (R121). -/
def storeWrite (off : Nat) : List (Byte × Bool) → State → State
  | [], s => s
  | (b, en) :: l, s => storeWrite (off + 1) l (if en then storePut off b s else s)

/-- Write whole bytes from an offset on. -/
def storePoke (off : Nat) (l : List Byte) (s : State) : State := storeWrite off (l.map fun b => (b, true)) s

/-- The Store admits a tag to a page (R132). -/
def tagOk (s : State) (tag off : Nat) : Bool := (nth s.store.owner (pageOf off)).toNat = tag

/-- Event 0x0901, for the tenant of the tag. -/
def refuseTag (master what tag : Nat) (s : State) : State := record 0x0901 tag [(1, master), (1, what), (1, tag)] s

/-! PAGE_COPY, line by line (R141). -/

/-- The running PAGE_COPY of a tenant: source, destination and lines done. -/
def copyOf (n : Tenant) : Option (Nat × Nat × Nat) :=
  match n.class2.head? with
  | some c => (match c.cmd with
    | .pageCopy _ src dst => if c.denied then none else some (src.toNat, dst.toNat, c.line)
    | _ => none)
  | none => none

/-- Lines of a copy done, up to a line. -/
def copyTo (t upTo : Nat) (s : State) : State :=
  match copyOf (s.tenant t) with
  | some (src, dst, line) =>
    modTenant t (fun n => { n with class2 := updAt n.class2 0 fun c => { c with line := upTo } })
      (storePoke (dst * pageSize + 64 * line) (storeBytes s (src * pageSize + 64 * line) (64 * (upTo - line))) s)
  | none => s

/-- The copy has gone on by a number of lines that no rule bounds (R100, R141), unless a locked sequence keeps M0 from the Store. -/
def advanceCopy (t : Nat) (s : State) : State :=
  match copyOf (s.tenant t) with
  | some (_, _, line) =>
    if storeHeld s 0 then s
    else
      let (v, s) := drawFree s
      copyTo t (line + v.toNat % (1025 - line)) s
  | none => s

/-- Every running copy has gone on. -/
def advanceCopies (s : State) : State :=
  if s.tenants.any fun n => (copyOf n).isSome then (List.range 16).foldl (fun s t => advanceCopy t s) s else s

/-- A read of the Store by a master with a tag (R132): zeros with an error response where the tag is not the owner's. -/
def storeReadAs (master tag off n : Nat) (s : State) : State × Bool × List Byte :=
  let s := advanceCopies s
  if tagOk s tag off then (s, false, storeBytes s off n)
  else (refuseTag master (pageOf off) tag s, true, List.replicate n 0)

/-- A write of the Store by a master with a tag (R132). -/
def storeWriteAs (master tag off : Nat) (l : List (Byte × Bool)) (s : State) : State × Bool :=
  let s := advanceCopies s
  if tagOk s tag off then (storeWrite off l s, false) else (refuseTag master (pageOf off) tag s, true)

/-! Keys and pages. -/

/-- Draw the key of an owner tag from the entropy source (R136). -/
def drawKey (tag : Nat) (s : State) : State :=
  modStore (fun m => { m with
    keys := updAt m.keys tag (fun _ => some (m.draws + 1)), drawn := setBit m.drawn tag true, draws := m.draws + 1 }) s

/-- Zeroise the key of an owner tag (R117, R136). -/
def zeroiseKey (tag : Nat) (s : State) : State :=
  modStore (fun m => { m with keys := updAt m.keys tag (fun _ => none), drawn := setBit m.drawn tag false }) s

/-- Store power-up: every line lost, the engine's key and T0's drawn, or all zero when the entropy source is fenced; Root
holds pages 0 to 231 (R131, R136 to R138). -/
def storePowerUp (entropyOk : Bool) (s : State) : State :=
  let s := modStore (fun m => { m with
    cells := [], owner := List.replicate 232 0 ++ List.replicate 24 16, lost := false, lock := none
    keys := some 0 :: List.replicate 15 none ++ [some 0], drawn := 0 }) s
  if entropyOk then drawKey 0 (drawKey 16 s) else s

/-- A page is named by a PAGE_COPY not yet done (R141). -/
def pageBusy (s : State) (p : Nat) : Bool :=
  s.tenants.any fun n => n.class2.any fun c => match c.cmd with
    | .pageCopy _ a b => a.toNat = p || b.toNat = p
    | _ => false

/-- The pages a tenant holds. -/
def heldPages (s : State) (t : Nat) : List Nat := (List.range 256).filter fun p => (nth s.store.owner p).toNat = t

/-! The commands of Table 5.5. -/

def pageInfoM (r : Req) : Meaning where
  effect := fun _ s =>
    let held := heldPages s r.tenant
    (s, .ok, le 2 held.length ++ le 2 (if r.tenant = 0 then held.length else 0) ++ le 2 24 ++ le 2 0 ++
      le 32 ((held.map fun p => 2 ^ p).sum))

def execPageInfo (r : Req) (s : State) : Out := fin (submit (.pageInfo r) (pageInfoM r) s)

/-- OFFSET and LENGTH of Table 5.6. -/
def badSpan (offset : Word) (n : Nat) : Bool :=
  n < 4 || 992 < n || n % 4 ≠ 0 || offset.toNat % 4 ≠ 0 || pageSize < offset.toNat + n

/-- PAGE_READ; one that came over the fabric reads at most 232 bytes (R221). -/
def pageReadM (r : Req) (page : Half) (offset : Word) (length : Half) : Meaning where
  checks := fun s => [(.range, badSpan offset length.toNat || (r.origin.isSome && 232 < length.toNat)), (.busy, pageBusy s page.toNat)]
  effect := fun _ s => (s, .ok, storeBytes s (page.toNat * pageSize + offset.toNat) length.toNat)

def execPageRead (r : Req) (page : Half) (offset : Word) (length : Half) (s : State) : Out :=
  fin (submit (.pageRead r page offset length) (pageReadM r page offset length) s)

def pageWriteM (page : Half) (offset : Word) (data : List Byte) : Meaning where
  checks := fun s => [(.range, badSpan offset data.length), (.busy, pageBusy s page.toNat)]
  effect := fun _ s => (storePoke (page.toNat * pageSize + offset.toNat) data s, .ok, [])

def execPageWrite (r : Req) (page : Half) (offset : Word) (data : List Byte) (s : State) : Out :=
  fin (submit (.pageWrite r page offset data) (pageWriteM page offset data) s)

/-- PAGE_COPY copies line by line while it runs; its end copies the lines still left (R141, log entry 23). -/
def pageCopyM (r : Req) (src dst : Half) : Meaning where
  checks := fun s => [(.range, src = dst), (.busy, pageBusy s src.toNat || pageBusy s dst.toNat)]
  ready := fun s => !storeHeld s 0
  effect := fun _ s => (copyTo r.tenant 1024 s, .ok, [])

def execPageCopy (r : Req) (src dst : Half) (s : State) : Out := fin (submit (.pageCopy r src dst) (pageCopyM r src dst) s)

/-! Targets, locked sequences and grants (R123 to R128). -/

/-- The target and the offset there that an address names to a master that gives no target: the Store from 0 (LDS reads Store
offsets), Lens local memory (Table 11.2), the register blocks, else log entry 33. -/
def targetOf (a : Nat) : Nat × Nat :=
  if a < 2 ^ 24 then (0, a)
  else if a / 2 ^ 21 = 256 then (3, a)
  else if a / 2 ^ 20 = 1024 then (2, a)
  else
    let w := Config.windowOf a
    (if w.1 = 1 || w.1 = 4 || w.1 = 5 then w.1 else 6, w.2)

/-- Event 0x0905; the number of a target that does not exist is free. -/
def illegalAccess (master target addr tag : Nat) (s : State) : State :=
  if target < 6 then record 0x0905 tag [(1, master), (1, target), (4, addr)] s
  else
    let (v, s) := drawFree s
    record 0x0905 tag [(1, master), (1, v.toNat % 256), (4, addr)] s

/-- The round-robin pointer of a target's arbiter moves past the master granted; M1 has no place in it (R124). -/
def granted (target master : Nat) (s : State) : State :=
  if master = 1 then s
  else if master = 5 || master = 15 then modStore (fun m => { m with rrRt := updAt m.rrRt target fun _ => master + 1 }) s
  else modStore (fun m => { m with rrBulk := updAt m.rrBulk target fun _ => master + 1 }) s

/-- A 32-bit debug access to the Store under the session's scope (R439): a read, or a write of a word. -/
def debugStore (addr : Nat) (w : Option Word) (s : State) : State :=
  match s.dbg.session with
  | none => s
  | some x => match w with
    | none =>
      let (s, err, l) := storeReadAs 1 x.scope addr 4 s
      apAnswer err (some (BitVec.ofNat 32 (unle l))) s
    | some v =>
      let (s, err) := storeWriteAs 1 x.scope addr ((leBits 4 v).map fun b => (b, true)) s
      apAnswer err none s

/-- A debug access that waited for the Store goes on when no locked sequence holds it. -/
def apRetry (s : State) : State :=
  match s.dbg.apWait with
  | none => s
  | some (a, w) => if storeHeld s 1 then s else debugStore a w (modDbg (fun d => { d with apWait := none }) s)

/-- The locked sequence ends. -/
def releaseLock (s : State) : State := apRetry (modStore (fun m => { m with lock := none }) s)

/-- The edge of a master, and a target, whose domain is not CORE, is out of reset (Tables 3.3 and 5.2): the DMA of several lanes while one lane is. -/
def masterUp (s : State) (m : Nat) : Bool :=
  match m with
  | 0 => domainUp s 1
  | 2 => domainUp s 24
  | 3 => (List.range 4).any fun p => domainUp s (16 + p)
  | 4 => (List.range 4).any fun p => domainUp s (20 + p)
  | 14 => domainUp s 25
  | _ => true
def targetUp (s : State) (t : Nat) : Bool := if t = 4 then domainUp s 25 else if t = 5 then domainUp s 24 else true

/-- What a reset leaves of a burst in flight: its master's closer supplies the beats left (R143), or its target answers them with errors (R144). -/
def settleBurst (s : State) (b : Burst) : State :=
  let m := b.req.master.val
  let left := b.req.beats - b.done
  if !masterUp s m then record 0x0903 engineTag [(1, m), (1, left)] s
  else if !targetUp s b.req.target then
    respond { b.req with beats := left } true [] (record 0x0904 engineTag [(1, m), (1, b.req.target.val), (1, left)] s)
  else s

/-- Bursts, requests and a locked sequence after masters or targets have gone into reset (R143, R144). -/
def settleBursts (s : State) : State :=
  let s := s.store.bursts.foldl settleBurst s
  let s := modStore (fun m => { m with
    bursts := m.bursts.filter fun b => masterUp s b.req.master && targetUp s b.req.target
    waiting := m.waiting.filter fun q => masterUp s q.master }) s
  if s.store.lock.any fun l => !masterUp s l.master then releaseLock s else s

end Sys2Proof.Machine
end

