-- ==== Sys2Proof/Machine/Evrec.lean ====
section
/-! DEFINITION. The event recorder (13): channel C in flash, channel B and its dumps, the commands of group 0x0A and the steps
of the flash. -/

namespace Sys2Proof.Machine

/-! Bytes of the flash. -/

/-- A byte of the flash: erased where nothing is listed. -/
def flashByte (f : Flash) (a : Nat) : Byte := (assoc f.cells a).getD 0xFF

/-- `n` bytes of the flash. -/
def flashBytes (f : Flash) (a n : Nat) : List Byte := (List.range n).map fun i => flashByte f (a + i)

/-- Program bytes; 0xFF changes nothing. -/
def flashPut (a : Nat) : List Byte → List (Nat × Byte) → List (Nat × Byte)
  | [], c => c
  | b :: l, c => flashPut (a + 1) l (if b = 0xFF then assocDel c a else assocSet c a b)

/-- The cells without those of a range. -/
def flashClear (a n : Nat) (f : Flash) : Flash :=
  { f with cells := f.cells.filter (fun c => !(a ≤ c.1 && c.1 < a + n)), dirty := f.dirty.filter (fun d => !(a ≤ d && d < a + n)) }

/-- A change of the flash. -/
def modFlash (f : Flash → Flash) (s : State) : State := modEvrec (fun e => { e with flash := f e.flash }) s

/-- Unspecified bytes after a failed or cut operation (R364, R366). -/
def flashSpoil (a n : Nat) (s : State) : State :=
  let draw := s.free
  modEvrec (fun e => { e with flash := { e.flash with
    cells := flashPut a ((List.range n).map fun i => Config.rawFlashByte draw (a + i)) e.flash.cells } }) { s with free := draw + 1 }

/-- A whole sector left unspecified, which never counts as erased (R364). -/
def spoilSector (a : Nat) (s : State) : State :=
  modEvrec (fun e => { e with flash := { e.flash with dirty := a :: e.flash.dirty } }) (flashSpoil a 4096 s)

/-- Every byte of a range reads 0xFF. -/
def flashErased (f : Flash) (a n : Nat) : Bool :=
  !(f.cells.any fun c => a ≤ c.1 && c.1 < a + n) && !(f.dirty.any fun d => a ≤ d && d < a + n)

/-- log2 of the size of the flash, 20 to 31 (Table 13.5). -/
def flashLog2 : Nat := 20 + Config.flashLog2 % 12

/-- The last 4 KiB sector, which holds the descriptor (R353). -/
def descAddr : Nat := 2 ^ flashLog2 - 4096

/-- The bytes of a descriptor (Table 13.6). -/
def descBytes (d : Descriptor) : List Byte :=
  withCrc (le 4 0x43525645 ++ le 1 1 ++ le 3 0 ++ le 4 d.cBase ++ le 4 d.cSize ++ le 4 d.dumpBase ++ le 2 d.tick ++ le 6 0)

/-- The bytes end in their CRC-32C. -/
def crcOk (bs : List Byte) (n : Nat) : Bool := (crc32c (slice bs 0 n)).toNat = peekLe bs n 4

/-- The descriptor in the flash, when its CRC is right. -/
def readDescriptor (f : Flash) : Option Descriptor :=
  let bs := flashBytes f descAddr 32
  if crcOk bs 28 && peekLe bs 0 4 = 0x43525645 && peekLe bs 4 1 = 1 then
    some { cBase := peekLe bs 8 4, cSize := peekLe bs 12 4, dumpBase := peekLe bs 16 4, tick := peekLe bs 20 2 }
  else none

/-! Channel C in the flash. -/

/-- Leave out equal neighbours. -/
def dedupe : List Nat → List Nat
  | a :: b :: l => if a = b then dedupe (b :: l) else a :: dedupe (b :: l)
  | l => l

/-- The record slots of the region with a byte that is not 0xFF. -/
def usedSlots (f : Flash) (d : Descriptor) : List Nat :=
  dedupe ((f.cells.filter fun c => d.cBase ≤ c.1 && c.1 < d.cBase + d.cSize).map fun c => (c.1 - d.cBase) / 32)

/-- The bytes of a record slot. -/
def slotBytes (f : Flash) (d : Descriptor) (j : Nat) : List Byte := flashBytes f (d.cBase + 32 * j) 32

/-- The records of the region as (slot, bytes), valid or torn. -/
def cRecords (f : Flash) (d : Descriptor) : List (Nat × List Byte) := (usedSlots f d).map fun j => (j, slotBytes f d j)

/-- SEQ of a record. -/
def recSeq (bs : List Byte) : Word := BitVec.ofNat 32 (peekLe bs 0 4)

/-- The record of the newest SEQ among valid ones. -/
def newestRec : List (Nat × List Byte) → Option (Nat × List Byte)
  | [] => none
  | x :: l =>
    if !crcOk x.2 28 then newestRec l
    else match newestRec l with
      | some y => if newer (recSeq x.2) (recSeq y.2) then some x else some y
      | none => some x

/-- The record of the oldest SEQ among valid ones. -/
def oldestRec : List (Nat × List Byte) → Option (Nat × List Byte)
  | [] => none
  | x :: l =>
    if !crcOk x.2 28 then oldestRec l
    else match oldestRec l with
      | some y => if newer (recSeq y.2) (recSeq x.2) then some x else some y
      | none => some x

/-- C_TAIL (Table 13.10). -/
def cTail (e : Evrec) : Word :=
  match e.desc with
  | some d => match oldestRec (cRecords e.flash d) with
    | some x => recSeq x.2
    | none => e.cHead
  | none => e.cHead

/-- B_TAIL (Table 13.10). -/
def bTail (e : Evrec) : Word :=
  match e.ring.getLast? with
  | some x => x.seq
  | none => e.bHead

/-- The bytes of a channel B record (Table 13.4). -/
def bBytes (x : BRec) : List Byte := leBits 4 x.seq ++ le 2 x.code ++ le 1 x.origin ++ le 1 0 ++ x.data

/-- The bytes of a channel C record (Table 13.3). -/
def cBytes (seq : Word) (cycles : Nat) (x : CEntry) : List Byte :=
  withCrc (leBits 4 seq ++ le 2 x.code ++ le 1 x.origin ++ le 1 x.supp ++ le 4 x.hours ++ le 3 cycles ++ le 1 (bit x.valid) ++
    le 8 x.time ++ x.data.take 4)

/-- The sequence number before another (R349). -/
def prevSeq (a : Word) : Word := if a = 0 then 0xFFFFFFFE else a - 1

/-! Settling HOURS and CYCLES (R347, R348, R480). -/

/-- Add the restored HOURS to what was counted since AON power-up. -/
def settleEntry (base : Nat) (x : CEntry) : CEntry := if x.raw then { x with hours := x.hours + base, raw := false } else x

/-- HOURS continues from the newest valid record, or from 0; CYCLES is one more than the record's, or 1. -/
def settle (newest : Option (List Byte)) (s : State) : State :=
  if s.evrec.settled then s
  else
    let base := match newest with | some bs => peekLe bs 8 4 | none => 0
    let cyc := match newest with | some bs => min (peekLe bs 12 3 + 1) 0xFFFFFF | none => 1
    modEvrec (fun e => { e with
      hours := e.hours + base, cycles := cyc, settled := true
      queue := e.queue.map (settleEntry base)
      dump := e.dump.map fun d => if d.raw then { d with hours := d.hours + base, raw := false } else d }) s

/-- HOURS as reported. -/
def hoursNow (s : State) : Nat := s.evrec.hours % 2 ^ 32

/-! Dump slots (R357 to R359). -/

/-- Bytes of a dump slot. -/
def dumpSize : Nat := 266240

/-- Flash address of a dump slot. -/
def dumpAddr (d : Descriptor) (k : Nat) : Nat := d.dumpBase + k * dumpSize

/-- The command that runs first in a queue of class 2 erases a slot or everything. -/
def erasingBy (s : State) (k : Nat) : Bool :=
  s.tenants.any fun n => match n.class2 with
    | c :: _ => (match c.cmd with
      | .evrecErase _ t => t.toNat = k || t = 2
      | _ => false)
    | [] => false

/-- An EVREC_ERASE runs. -/
def eraseRuns (s : State) : Bool :=
  s.tenants.any fun n => match n.class2 with
    | c :: _ => (match c.cmd with
      | .evrecErase _ _ => true
      | _ => false)
    | [] => false

/-- The header of a dump slot (Table 13.7). -/
def dumpHeader (f : Flash) (d : Descriptor) (k : Nat) : List Byte := flashBytes f (dumpAddr d k) 40

/-- State of a dump slot as EVREC_STATUS reports it: 0 erased, 1 complete, 2 incomplete or torn, 3 erasing. -/
def slotCode (s : State) (k : Nat) : Nat :=
  match s.evrec.desc with
  | none => 0
  | some d =>
    if erasingBy s k || s.evrec.eraseQ.any (fun a => dumpAddr d k ≤ a && a < dumpAddr d k + dumpSize) then 3
    else if (match s.evrec.dump with | some x => decide (x.slot = k) | none => false) then 2
    else if flashErased s.evrec.flash (dumpAddr d k) dumpSize then 0
    else
      let h := dumpHeader s.evrec.flash d k
      if crcOk h 28 && nth h 32 = 0 then 1 else 2

/-- FREEZE0 and FREEZE1 (R358, Table 13.10). -/
def slotFreeze (s : State) (k : Nat) : Nat :=
  match s.evrec.desc with
  | some d =>
    let h := dumpHeader s.evrec.flash d k
    if slotCode s k ≠ 0 && crcOk h 28 then peekLe h 8 4 else 0xFFFFFFFF
  | none => 0xFFFFFFFF

/-- DUMP (Table 13.10). -/
def dumpBits (s : State) : Nat := slotCode s 0 + 4 * slotCode s 1 + 16 * bit s.evrec.dump.isSome

/-- The slot a dump would use (R358). -/
def freeSlot (s : State) : Option Nat :=
  if s.evrec.desc.isNone then none
  else if slotCode s 0 = 0 then some 0 else if slotCode s 1 = 0 then some 1 else none

/-- Why no dump is possible, or none (R358). -/
def noDump (s : State) : Option Nat :=
  if s.evrec.desc.isNone || isFenced s fenceEvrec then some 2
  else if s.evrec.dump.isSome then some 1
  else if (freeSlot s).isNone then some 0 else none

/-- A trigger of R357: a dump starts, or 0x0A05 says why not; `flush` marks EVREC_FLUSH, which records it only with reason 0. -/
def startDump (trigger : Nat) (flush : Bool) (s : State) : State :=
  match noDump s with
  | some why => if flush && why ≠ 0 then s else record 0x0A05 engineTag [(1, trigger), (1, why)] s
  | none =>
    let k := (freeSlot s).getD 0
    let freeze := prevSeq s.evrec.bHead
    let d : Dump := { slot := k, trigger, freeze, hours := s.evrec.hours, raw := !s.evrec.settled, valid := s.last.valid
                      time := recordTime s, flush }
    record 0x0A03 engineTag [(1, trigger), (1, k), (4, freeze.toNat)] (modEvrec (fun e => { e with dump := some d }) s)

/-- The bytes of a dump header up to its CRC. -/
def headerBytes (cycles : Nat) (d : Dump) : List Byte :=
  withCrc (le 4 0x504D5544 ++ le 1 1 ++ le 1 d.trigger ++ le 2 0 ++ leBits 4 d.freeze ++ le 4 d.hours ++ le 3 cycles ++ le 1 0 ++
    le 8 d.time)

/-- The record of a SEQ still in the ring, or kept from before a loss of AON power. -/
def ringGet (e : Evrec) (seq : Word) : Option BRec := (e.ring ++ e.bOld).find? (fun x => x.seq = seq)

/-- FREEZE − i, 0xFFFF_FFFF skipped (R349). -/
def seqBack : Nat → Word → Word
  | 0, a => a
  | n + 1, a => seqBack n (prevSeq a)

/-- Up to `n` records of a dump from index i, until one is overwritten. -/
def dumpRecords (e : Evrec) : Nat → Word → List BRec
  | 0, _ => []
  | n + 1, a => match ringGet e a with
    | some x => x :: dumpRecords e n (prevSeq a)
    | none => []

/-- The records of the next page of a dump. -/
def nextPage (e : Evrec) (d : Dump) : List BRec :=
  if 16384 ≤ d.index then [] else dumpRecords e (min (16 - d.index % 16) (16384 - d.index)) (seqBack d.index d.freeze)

/-! Failures (R366). -/

/-- A program or erase did not verify: 0x0A06 in channel B, NVM_ERRORS, and after three in a row channel C fails and the
recorder is fenced. -/
def nvmFailure (a : Nat) (s : State) : State :=
  let s := recordB 0x0A06 engineTag (packData 8 [(4, a)]) s
  let s := modEvrec (fun e => { e with nvmErrors := e.nvmErrors + 1, failures := e.failures + 1 }) s
  if 3 ≤ s.evrec.failures then
    modSys (fun y => { y with fenced := setBit y.fenced fenceEvrec true }) (modEvrec (fun e => { e with cState := 3, queue := [] }) s)
  else s

/-- An operation verified. -/
def nvmOk (s : State) : State := modEvrec (fun e => { e with failures := 0 }) s

/-! Channel C writing (R354, R355, R360). -/

/-- Sectors of the region. -/
def sectors (d : Descriptor) : Nat := d.cSize / 4096

/-- Flash address of sector i of the region. -/
def sectorAddr (d : Descriptor) (i : Nat) : Nat := d.cBase + 4096 * (i % sectors d)

/-- The write position enters a sector: the failed one is passed over, and the next is erased (R354, R366). -/
def enterSector (d : Descriptor) (i : Nat) (e : Evrec) : Evrec :=
  let i := if e.skipSector = some (i % sectors d) then i + 1 else i
  { e with
    writePos := 128 * (i % sectors d), skipSector := none
    eraseQ := if e.eraseQ.contains (sectorAddr d (i + 1)) then e.eraseQ else e.eraseQ ++ [sectorAddr d (i + 1)] }

/-- The position after a slot. -/
def advance (d : Descriptor) (e : Evrec) : Evrec :=
  if e.writePos % 128 = 127 then enterSector d (e.writePos / 128 + 1) e else { e with writePos := e.writePos + 1 }

/-- The last slot of a sector that is not empty. -/
def lastUsed (used : List Nat) (sector : Nat) : Nat :=
  (used.filter fun j => j / 128 = sector).foldl max (128 * sector)

/-- Erases owed before and after a write position (R360, steps 4 and 5). -/
def openingErases (f : Flash) (d : Descriptor) (pos : Nat) : List Nat :=
  let a := sectorAddr d (pos / 128)
  let b := sectorAddr d (pos / 128 + 1)
  (if flashErased f (a + 32 * (pos % 128)) (4096 - 32 * (pos % 128)) && !f.dirty.contains a then [] else [a]) ++
  (if flashErased f b 4096 then [] else [b])

/-- CHANNEL_C_SCAN_DONE: the write position is found and channel C enters service (R360, R480). -/
def scanDone (s : State) : State :=
  match s.evrec.desc with
  | none => s
  | some d =>
    if s.evrec.cState ≠ 1 || !s.evrec.bService then s
    else
      let recs := cRecords s.evrec.flash d
      let used := usedSlots s.evrec.flash d
      let torn := (recs.filter fun x => !crcOk x.2 28).length
      let best := newestRec recs
      let pos := match best with
        | some x => (lastUsed used (x.1 / 128) + 1) % (128 * sectors d)
        | none => 0
      let head := match best with
        | some x => nextSeq (recSeq x.2)
        | none => 0
      let s1 := settle (best.map fun x => x.2) s
      let s2 := modEvrec (fun e => { e with
        cState := 2, cHead := head, writePos := pos, skipSector := none, eraseQ := e.eraseQ ++ openingErases e.flash d pos }) s1
      let kind := match s.sys.kind with
        | .cold => 0
        | .watchdog => 2
        | _ => 1
      let s3 := { s2 with tenants := s2.tenants.map fun n => if n.markDue then { n with openC := head, markDue := false } else n }
      record 0x0A01 engineTag [(1, kind), (2, sat16 torn)] s3

/-- CHANNEL_C_PROGRAM_DONE: the first entry of the queue is programmed into its slot, or fails there (R355, R366). -/
def execChannelCProgramDone (ok : Bool) (s : State) : Out :=
  match s.evrec.desc, s.evrec.queue with
  | some d, x :: rest =>
    let a := d.cBase + 32 * s.evrec.writePos
    if s.evrec.cState ≠ 2 || s.evrec.eraseQ.contains (sectorAddr d (s.evrec.writePos / 128)) then .next s
    else if ok then
      fin (nvmOk (modEvrec (fun e => advance d { e with
        queue := rest, cHead := nextSeq e.cHead
        flash := { e.flash with cells := flashPut a (cBytes e.cHead e.cycles x) e.flash.cells } }) s))
    else fin (nvmFailure a (modEvrec (fun e => enterSector d (e.writePos / 128 + 1) e) (flashSpoil a 32 s)))
  | _, _ => .next s

/-- SECTOR_ERASE_DONE: the oldest erase ends; a failed one of channel C erases the sector after it instead (R354, R366). -/
def execSectorEraseDone (ok : Bool) (s : State) : Out :=
  match s.evrec.eraseQ with
  | [] => .next s
  | a :: rest =>
    let s := modEvrec (fun e => { e with eraseQ := rest }) s
    if ok then fin (nvmOk (modEvrec (fun e => { e with flash := flashClear a 4096 e.flash }) s))
    else
      let s := nvmFailure a (spoilSector a s)
      match s.evrec.desc with
      | some d =>
        if d.cBase ≤ a && a < d.cBase + d.cSize then
          let i := (a - d.cBase) / 4096
          fin (modEvrec (fun e =>
            if e.writePos / 128 = i then
              { enterSector d (i + 1) e with eraseQ := sectorAddr d (i + 1) :: (enterSector d (i + 1) e).eraseQ }
            else { e with skipSector := some i, eraseQ := e.eraseQ ++ [sectorAddr d (i + 1)] }) s)
        else fin s
      | none => fin s

/-! Dump steps. -/

/-- The dump ends: 0x0A04, and the results of an EVREC_FLUSH (R357). -/
def endDump (d : Dump) (s : State) : State :=
  record 0x0A04 engineTag [(1, d.slot), (2, sat16 d.index)]
    (modEvrec (fun e => { e with dump := none, flushed := if d.flush then some (d.freeze.toNat, d.index, d.slot) else e.flushed }) s)

/-- A change of the dump in progress. -/
def modDump (f : Dump → Dump) (s : State) : State := modEvrec (fun e => { e with dump := e.dump.map f }) s

/-- Program bytes of a dump, or leave them unspecified (R366). -/
def dumpWrite (ok : Bool) (a : Nat) (l : List Byte) (s : State) : State :=
  if ok then nvmOk (modEvrec (fun e => { e with flash := { e.flash with cells := flashPut a l e.flash.cells } }) s)
  else nvmFailure a (flashSpoil a l.length s)

/-- DUMP_PAGE_DONE: the next program of a dump: its header once HOURS and CYCLES are settled, the next records, COUNT, DONE;
queued channel C records go first (R357, R480). -/
def dumpPage (ok : Bool) (s : State) : State :=
  match s.evrec.dump, s.evrec.desc with
  | some d, some c =>
    let a := dumpAddr c d.slot
    if s.evrec.cState = 2 && s.evrec.queue ≠ [] then s
    else if !d.header && s.evrec.settled then
      (modDump (fun d => { d with header := true }) (dumpWrite ok a (headerBytes s.evrec.cycles d) s))
    else
      let page := nextPage s.evrec d
      if page ≠ [] then
        (modDump (fun d => { d with index := d.index + page.length })
          (dumpWrite ok (a + 4096 + 16 * d.index) (page.flatMap bBytes) s))
      else if !d.header then s
      else if !d.counted then (modDump (fun d => { d with counted := true }) (dumpWrite ok (a + 36) (le 4 d.index) s))
      else (endDump d (dumpWrite ok (a + 32) [0] s))
  | _, _ => s

/-- OPERATING_TIME_MARK: HOURS passes the next multiple of TICK (R354); the AON clock has counted up to it. -/
def operatingMark (s : State) : State :=
  match s.evrec.desc with
  | some d =>
    if d.tick = 0 || !s.evrec.bService then s
    else
      let next := (s.evrec.hours / d.tick + 1) * d.tick
      let ticks := (next - s.evrec.hours) * 16000000 - s.evrec.hoursTicks
      record 0x0A02 engineTag []
        (modSys (fun y => { y with aonTicks := y.aonTicks + ticks })
          (modEvrec (fun e => { e with hours := next, hoursTicks := 0 }) s))
  | none => s

def execOperatingTimeMark (s : State) : Out := fin (operatingMark s)

/-- One AON edge of HOURS (R347), with the mark of R354. -/
def tickHours (s : State) : State :=
  if s.evrec.hoursTicks + 1 < 16000000 then modEvrec (fun e => { e with hoursTicks := e.hoursTicks + 1 }) s
  else
    let s := modEvrec (fun e => { e with hoursTicks := 0, hours := e.hours + 1 }) s
    match s.evrec.desc with
    | some d => if s.evrec.bService && d.tick ≠ 0 && s.evrec.hours % d.tick = 0 then record 0x0A02 engineTag [] s else s
    | none => s

/-! Start-up (R77, R352 to R360). -/

/-- Enter an event held in AON (R77). -/
def enterHeld (h : HeldEvent) (s : State) : State :=
  recordC h.code h.origin h.data h.valid h.time h.hours (h.raw && !s.evrec.settled) (recordB h.code h.origin h.data s)

/-- The 65 sectors of a dump slot. -/
def slotSectors (d : Descriptor) (k : Nat) : List Nat := (List.range 65).map fun i => dumpAddr d k + 4096 * i

/-- Rank of a slot's header: (CYCLES, HOURS), a torn slot below any header (R358). -/
def headerRank (f : Flash) (d : Descriptor) (k : Nat) : Nat × Nat :=
  let h := dumpHeader f d k
  if crcOk h 28 then (peekLe h 16 3 + 1, peekLe h 12 4) else (0, 0)

/-- The slot erased at start-up when neither is erased (R358). -/
def startErase (s : State) (d : Descriptor) : Option Nat :=
  if slotCode s 0 = 0 || slotCode s 1 = 0 then none
  else
    let a := headerRank s.evrec.flash d 0
    let b := headerRank s.evrec.flash d 1
    some (if a.1 < b.1 || (a.1 = b.1 && a.2 < b.2) then 0 else 1)

/-- The first erased record position of an incomplete slot, from i on. -/
def firstErased (f : Flash) (a : Nat) : Nat → Nat → Nat
  | 0, i => i
  | n + 1, i => if flashErased f (a + 4096 + 16 * i) 16 then i else firstErased f a n (i + 1)

/-- A dump resumes when its slot is incomplete and the ring holds its FREEZE record (R359). -/
def resumeDump (d : Descriptor) (s : State) (k : Nat) : State :=
  let h := dumpHeader s.evrec.flash d k
  let freeze := BitVec.ofNat 32 (peekLe h 8 4)
  if s.evrec.dump.isNone && slotCode s k = 2 && crcOk h 28 && (ringGet s.evrec freeze).isSome then
    modEvrec (fun e => { e with dump := some {
      slot := k, trigger := peekLe h 5 1, freeze, index := firstErased e.flash (dumpAddr d k) 16384 0, header := true
      hours := peekLe h 12 4, raw := false, valid := true, time := peekLe h 20 8 } }) s
  else s

/-- The recorder at L1: channel B in service, the descriptor read, a slot erased or a dump resumed, the held events entered
(R77, R358 to R360, R480). -/
def evrecStart (s : State) : State :=
  let s := modEvrec (fun e => { e with
    bService := true, flash := { e.flash with sizeLog2 := flashLog2 }, desc := readDescriptor e.flash, queue := [], failures := 0
    eraseQ := [], dump := none, flushed := none, cState := if (readDescriptor e.flash).isSome then 1 else 0 }) s
  let s := match s.evrec.desc with
    | none => settle none s
    | some d =>
      let s := match startErase s d with
        | some k => modEvrec (fun e => { e with eraseQ := slotSectors d k }) s
        | none => s
      resumeDump d (resumeDump d s 0) 1
  let held := s.sys.aonEvents
  let dropped := s.sys.aonDropped
  let s := modSys (fun y => { y with aonEvents := [], aonDropped := 0 }) s
  let s := held.foldl (fun s h => enterHeld h s) s
  if dropped = 0 then s else record 0x0B26 engineTag [(2, sat16 dropped)] s

/-- The recorder out of service: entries not programmed are lost, a dump is cut, what the flash had not begun is not done
(R359, log entry 26); its registers at their reset values until a scan finds others (Table 13.11). -/
def evrecStop (s : State) : State :=
  modEvrec (fun e => { e with
    bService := false, cState := 0, queue := [], eraseQ := [], dump := none, desc := none, flushed := none, cHead := 0
    flash := { e.flash with sizeLog2 := 0 } }) s

/-- The self-test of the recorder failed: channel C unconfigured, the recorder fenced, C_STATE 3 (R352). -/
def evrecFenced (s : State) : State :=
  settle none (modEvrec (fun e => { e with cState := 3, queue := [], desc := none, eraseQ := [], dump := none }) s)

/-- Loss of power to the flash cuts what is in progress (R364). -/
def flashCut (s : State) : State :=
  let s := match s.evrec.desc, s.evrec.queue with
    | some d, _ :: _ => if s.evrec.cState = 2 then flashSpoil (d.cBase + 32 * s.evrec.writePos) 32 s else s
    | _, _ => s
  let s := match s.evrec.eraseQ with
    | a :: _ => spoilSector a s
    | [] => s
  match s.evrec.dump, s.evrec.desc with
  | some d, some c => if d.index < 16384 then flashSpoil (dumpAddr c d.slot + 4096 + 16 * d.index) 256 s else s
  | _, _ => s

/-- Loss of the Store: the ring, the rates and the bucket levels return to their defaults, the open marks with them (R350,
R356, R363). -/
def evrecStoreLost (s : State) : State :=
  let s := modEvrec (fun e => { e with ring := [], bOld := [], rates := [], rateAll := (60, 16), buckets := [], global := (16 * tokenU, s.sys.aonTicks) }) s
  { s with tenants := s.tenants.map fun n => { n with openC := 0, openB := 0, markDue := false } }

/-- Loss of AON power: HOURS and CYCLES unsettled, channel B SEQs from 0, held events lost (R347, R348, R356). -/
def evrecAonLost (s : State) : State :=
  modSys (fun y => { y with aonEvents := [], aonDropped := 0 })
    (modEvrec (fun e => { e with
      hours := 0, hoursTicks := 0, cycles := 0, settled := false, bHead := 0, bOld := e.ring ++ e.bOld, ring := []
      supp := [], suppressed := 0, nvmErrors := 0 }) s)

/-! The commands of Table 13.8. -/

/-- Ranges [a, a+n) and [b, b+m) overlap. -/
def overlap (a n b m : Nat) : Bool := a < b + m && b < a + n

/-- The ranges of Note 1 of Table 13.8. -/
def badEvrecConfig (cBase cSize dumpBase : Word) (tick : Half) : Bool :=
  let c := cBase.toNat
  let n := cSize.toNat
  let d := dumpBase.toNat
  let dn := 2 * dumpSize
  let size := 2 ^ flashLog2
  c % 4096 ≠ 0 || n % 4096 ≠ 0 || d % 4096 ≠ 0 || n < 65536 || 67108864 < n || tick.toNat < 60 || 3600 < tick.toNat ||
  overlap c n d dn || overlap c n descAddr 4096 || overlap d dn descAddr 4096 || overlap c n 0 524288 || overlap d dn 0 524288 ||
  size < c + n || size < d + dn

/-- A dump or an EVREC_ERASE runs (Note 2 of Table 13.8). -/
def evrecBusy (s : State) : Bool := s.evrec.dump.isSome || eraseRuns s

/-- A class 2 command of the recorder whose flash work failed. -/
def evrecFailed (r : Req) (op a : Nat) (s : State) : State × Status × List Byte :=
  (record 0x0009 r.tenant [(2, op), (1, 0)] (nvmFailure a s), .internal, [])

/-- The unit answered that the work was done well. -/
def doneOk (got : List Byte) : Bool := nth got 0 ≠ 0

/-- EVREC_CONFIG (Note 1 of Table 13.8); channel C then runs from slot 0 of the erased region (log entry 27). -/
def evrecConfigM (r : Req) (cBase cSize dumpBase : Word) (tick : Half) : Meaning where
  checks := fun s => [(.locked, (readDescriptor s.evrec.flash).isSome), (.range, badEvrecConfig cBase cSize dumpBase tick),
    (.busy, evrecBusy s)]
  onRefuse := fun st s => if st = .locked then record 0x0005 r.tenant [(1, r.tenant), (2, 0x0A01), (4, cBase.toNat)] s else s
  effect := fun got s =>
    let d : Descriptor := { cBase := cBase.toNat, cSize := cSize.toNat, dumpBase := dumpBase.toNat, tick := tick.toNat }
    if doneOk got then
      let s := modFlash (fun f => flashClear d.cBase 8192 (flashClear d.dumpBase (2 * dumpSize) (flashClear descAddr 4096 f))) s
      let s := modEvrec (fun e => { e with
        flash := { e.flash with cells := flashPut descAddr (descBytes d) e.flash.cells }
        desc := some d, cState := 2, writePos := 0, skipSector := none, failures := 0 }) s
      (record 0x0A07 engineTag [(1, 3)] s, .ok, [])
    else evrecFailed r 0x0A01 descAddr (spoilSector descAddr s)

def execEvrecConfig (r : Req) (cBase cSize dumpBase : Word) (tick : Half) (s : State) : Out :=
  fin (submit (.evrecConfig r cBase cSize dumpBase tick) (evrecConfigM r cBase cSize dumpBase tick) s)

/-- A record is shown to a tenant (R362). -/
def visible (t : Nat) (mark : Word) (seq : Word) (origin : Nat) (ok : Bool) : Bool :=
  t = 0 || (origin = t && ok && (seq = mark || newer seq mark))

/-- Records in ascending SEQ from the oldest. -/
def sortSeq (l : List (Word × List Byte)) : List (Word × List Byte) :=
  l.mergeSort (fun a b => a.1 = b.1 || newer b.1 a.1)

/-- The bytes EVREC_READ returns for records with their SEQs or indexes, `older` telling which come before FROM. -/
def readOut (from_ : Nat) (max_ : Nat) (l : List (Nat × List Byte)) (gap : Nat → Bool) : List Byte :=
  let out := l.take max_
  let first := match out with
    | x :: _ => x.1
    | [] => from_
  le 4 first ++ le 1 out.length ++ le 1 (bit (decide (max_ < l.length)) + 2 * bit (out ≠ [] && gap first)) ++ le 2 0 ++
    out.flatMap fun x => x.2

/-- The records of channel C or B visible to a tenant from FROM on. -/
def channelRecords (s : State) (t : Nat) (ch : Nat) (from_ : Word) : List (Nat × List Byte) :=
  let n := s.tenant t
  let l := if ch = 0 then
      (match s.evrec.desc with
       | some d => ((cRecords s.evrec.flash d).filter fun x =>
          (t = 0 || !n.markDue) && visible t n.openC (recSeq x.2) (peekLe x.2 6 1 % 32) (crcOk x.2 28)).map fun x => (recSeq x.2, x.2)
       | none => [])
    else (s.evrec.ring.filter fun x => visible t n.openB x.seq x.origin true).map fun x => (x.seq, bBytes x)
  ((sortSeq l).filter fun x => !newer from_ x.1).map fun x => (x.1.toNat, x.2)

/-- The records of a dump slot from an index on, empty ones skipped. -/
def dumpedRecords (s : State) (k from_ : Nat) : List (Nat × List Byte) :=
  match s.evrec.desc with
  | some d =>
    let a := dumpAddr d k + 4096
    let idx := dedupe (((s.evrec.flash.cells.filter fun c => a ≤ c.1 && c.1 < a + 262144).map fun c => (c.1 - a) / 16))
    (idx.filter fun i => from_ ≤ i).map fun i => (i, flashBytes s.evrec.flash (a + 16 * i) 16)
  | none => []

def evrecReadM (r : Req) (channel max_ : Byte) (from_ : Word) : Meaning where
  authority := fun _ => !((channel = 2 || channel = 3) && r.tenant ≠ 0)
  checks := fun _ => [(.range, 3 < channel.toNat || max_ = 0 || decide ((if channel = 0 then 30 else 61) < max_.toNat))]
  effect := fun _ s =>
    let size := if channel = 0 then 32 else 16
    let m := if r.origin.isSome then min max_.toNat (224 / size) else max_.toNat
    if channel.toNat < 2 then
      (s, .ok, readOut from_.toNat m (channelRecords s r.tenant channel.toNat from_) (fun f => newer (BitVec.ofNat 32 f) from_))
    else (s, .ok, readOut from_.toNat m (dumpedRecords s (channel.toNat - 2) from_.toNat) (fun f => decide (from_.toNat < f)))

def execEvrecRead (r : Req) (channel max_ : Byte) (from_ : Word) (s : State) : Out :=
  fin (submit (.evrecRead r channel max_ from_) (evrecReadM r channel max_ from_) s)

def evrecStatusM : Meaning where
  effect := fun _ s =>
    let e := s.evrec
    (s, .ok, le 1 e.cState ++ le 1 (dumpBits s) ++ le 2 e.queue.length ++ leBits 4 e.cHead ++ leBits 4 (cTail e) ++
      leBits 4 e.bHead ++ leBits 4 (bTail e) ++ le 4 (hoursNow s) ++ le 4 e.cycles ++ leBits 4 e.suppressed ++
      leBits 4 e.nvmErrors ++ le 4 (slotFreeze s 0) ++ le 4 (slotFreeze s 1) ++ le 4 0)

def execEvrecStatus (r : Req) (s : State) : Out := fin (submit (.evrecStatus r) evrecStatusM s)

/-- The event codes of the manual that are not exempt. -/
def eventCodes : List Nat := 
  [0x0001, 0x0002, 0x0003, 0x0004, 0x0005, 0x0006, 0x0007, 0x0008, 0x0009, 0x000A, 0x0010, 0x0011, 0x0012, 0x0013, 0x0014] ++
  [0x0101, 0x0102, 0x0103, 0x0104, 0x0105, 0x0106] ++
  [0x0201, 0x0202, 0x0203, 0x0204, 0x0205, 0x0206, 0x0210, 0x0211, 0x0212, 0x0220] ++
  [0x0301, 0x0303, 0x0304, 0x0305, 0x0306] ++
  [0x0401, 0x0402, 0x0403, 0x0404, 0x0405, 0x0406, 0x0407, 0x0408, 0x0409, 0x040A] ++
  [0x0501, 0x0502, 0x0503, 0x0504, 0x0505, 0x0506, 0x0507] ++
  [0x0601, 0x0602, 0x0604, 0x0605] ++
  [0x0701, 0x0703, 0x0704] ++
  [0x0801, 0x0802, 0x0803, 0x0804, 0x0805] ++
  [0x0901, 0x0902, 0x0903, 0x0904, 0x0905] ++
  [0x0B01, 0x0B02, 0x0B03, 0x0B20, 0x0B21, 0x0B22, 0x0B23, 0x0B24, 0x0B25, 0x0B26] ++
  [0x0C01, 0x0C02, 0x0C03, 0x0C04, 0x0C05, 0x0C07, 0x0C08, 0x0C09, 0x0C0A, 0x0C0B] ++
  [0x0E01, 0x0E02, 0x0E03, 0x0E04, 0x0E05]

/-- Refill a code's bucket at its old rate and clamp it to a new burst (R350). -/
def clampBucket (burst : Nat) (s : State) (code : Nat) : State := setBucket code (min (bucketNow s code) (burst * tokenU)) s

def evrecRateM (code rate : Half) (burst : Byte) : Meaning where
  checks := fun _ => [(.range, (code ≠ 0xFFFF && !eventCodes.contains code.toNat) || decide (6000 < rate.toNat) || burst = 0)]
  effect := fun _ s =>
    if code = 0xFFFF then
      (modEvrec (fun e => { e with rates := [], rateAll := (rate.toNat, burst.toNat) })
        (eventCodes.foldl (clampBucket burst.toNat) s), .ok, [])
    else
      (modEvrec (fun e => { e with rates := (code.toNat, rate.toNat, burst.toNat) :: e.rates.filter (fun x => x.1 ≠ code.toNat) })
        (clampBucket burst.toNat s code.toNat), .ok, [])

def execEvrecRate (r : Req) (code rate : Half) (burst : Byte) (s : State) : Out :=
  fin (submit (.evrecRate r code rate burst) (evrecRateM code rate burst) s)

/-- EVREC_FLUSH: the dump starts when the command begins to run, and it ends with the dump (R357, R358). -/
def evrecFlushM : Meaning where
  checks := fun s => [(.busy, evrecBusy s), (.noResource, (freeSlot s).isNone)]
  onRefuse := fun st s => if st = .noResource && s.evrec.desc.isSome then record 0x0A05 engineTag [(1, 0), (1, 0)] s else s
  start := fun s => startDump 0 true (modEvrec (fun e => { e with flushed := none }) s)
  ready := fun s => match s.evrec.dump with
    | some d => !d.flush
    | none => true
  effect := fun _ s =>
    match s.evrec.flushed with
    | some (f, c, k) => (modEvrec (fun e => { e with flushed := none }) s, .ok, le 4 f ++ le 4 c ++ le 1 k ++ le 3 0)
    | none => (s, .noResource, [])

def execEvrecFlush (r : Req) (s : State) : Out := fin (submit (.evrecFlush r) evrecFlushM s)

/-- EVREC_ERASE: everything makes channel C unconfigured as it begins (R353). -/
def evrecEraseM (r : Req) (target : Byte) : Meaning where
  checks := fun s => [(.range, 2 < target.toNat), (.busy, evrecBusy s)]
  start := fun s => if target = 2 then modEvrec (fun e => { e with cState := 0, queue := [], eraseQ := [] }) s else s
  effect := fun got s =>
    let d := s.evrec.desc
    let s := if target = 2 then modEvrec (fun e => { e with desc := none }) s else s
    if doneOk got then
      let s := match d with
        | some d =>
          if target = 2 then
            modFlash (fun f => flashClear d.cBase d.cSize (flashClear d.dumpBase (2 * dumpSize) (flashClear descAddr 4096 f))) s
          else modFlash (flashClear (dumpAddr d target.toNat) dumpSize) s
        | none => if target = 2 then modFlash (flashClear descAddr 4096) s else s
      (record 0x0A07 engineTag [(1, target.toNat)] s, .ok, [])
    else
      let a := match d with
        | some d => if target = 2 then descAddr else dumpAddr d target.toNat
        | none => descAddr
      evrecFailed r 0x0A06 a (spoilSector a s)

def execEvrecErase (r : Req) (target : Byte) (s : State) : Out :=
  fin (submit (.evrecErase r target) (evrecEraseM r target) s)

end Sys2Proof.Machine
end

