-- ==== Sys2Proof/Machine/System.lean ====
section
/-! DEFINITION. The commands of group 0x00 of 04 that reach into no other chapter: SYS_INFO, TENANT_OPEN, GRANT, the group
commands, and the fuse commands (R110 to R113, R415, R416). -/

namespace Sys2Proof.Machine

/-! SYS_INFO. -/

/-- Bit t of OPEN: Tt is open. -/
def openBits (s : State) : Nat := ((List.range 16).map fun t => if (s.tenant t).st = .open then 2 ^ t else 0).sum

/-- NODE: the fabric address, 0xFFFF when not enumerated. -/
def nodeAddr (s : State) : Nat := if s.plink.rooted then s.plink.addr else 0xFFFF

def sysInfoM (r : Req) : Meaning where
  effect := fun _ s => (s, .ok, le 2 0x7416 ++ leBits 1 Config.revision ++ le 1 (levelOf s) ++ leBits 4 s.sys.fwVersion ++
    le 4 s.sys.fenced.toNat ++ le 1 r.tenant ++ le 1 (ownerOf s 0x08 0) ++ le 2 (nodeAddr s) ++ le 2 (openBits s) ++
    le 1 (rollbackCount (shadowOf s 8)) ++ le 1 s.wdog.count ++ le 2 s.sys.coreMhz ++ le 6 0)

def execSysInfo (r : Req) (s : State) : Out := fin (submit (.sysInfo r) (sysInfoM r) s)

/-! TENANT_OPEN and GRANT. -/

/-- A tenant opened (R113): its key drawn, its Eyelet at reset values, the open marks of R362 set. -/
def openTenant (t : Nat) (transports : Byte) (s : State) : State :=
  let s := drawKey t s
  let fresh : Tenant := {
    st := .open, transports := BitVec.ofNat 4 transports.toNat, openC := s.evrec.cHead, openB := s.evrec.bHead, markDue := s.evrec.cState = 1 }
  record 0x0001 t [(1, t), (1, transports.toNat)] (modTenant t (fun _ => fresh) s)

def tenantOpenM (tenant transports : Byte) : Meaning where
  checks := fun s => [(.range, transports = 0 || 16 ≤ transports.toNat), (.busy, (s.tenant tenant.toNat).st ≠ .closed)]
  effect := fun _ s => (openTenant tenant.toNat transports s, .ok, [])

def execTenantOpen (r : Req) (tenant transports : Byte) (s : State) : Out :=
  fin (submit (.tenantOpen r tenant transports) (tenantOpenM tenant transports) s)

/-- TYPE, FIRST and COUNT of GRANT and REVOKE (Table 4.10, R131). -/
def badUnits (ty : Byte) (first count : Half) : Bool :=
  unitCount ty.toNat = 0 || count = 0 || 2048 < count.toNat ||
    (if ty = 5 then 232 else unitCount ty.toNat) < first.toNat + count.toNat

/-- The units of a range. -/
def unitList (first count : Half) : List Nat := (List.range count.toNat).map fun i => first.toNat + i

/-- The units moved from Root to a tenant (R81). -/
def grantUnits (ty t : Nat) (us : List Nat) (s : State) : State := us.foldl (fun s u => setOwner ty u t s) s

def grantM (tenant type : Byte) (first count : Half) : Meaning where
  checks := fun s => [
    (.range, badUnits type first count || (s.tenant tenant.toNat).st ≠ .open),
    (.noResource, (unitList first count).any fun u => ownerOf s type.toNat u ≠ 0)]
  effect := fun _ s =>
    (record 0x0003 tenant.toNat [(1, tenant.toNat), (1, type.toNat), (2, first.toNat), (2, count.toNat)]
      (grantUnits type.toNat tenant.toNat (unitList first count) s), .ok, [])

def execGrant (r : Req) (tenant type : Byte) (first count : Half) (s : State) : Out :=
  fin (submit (.grant r tenant type first count) (grantM tenant type first count) s)

/-! Commit groups (R106 to R108). -/

/-- The longest run of commands from the front whose entries, beside those taken, total 4,096 or fewer, and the rest (R107). -/
def takeEpoch : Nat → List Staged → List Staged × List Staged
  | _, [] => ([], [])
  | taken, x :: l =>
    if taken ≠ 0 && 4096 < taken + x.entries then ([], x :: l)
    else
      let (a, b) := takeEpoch (taken + x.entries) l
      (x :: a, b)

/-- The number of epochs of a list of commands. -/
def countEpochs : Nat → List Staged → Nat
  | 0, _ => 0
  | _, [] => 0
  | k + 1, l => 1 + countEpochs k (takeEpoch 0 l).2

/-- The group marked as committing, with the counts of Table 4.11. -/
def commitMark (g : Group) : Group :=
  { g with
    committing := true, epoch := 0, commands := g.staged.length, entries := (g.staged.map fun x => x.entries).sum
    epochs := countEpochs g.staged.length g.staged
    split := match (takeEpoch 0 g.staged).2 with
      | x :: _ => x.gseq
      | [] => 0 }

/-- The results of GROUP_COMMIT (Table 4.11). -/
def commitResults (g : Group) : List Byte :=
  le 2 g.epochs ++ le 2 g.split ++ le 2 g.commands ++ le 2 0 ++ le 4 g.entries

/-- A change of one group of a tenant. -/
def modGroup (t num : Nat) (f : Group → Group) (s : State) : State :=
  modTenant t (fun n => { n with groups := n.groups.map fun g => if g.num = num then f g else g }) s

/-- A group closed, its number free again. -/
def dropGroup (t num : Nat) (s : State) : State :=
  modTenant t (fun n => { n with groups := n.groups.filter fun g => g.num ≠ num }) s

/-- GROUP_COMMIT: the group commits from acceptance; its epochs are applied at Mirror swaps. -/
def groupCommitM (r : Req) : Meaning where
  onAccept := fun s =>
    let s := modGroup r.tenant r.group.toNat commitMark s
    match groupOf (s.tenant r.tenant) r.group.toNat with
    | some g => (s, if 1 < g.epochs then .split else .pending, commitResults g)
    | none => (s, .pending, [])
  effect := fun _ s =>
    match groupOf (s.tenant r.tenant) r.group.toNat with
    | some g => (dropGroup r.tenant r.group.toNat s, .ok, commitResults g)
    | none => (s, .groupUnknown, [])

def execGroupCommit (r : Req) (s : State) : Out := fin (submit (.groupCommit r) (groupCommitM r) s)

/-- The entries of a group not yet applied. -/
def groupEntries (g : Group) : Nat := (g.staged.map fun x => x.entries).sum

def groupAbortM (r : Req) : Meaning where
  effect := fun _ s =>
    match groupOf (s.tenant r.tenant) r.group.toNat with
    | some g => (dropGroup r.tenant r.group.toNat s, .ok, le 4 (groupEntries g))
    | none => (s, .groupUnknown, [])

def execGroupAbort (r : Req) (s : State) : Out := fin (submit (.groupAbort r) (groupAbortM r) s)

/-- GROUP_STATUS: COMMANDS and ENTRIES are those staged, and while the group commits those at its commit. -/
def groupStatusM (r : Req) : Meaning where
  effect := fun _ s =>
    match groupOf (s.tenant r.tenant) r.group.toNat with
    | some g => (s, .ok, le 2 (if g.committing then g.commands else g.staged.length) ++ le 1 (bit g.committing) ++
        leSat 1 g.epoch ++ le 4 (if g.committing then g.entries else groupEntries g))
    | none => (s, .groupUnknown, [])

def execGroupStatus (r : Req) (s : State) : Out := fin (submit (.groupStatus r) (groupStatusM r) s)

/-! Fuses (R110, R111, R415, R416). -/

/-- Width, write-once, counter and concealed of a fuse field (Table 16.4); none for other numbers. -/
def fuseKind : Nat → Option (Nat × Bool × Bool × Bool)
  | 0x01 => some (1, true, false, false)
  | 0x02 => some (1, true, false, false)
  | 0x03 => some (3, true, false, false)
  | 0x04 => some (2, true, false, false)
  | 0x05 => some (1, true, false, false)
  | 0x06 => some (256, true, false, false)
  | 0x07 => some (1, true, false, false)
  | 0x08 => some (64, false, true, false)
  | 0x10 => some (256, true, false, false)
  | 0x11 => some (64, true, false, false)
  | 0x12 => some (256, true, false, false)
  | 0x13 => some (256, true, false, false)
  | 0x14 => some (16, true, false, false)
  | 0x15 => some (256, true, false, false)
  | 0x16 => some (16, true, false, false)
  | 0x1F => some (256, true, false, true)
  | _ => none

/-- A field of the fuse array. -/
def fuseOf (s : State) (f : Nat) : Fuse := (s.sys.fuses.find? (fun x => x.field = f)).getD { field := f }

/-- The PROGRAMMED flag: the marker, or for the counter any bit set (log entry 24). -/
def fuseProgrammed (f : Fuse) : Bool := f.programmed || (f.field = 8 && f.value ≠ 0)

def fuseReadM (field : Half) : Meaning where
  checks := fun _ => [(.range, (fuseKind field.toNat).isNone)]
  effect := fun _ s =>
    let f := fuseOf s field.toNat
    match fuseKind field.toNat with
    | some (w, once, ctr, hidden) =>
      (s, .ok, le 2 w ++ le 1 (bit (fuseProgrammed f) + 2 * bit once + 4 * bit ctr + 8 * bit hidden) ++ le 1 0 ++
        le 32 (if hidden then 0 else f.value.toNat))
    | none => (s, .range, [])

def execFuseRead (r : Req) (field : Half) (s : State) : Out := fin (submit (.fuseRead r field) (fuseReadM field) s)

/-- All bits of a counter field are set. -/
def counterFull (w : Nat) (f : Fuse) : Bool := f.value.toNat % 2 ^ w = 2 ^ w - 1

/-- What FUSE_PROGRAM asks the array to hold (R110). -/
def fuseRequest (ctr : Bool) (f : Fuse) (value : BitVec 256) : BitVec 256 := if ctr then f.value ||| value else value

/-- Put a value read back into the array; a write-once field keeps its marker (R110, R111). -/
def burn (field : Nat) (once : Bool) (v : BitVec 256) (s : State) : State :=
  modSys (fun y => { y with fuses := y.fuses.map fun x =>
    if x.field = field then { x with value := v, programmed := x.programmed || once } else x }) s

/-- FUSE_PROGRAM: the bytes given to its effect are what the array reads back after burning. -/
def fuseProgramM (r : Req) (field : Half) (value : BitVec 256) : Meaning where
  checks := fun s =>
    match fuseKind field.toNat with
    | some (w, once, ctr, _) =>
      [(.locked, (once && (fuseOf s field.toNat).programmed) || (ctr && counterFull w (fuseOf s field.toNat))),
       (.range, decide (2 ^ w ≤ value.toNat))]
    | none => [(.range, true)]
  onRefuse := fun st s => if st = .locked then record 0x0006 r.tenant [(2, field.toNat)] s else s
  effect := fun got s =>
    match fuseKind field.toNat with
    | some (w, once, ctr, _) =>
      let want := fuseRequest ctr (fuseOf s field.toNat) value
      let read := BitVec.ofNat 256 (unle (got.drop 1) % 2 ^ w)
      let s := burn field.toNat once read s
      if read = want then (s, .ok, [])
      else
        (record 0x0009 r.tenant [(2, 0x0031), (1, 1)]
          (record 0x0007 r.tenant [(2, field.toNat), (4, want.toNat), (4, read.toNat)] s), .internal, [])
    | none => (s, .range, [])

def execFuseProgram (r : Req) (field : Half) (value : BitVec 256) (s : State) : Out :=
  fin (submit (.fuseProgram r field value) (fuseProgramM r field value) s)

/-! Firmware staging (R114, Note 1 of Table 5.4). -/

/-- FW_WRITE stages image bytes in pages 240 to 243. -/
def fwWriteM (offset : Word) (data : List Byte) : Meaning where
  checks := fun _ => [(.range, data.length < 4 || 984 < data.length || offset.toNat % 4 ≠ 0 ||
    decide (262128 < offset.toNat + data.length))]
  effect := fun _ s => (storePoke (240 * pageSize + offset.toNat) data s, .ok, [])

def execFwWrite (r : Req) (offset : Word) (data : List Byte) (s : State) : Out :=
  fin (submit (.fwWrite r offset data) (fwWriteM offset data) s)

end Sys2Proof.Machine
end

