-- ==== Sys2Proof/Machine/Firmware.lean ====
section
/-! DEFINITION. The Damrath image (16): its header, the checks of R418, and the firmware area of the flash (R417, R420). -/

namespace Sys2Proof.Machine

/-- The staged image (R114): the first bytes of the staging pages 240 to 243. -/
def stagedImage (s : State) (size : Nat) : List Byte := storeBytes s (240 * pageSize) size

/-- The bytes of a fuse field, bit 0 of the field in bit 0 of the first byte (Table 4.10). -/
def fuseBytes (v : BitVec 256) : List Byte := le 32 v.toNat

/-- The first of checks 1 to 4 of R418 that an image fails; 0 when it passes them. -/
def imageCheck (s : State) (img : List Byte) : Nat :=
  let size := peekLe img 12 4
  if peekLe img 0 4 ≠ 0x4D524144 || size = 0 || 261616 < size then 1
  else if sha256 (slice img 56 64) ≠ fuseBytes (BitVec.ofNat 256 (shadowOf s 0x10)) then 2
  else if !ecdsaOk (img.take 120) (beNat (slice img 56 32)) (beNat (slice img 88 32)) (beNat (slice img 120 32)) (beNat (slice img 152 32)) then 3
  else if sha256 ((img.drop 512).take size) ≠ slice img 24 32 then 4 else 0

/-- The image of a slot as the boot ROM finds it. -/
def imageSlot (img : List Byte) (seq : Word) : FwSlot where
  seq := seq
  version := BitVec.ofNat 32 (peekLe img 4 4)
  rollback := peekLe img 8 1
  size := BitVec.ofNat 32 (peekLe img 12 4)
  failing := 0

/-- Check 5 against the count of the fuse array (R420). -/
def rollbackOk (s : State) (img : List Byte) : Bool := rollbackCount (fuseOf s 8).value.toNat ≤ peekLe img 8 1

/-- Why FW_COMMIT refuses a staged image: its SIZE (Table 4.10), the checks of R418 (R114, R420); S_OK when it does not. -/
def commitFault (s : State) (size : Nat) : Status :=
  let img := stagedImage s size
  if size ≠ 512 + peekLe img 12 4 then .range
  else if imageCheck s img ≠ 0 then .denied
  else if !rollbackOk s img then .locked else .ok

/-- The slot that did not boot, set: its image or empty, with its bytes in the flash (R417, R420). -/
def setOtherSlot (x : Option FwSlot) (bytes : List Byte) (s : State) : State :=
  let b := !s.sys.slotB
  let base := if b then 0x40000 else 0
  let s := modSys (fun y => if b then { y with imageB := x } else { y with imageA := x }) s
  modEvrec (fun e =>
    let f := flashClear base 0x40000 e.flash
    let f := { f with cells := flashPut base bytes f.cells }
    match x with
    | some i =>
      let rec_ := withCrc (leBits 4 i.seq ++ leBits 4 i.size ++ le 4 0)
      { e with flash := { f with cells := flashPut (base + 0x3FFF0) rec_ f.cells } }
    | none => { e with flash := f }) s

/-- A running FW_COMMIT that a reset or a loss of power cuts leaves the slot empty (R420, R430). -/
def cutCommit (s : State) : State :=
  match (s.tenant 0).class2 with
  | c :: _ => (match c.cmd with
    | .fwCommit _ size => if !s.sys.hostBoot && commitFault s size.toNat = .ok then setOtherSlot none [] s else s
    | _ => s)
  | [] => s

end Sys2Proof.Machine
end

