-- ==== Sys2Proof/Machine/Edges.lean ====
section
/-! DEFINITION. Edges of the time pins (07): launch times, pulses, reports, gates, and the grid of an FSG. -/

namespace Sys2Proof.Machine

/-- Elapsed TIME of the block in 0.25 ns: 8 per TIME cycle (R202). -/
def elapsedQ (s : State) : Nat := 8 * s.last.cycles

/-- The bound of R24, 1,000 ppm in units of 2^-40. -/
def rateBound : Int := 1099511627

/-- The share of a slew in one TIME cycle (R50): SLEW·10^-9·2 ns. -/
def slewShare (ppb : Nat) : Time := (ppb * (6 * 2 ^ 39) : Nat)

/-- What a slew adds in each TIME cycle: its share, within SLEW_MAX and within the bound of R24 (R36). -/
def slewExtra (l : Last) (w : Slew) : Time :=
  let share := slewShare (min w.ppb l.cfg.slewMax)
  let base : Time := l.rateEff * 3000000000
  clampInt (-(rateBound * 3000000000)) (rateBound * 3000000000) (base + if 0 ≤ w.left then share else -share) - base

/-- What n cycles of a slew move: whole shares, and in its last cycle the remainder (R50). -/
def slewMoved (l : Last) (n : Nat) : Time :=
  match l.slew with
  | some w =>
    let full := slewExtra l w * n
    if w.left.natAbs ≤ full.natAbs then w.left else full
  | none => 0

/-- rate_eff as it is reported: with the share of a slew in progress, in whole units of 2^-40 (log entry 35). -/
def rateNow (l : Last) : Int :=
  match l.slew with
  | some w => l.rateEff + roundAway (slewExtra l w) 3000000000
  | none => l.rateEff

/-- The time at which the next TIME cycle begins. -/
def cycleEnd (s : State) : Time := s.now + stepUnits s.last.rateEff + slewMoved s.last 1

/-- User delay of a time pin in ps, as a calibration gives it. -/
def traceOf (c : Calib) (p : Nat) : Int := nth c.trace p

/-- t_launch of an action at time t of pin p under a calibration, in whole 0.25 ns (R40, R41). -/
def launchUnder (c : Calib) (p : Nat) (t : Time) : Int := quarterOf (t - ofPs (Config.padOut p + traceOf c p))

/-- A launch position under the calibration in force for it: that before the first CAL_SET within 1 us of which it lies (R44). -/
def launchBy (s : State) (f : Calib → Int) : Int :=
  match s.last.calOld.find? fun x => ofQuarter (f x.1) ≤ x.2 with
  | some x => f x.1
  | none => f s.last.cal

/-- t_launch of an action at time t of pin p (R40, R41, R44). -/
def launchOf (s : State) (p : Nat) (t : Time) : Int := launchBy s fun c => launchUnder c p t

/-- The time at the reference plane of an edge that leaves pin p's delay line now (R40). -/
def planeOf (s : State) (p : Nat) (t : Time) : Time := t + ofPs (Config.padOut p + traceOf s.last.cal p)

/-- A launch position falls before the end of the present TIME cycle. -/
def dueNow (s : State) (q : Int) : Bool := ofQuarter q < cycleEnd s

/-- The elapsed position of a launch position, not before the present cycle. -/
def elapsedAt (s : State) (q : Int) : Nat := elapsedQ s + (q - quarterOf s.now).toNat

/-- t_cap of an edge of pin p sampled in this cycle with a tap code, in whole 0.25 ns (R40, R41). -/
def captureOf (s : State) (p tap : Nat) : Int :=
  quarterOf (s.now + ofPs (Config.tapMap tap - Config.padIn p - traceOf s.last.cal p))

/-- Enter a report, or count it lost with event 0x0301 when the queue of 16 is full (R180). -/
def report (p : Nat) (x : PinReport) (s : State) : State :=
  if (s.pin p).reports.length < 16 then modPin p (fun n => { n with reports := n.reports ++ [x] }) s
  else record 0x0301 (ownerOf s 0x06 p) [(1, p), (2, sat16 ((s.pin p).lost + 1).toNat)] (modPin p (fun n => { n with lost := n.lost + 1 }) s)

/-- The level of an output pin whose output is active or not (R173). -/
def pinLevel (n : Pin) (active : Bool) : Bool := active ^^ n.invert

/-- Drive an output pin active or inactive at an elapsed position. -/
def drive (p : Nat) (active : Bool) (at_ : Nat) (s : State) : State :=
  modPin p (fun n => { n with active, level := pinLevel n active, lastEdge := some at_ }) s

/-- Start a pulse of `width` at an elapsed position; it ends WIDTH of elapsed time later (R202). -/
def startPulse (p width at_ : Nat) (s : State) : State :=
  modPin p (fun n => { n with falls := n.falls ++ [at_ + width] }) (drive p true at_ s)

/-- The first position from `at_` on that lies at least 4.0 ns after the pin's previous edge (R53, R175). -/
def edgePos (n : Pin) (at_ : Nat) : Nat :=
  match n.lastEdge with
  | some e => max at_ (e + 16)
  | none => at_

/-- An elapsed position lies before the end of the present TIME cycle. -/
def inCycle (s : State) (at_ : Nat) : Bool := at_ < elapsedQ s + 8

/-- The time of an elapsed position, in whole 0.25 ns. -/
def timeAt (s : State) (at_ : Nat) : Time := ofQuarter (quarterOf s.now + (at_ : Int) - (elapsedQ s : Int))

/-- A pin is within its pulse or within 4.0 ns after its previous edge, at an elapsed position (R175, R479). -/
def tooNear (n : Pin) (at_ : Nat) : Bool :=
  n.falls ≠ [] || (match n.lastEdge with | some e => at_ < e + 16 | none => false)

/-- VALID_ONLY holds a pin back while VALID is 0 (R177). -/
def heldBack (s : State) (n : Pin) : Bool := n.validOnly && !s.last.valid

/-- The least integer k with num·k ≥ a, for num > 0. -/
def ceilDiv (a : Int) (num : Int) : Int := -((-a) / num)

/-- The first grid time OFFSET + k·PERIOD at or after t (R176). -/
def gridFrom (offset period : Nat) (t : Time) : Time :=
  let o := ofFrac offset
  let d := ofFrac period
  if d ≤ 0 then t else o + ceilDiv (t - o) d * d

/-- The period of a PERIODIC or PPS pin in 2^-16 ns. -/
def pinPeriod (n : Pin) : Nat := if n.mode = 4 then 65536 * 1000000000 else n.period

/-- 1 s in 0.25 ns. -/
def quarterPerS : Nat := 4000000000

/-- Frame start k of an FSG, PHASE + k·DEN/NUM s, in whole 0.25 ns, rounded once (R191, R41). -/
def fsgStart (c : FsgSet) (k : Int) : Int := roundEarly (c.phase * c.num + k * (c.den * quarterPerS : Nat)) c.num

/-- t_launch of frame start k at pin p: the exact start less the pin's delays, rounded once (R40, R41, R44, R191). -/
def fsgLaunch (s : State) (c : FsgSet) (k : Int) (p : Nat) : Int :=
  launchBy s fun cal =>
    roundEarly ((c.phase * c.num + k * (c.den * quarterPerS : Nat)) * 250 - (Config.padOut p + traceOf cal p) * c.num) (c.num * 250)

/-- The first k whose exact frame start lies at or after t. -/
def fsgFrom (c : FsgSet) (t : Time) : Int :=
  ceilDiv ((t - ofQuarter c.phase) * c.num) (ofQuarter (c.den * quarterPerS : Nat))

/-- The exact start of frame k is at or after t. -/
def fsgAtOrAfter (c : FsgSet) (k : Int) (t : Time) : Bool := fsgFrom c t ≤ k

/-- The exact distance from start k of one grid to start j of another, in 0.25 ns, is at least m. -/
def fsgGapAtLeast (a : FsgSet) (k : Int) (b : FsgSet) (j : Int) (m : Nat) : Bool :=
  m * (a.num * b.num : Nat) ≤
    (b.phase * b.num + j * (b.den * quarterPerS : Nat)) * a.num - (a.phase * a.num + k * (a.den * quarterPerS : Nat)) * b.num

/-- The first start of grid b later than start k of grid a (R200). -/
def fsgAfter (a : FsgSet) (k : Int) (b : FsgSet) : Int :=
  let e := a.phase * a.num + k * (a.den * quarterPerS : Nat)
  (e * b.num - b.phase * b.num * a.num) / ((b.den * quarterPerS * a.num : Nat) : Int) + 1

/-- A boundary of a window placed as a launched edge (R190, R41). -/
def placed (t : Time) : Time := ofQuarter (quarterOf t)

/-- The windows of a gate near time t: each with its number, its opening and its closing (R189, R190). Those of an FSG belong to the
frame in progress and to the one before it. -/
def windowsNear (s : State) (x : Path) (t : Time) : List (Int × Time × Time) :=
  match x.base with
  | 2 =>
    let k := if x.period = 0 then 0 else (t - ofFrac x.openAt) / ofFrac x.period
    [k - 1, k, k + 1].map fun j =>
      (j, placed (ofFrac x.openAt + j * ofFrac x.period), placed (ofFrac x.openAt + j * ofFrac x.period + ofFrac x.length))
  | 3 => (s.fsg x.fsg).starts.map fun f =>
      ((f.1 : Int), placed (f.2 + ofFrac x.openAt), placed (f.2 + ofFrac x.openAt + ofFrac x.length))
  | _ => []

/-- A time lies within 0.5 ns of a boundary. -/
def nearBy (a b : Time) : Bool := decide (-(ofNs 1) < 2 * (a - b)) && decide (2 * (a - b) < ofNs 1)

/-- The gate of a path at time t: whether it is open, whether t lies within 0.5 ns of a boundary, and the number of the window t lies
in or near. Closed and open gates have no boundary; all the time of an open gate is one window (R189, R190, log entry 70). -/
def gateAt (s : State) (x : Path) (t : Time) : Bool × Bool × Int :=
  if x.base = 1 then (true, false, 0)
  else
    let ws := windowsNear s x t
    let inside := ws.find? fun w => decide (w.2.1 ≤ t) && decide (t < w.2.2)
    match ws.find? (fun w => nearBy t w.2.1 || nearBy t w.2.2), inside with
    | some w, some i => (true, true, if nearBy t i.2.1 || nearBy t i.2.2 then i.1 else w.1)
    | some w, none => (false, true, w.1)
    | none, some i => (true, false, i.1)
    | none, none => (false, false, 0)

/-! Boundaries that the state names, when G passes the end of its range (R38, R245). -/

/-- The boundaries of a rate, or the edges of an MCG's frequency, in 1/300 s. -/
def perSpan (fs : Nat) : Int := (fs / 300 : Nat)

/-- A stream's boundaries, all later by q spans of 1/300 s in their numbering. -/
def renumberStream (s : State) (q : Int) (x : Stream) : Stream :=
  let n := q * (match x.cfg with
    | some (.aaf c) => perSpan (nsrRate c.nsr.toNat)
    | some (.crf c) => perSpan (mcgHz (s.mcg c.mcg.toNat).mult (s.mcg c.mcg.toNat).family)
    | none => 0)
  { x with
    next := x.next.map (· + n), buf := x.buf.map fun y => (y.1 + n, y.2), firstB := x.firstB + n
    startB := x.startB.map (· + n), stopB := x.stopB.map (· + n) }

/-- Samples by slot and boundary, all boundaries later by n. -/
def renumberSlots (n : Int) (l : List (Nat × List (Int × Word))) : List (Nat × List (Int × Word)) :=
  l.map fun y => (y.1, y.2.map fun z => (z.1 + n, z.2))

/-- An audio port's boundary. -/
def renumberAport (q : Int) (x : Aport) : Aport := { x with frameB := x.frameB.map (· + q * perSpan (fsOf x.family x.rate)) }

/-- A Prieth port's boundaries. -/
def renumberPl (q : Int) (x : PlPort) : PlPort :=
  let shift := fun (code : Nat) => (plFs code).elim 0 fun fs => q * perSpan fs
  { x with rx := renumberSlots (shift x.rateRx) x.rx, txBuf := renumberSlots (shift x.rateTx) x.txBuf }

/-- A Lens core's output boundaries. -/
def renumberLens (q : Int) (c : LensCore) : LensCore :=
  let n := q * perSpan (fsOf c.family c.rate)
  { c with
    run := c.run.map fun r => { r with out := r.out + n }
    slots := c.slots.map fun x => { x with
      outq := x.outq.map fun y => (y.1 + n, y.2), fadeAt := x.fadeAt.map (· + n), rampAt := x.rampAt.map (· + n) } }

/-- Every boundary that the state names, renumbered: G passed the end of its range q times. -/
def renumber (q : Int) (s : State) : State :=
  if q = 0 then s
  else { s with
    eth := { s.eth with talkers := s.eth.talkers.map (renumberStream s q), listeners := s.eth.listeners.map (renumberStream s q) }
    plink := { s.plink with ports := s.plink.ports.map (renumberPl q) }
    audio := { s.audio with ports := s.audio.ports.map (renumberAport q) }
    lens := s.lens.map (renumberLens q) }

/-- The pins late after a step to `new` (R53, R201, R202): a SINGLE pin drops or keeps its late actions, a PERIODIC or PPS pin
fires one late pulse or reports the first skipped grid time, and resumes on the new timescale. -/
def stepPin (new : Time) (forward : Bool) (s : State) (p : Nat) : State :=
  let n := s.pin p
  let who := ownerOf s 0x06 p
  if n.mode = 2 then
    if !forward then s else
    let late := n.actions.filter (fun a => a.time < new && !a.late)
    let acts := (n.actions.filter (fun a => !(a.time < new) || a.fireLate || a.late)).map
      (fun a => if a.time < new then { a with late := true } else a)
    let s := modPin p (fun n => { n with actions := acts }) s
    late.foldl (fun s a =>
      let s := record 0x0103 who [(1, p), (1, bit a.fireLate)] s
      if a.fireLate then s else report p ⟨a.time, 2, a.handle⟩ s) s
  else if n.mode = 3 || n.mode = 4 then
    match n.next with
    | none => s
    | some g =>
      let fire := n.fireLate && !heldBack s n && n.falls = []
      let at_ := edgePos n (elapsedQ s)
      let s :=
        if forward && g < new then
          let s := record 0x0103 who [(1, p), (1, bit n.fireLate)] s
          if fire then report p ⟨timeAt s at_, 3, 0xFFFF⟩ (startPulse p n.width at_ s)
          else report p ⟨g, 2, 0xFFFF⟩ s
        else s
      let free := match (s.pin p).falls.getLast? with
        | some e => planeOf s p (new + ofQuarter ((e : Int) - (elapsedQ s : Int) + 16))
        | none => new
      modPin p (fun n => { n with next := some (gridFrom n.offset (pinPeriod n) (max new free)) }) s
  else s

/-- A running FSG after a step (R203): its frame ends at the first start of the new timescale, skipped when the frame would be
shorter than MIN_FRAME. -/
def stepFsg (new : Time) (s : State) (k : Nat) : State :=
  modFsg k (fun f =>
    match f.running, f.cfg with
    | true, some c =>
      let j := fsgFrom c new
      let begun := match f.frameBegan with | some b => b | none => 0
      let short := f.frameBegan.isSome &&
        (elapsedQ s - begun : Nat) + (fsgStart c j - quarterOf new) < (c.minFrame : Int)
      { f with k := j, skip := if short then some 1 else none, launched := [] }
    | _, _ => f) s

end Sys2Proof.Machine
end

