-- ==== Sys2Proof/Machine/Last.lean ====
section
/-! DEFINITION. The Last (02): rate, steps and slews, the servo, and the commands of groups 0x01 and 0x0D. -/

namespace Sys2Proof.Machine

/-- rate_eff clamped under R24. -/
def clampRate (r : Int) : Int := clampInt (-rateBound) rateBound r

/-- theta of R43 in 0.01 degC. -/
def thetaOf (s : State) : Int := s.last.die + Config.thetaOffset

/-- rt of R43: tc = (c1/1000)·d + (c2/1000)·d^2 ppb with d = (th - theta0)/100, each operation in double precision, then rounded once to
units of 2^-40 (log entry 11). -/
def tempTerm (c : Calib) (th : Int) : Int :=
  let d := double (th - c.theta0) 100
  let tc := dblAdd (dblMul (double c.c1 1000) d) (dblMul (double c.c2 1000) (dblMul d d))
  roundAway (tc.1 * 2 ^ 40) (2 ^ tc.2 * 1000000000)

/-- rate_eff in FREE (R43). -/
def freeRate (s : State) : Int := clampRate (s.last.rateSet + tempTerm s.last.cal (thetaOf s))

/-- rate_eff in HOLDOVER (R43). -/
def holdRate (s : State) : Int :=
  clampRate (s.last.rHold + tempTerm s.last.cal (thetaOf s) - tempTerm s.last.cal s.last.thetaEntry)

/-- The rate the present state gives: FREE and HOLDOVER by R43, else the loop's. -/
def setRate (s : State) : State :=
  match s.last.servo with
  | .free => modLast (fun l => { l with rateEff := freeRate s }) s
  | .holdover => modLast (fun l => { l with rateEff := holdRate s }) s
  | _ => s

/-- 16 loop time constants in units of `Time`: 16/(2 pi·LOOP_BW) s, LOOP_BW in 0.01 Hz (R33). -/
def holdWindow (bw : Nat) : Nat := 1600 * 1000000000 * nsU * 10 ^ 20 / (2 * 314159265358979323846 * bw)

/-- Leave out the newest `n` units of a rate log. -/
def dropCycles : Nat → List (Int × Nat) → List (Int × Nat)
  | _, [] => []
  | n, (r, c) :: l => if c ≤ n then dropCycles (n - c) l else (r, c - n) :: l

/-- Sum of rate·time and of time over the newest `n` units of a rate log. -/
def sumCycles : Nat → List (Int × Nat) → Int × Nat
  | _, [] => (0, 0)
  | n, (r, c) :: l =>
    let k := min n c
    let (a, b) := sumCycles (n - k) l
    (r * k + a, k + b)

/-- r_hold (R33): the time-weighted mean of rate_eff over the last 16 loop time constants that end at the latest valid sample,
or over the time in LOCKED, rounded to nearest with ties away from zero. With no time in LOCKED before that sample the mean runs over
nothing, and the model takes the present rate_eff (DESIGN CHOICE, log entry 116). -/
def holdMean (l : Last) : Int :=
  let (a, b) := sumCycles (holdWindow l.cfg.loopBw) (dropCycles l.sinceSample l.rateLog)
  if b = 0 then l.rateEff else roundAway a b

/-- G lies in 0 to below 1/300 s (R244). -/
def gridSpan : Time := (2 ^ 39 * 10000000000000000 : Nat)

/-- A servo state change with event 0x0102 (Table 2.5). Reaching LOCKED sets VALID (R30); entering HOLDOVER fixes r_hold and
theta_entry (R33, R43). -/
def setServo (who : Nat) (new : Servo) (s : State) : State :=
  let old := s.last.servo
  let s1 := modLast (fun l => { l with
    servo := new, inRun := 0, outRun := 0
    valid := l.valid || new = .locked
    rHold := if new = .holdover then holdMean l else l.rHold
    thetaEntry := if new = .holdover then thetaOf s else l.thetaEntry
    holdTime := 0
    rateLog := if new = .locked then [] else l.rateLog
    sinceSample := if new = .locked then 0 else l.sinceSample }) s
  setRate (record 0x0102 who [(1, old.code), (1, new.code), (1, s.last.src.toNat)] s1)

/-- G moves with a step, with event 0x0507 (R245); the boundaries that the state names stay where they are under the samples, so they are
renumbered when G passes the end of its range (R38). -/
def moveGrid (d : Time) (s : State) : State :=
  let g := (s.audio.grid + d) % gridSpan
  record 0x0507 engineTag [(8, (fracOf g).toNat)]
    (renumber ((s.audio.grid + d) / gridSpan) { s with audio := { s.audio with grid := g } })

/-- The frames in progress, and a change of an FSG still to come, move with a step: windows open OPEN after their frame start (R189), and 20 us
after acceptance stay 20 us (R200, log entry 74). So do the stamps from which a slave port's periods and drift and a measuring MCG's window
are counted, which a step does not lengthen (R245, R260, R261). -/
def moveFrames (d : Time) (s : State) : State :=
  { s with
    trig := { s.trig with fsgs := s.trig.fsgs.map fun f => { f with
      starts := f.starts.map fun x => (x.1, x.2 + d)
      change := f.change.map fun x => (x.1, x.2 + d) } }
    audio := { s.audio with
      mcgs := s.audio.mcgs.map fun m => { m with began := m.began + d }
      ports := s.audio.ports.map fun q => { q with
        lastSync := q.lastSync.map (· + d), meas := q.meas.map fun x => (x.1 + d, x.2) } } }

/-- Mark the timed commands whose apply time a forward step passed (R55). -/
def markPassed (new : Time) (s : State) : State :=
  { s with tenants := s.tenants.map fun n => { n with pend := n.pend.map fun p =>
      if p.timed && p.due < new then { p with passed := true } else p } }

/-- One step moves the counter from the value `base`, which it would have in the next cycle or which the step before it at this boundary
gave it, to `new` (R37): event 0x0101 with its cause and the counter before it; the grid and the frames in progress move along (R38, R245,
log entry 74). It ends a slew (R50), and a step by command sets VALID (R30). -/
def moveCounter (cause who : Nat) (base new : Time) (s : State) : State :=
  let d := new - base
  let s := record 0x0101 who [(1, cause), (4, sat32 (d / (nsU : Int))), (4, (nsOf s.now % 1000000000).toNat)] s
  let s := modLast (fun l => { l with counter := new, slew := none, valid := l.valid || cause ≠ 0 }) s
  moveGrid d (moveFrames d s)

/-- What follows the steps of one boundary, the first of which moved the counter from `base`: late edges and commands are judged once, against
the time after all of them (R37, R52 to R55, R201 to R203). -/
def judgeStep (base : Time) (s : State) : State :=
  let s := modLast (fun l => { l with cycles := l.cycles + 1 }) s
  let forward := decide (base < s.now)
  let s := if forward then markPassed s.now s else s
  let s := (List.range 32).foldl (stepPin s.now forward) s
  (List.range 8).foldl (stepFsg s.now) s

/-- A step alone at its boundary. -/
def applyStep (cause who : Nat) (new : Time) (s : State) : State :=
  judgeStep (cycleEnd s) (moveCounter cause who (cycleEnd s) new s)

/-- SLEW_MAX in units of 2^-40, the furthest that a slew moves rate_eff (R36). -/
def slewBound (l : Last) : Int := ((l.cfg.slewMax * 2 ^ 40 / 1000000000 : Nat) : Int)

/-- The servo loop's rate after a sample, free within R24, and the servo's own slew beside it, free within SLEW_MAX (R36, log entry 4). -/
def loopStep (s : State) : State :=
  modLast (fun l =>
    let base := clampRate (Config.loopRate l.samples)
    { l with
      loopBase := base
      rateEff := clampRate (base + clampInt (-slewBound l) (slewBound l) (Config.loopSlew l.samples))
      samples := l.samples + 1, sinceSample := 0, gap := 0 }) s

/-- A sample in ACQUIRE counts toward LOCK_COUNT when it lies within LOCK_THR, whether or not it also stepped (Table 2.5). -/
def countInRun (a : Time) (s : State) : State :=
  if a ≤ ofNs s.last.cfg.lockThr then
    if s.last.cfg.lockCount ≤ s.last.inRun + 1 then setServo engineTag .locked s
    else modLast (fun l => { l with inRun := l.inRun + 1 }) s
  else modLast (fun l => { l with inRun := 0 }) s

/-- What a sample does in ACQUIRE (R35, R36, R477, Table 2.5). -/
def acquireSample (off : Time) (s : State) : State :=
  let a := if off < 0 then -off else off
  let target := cycleEnd s - off
  countInRun a
    (if s.last.cfg.stepThr ≠ 0 && ofNs s.last.cfg.stepThr < a && inRange target then applyStep 0 engineTag target s else s)

/-- What a sample does in LOCKED (Table 2.5). The third sample beyond UNLOCK_THR only changes the state; the servo may step from the next
sample on, which finds it in ACQUIRE (DESIGN CHOICE, log entry 117). -/
def lockedSample (off : Time) (s : State) : State :=
  let a := if off < 0 then -off else off
  if ofNs s.last.cfg.unlockThr < a then
    if 3 ≤ s.last.outRun + 1 then setServo engineTag .acquire s else modLast (fun l => { l with outRun := l.outRun + 1 }) s
  else modLast (fun l => { l with outRun := 0 }) s

/-- A servo sample of the selected source (R31, R32, R35); a SERVO_CONFIG sent since the last one takes effect (Note 2 of Table
2.6). -/
def servoSample (off : Time) (s : State) : State :=
  if s.last.src = 0 || s.last.rcFallback then s
  else
    let s := modLast (fun l => { l with offset := fracOf off, cfg := l.cfgNext.getD l.cfg, cfgNext := none }) s
    match s.last.servo with
    | .locked => loopStep (lockedSample off s)
    | .acquire => loopStep (acquireSample off s)
    | _ => loopStep (acquireSample off (setServo engineTag .acquire s))

/-- The source is declared lost (R478, Table 2.5). -/
def sourceLostOp (s : State) : State :=
  let tell := fun (s' : State) => record 0x0105 engineTag [(1, s.last.src.toNat)] s'
  match s.last.servo with
  | .acquire => tell (setServo engineTag .free s)
  | .locked => tell (setServo engineTag .holdover s)
  | _ => s

/-- A PPS offset folded into -0.5 s to below 0.5 s (R31). -/
def foldPps (t : Time) : Time :=
  let sec := ofNs 1000000000
  let r := t % sec
  if r < ofNs 500000000 then r else r - sec

/-! TIME cycles (R25, R50, R477). -/

/-- A rate log with n more units at a rate. -/
def logRate (r : Int) (n : Nat) : List (Int × Nat) → List (Int × Nat)
  | (r', c) :: l => if r = r' then (r, c + n) :: l else (r, n) :: (r', c) :: l
  | [] => [(r, n)]

/-- Time passes on the undisciplined clock, in units of `Time`: the servo's intervals grow (R33, R478, Table 2.8). -/
def passTime (d : Nat) (l : Last) : Last := { l with
  holdTime := if l.servo = .holdover then l.holdTime + d else l.holdTime
  rateLog := if l.servo = .locked then logRate l.rateEff d l.rateLog else l.rateLog
  sinceSample := l.sinceSample + d, gap := l.gap + d }

/-- n TIME cycles of the counter (R25): each adds 2·(1 + rate_eff·2^-40) ns and the slew's share; past 2^48 s it wraps to 0. -/
def runCycles (n : Nat) (s : State) : State :=
  let l := s.last
  let moved := slewMoved l n
  modLast (fun l => passTime (2 * nsU * n) { l with
    counter := (l.counter + stepUnits l.rateEff * n + moved) % topTime
    cycles := l.cycles + n
    slew := match l.slew with | some w => if w.left = moved then none else some { w with left := w.left - moved } | none => none }) s

/-- TIME_CYCLE: while the TIME domain carries the Last, n of its cycles pass (R25). -/
def execTimeCycle (n : Nat) (s : State) : Out :=
  if s.last.coarse || !domainUp s 3 then .next s else .next (runCycles n s)

/-- SLEW_END: the last cycle of a slew, which adds its remainder (R50). -/
def execSlewEnd (s : State) : Out :=
  match s.last.slew with
  | none => .next s
  | some w =>
    if w.left.natAbs ≤ (slewExtra s.last w).natAbs && !s.last.coarse && domainUp s 3 then .next (runCycles 1 s) else .next s

/-- COARSE_COUNTER_UPDATE: the coarse counter advances by one granule, at the same rate_eff (R25, R26): 40 ns at 25 and 40 MHz, else
one REFCLK period. -/
def coarseGranule (hz : Nat) : Nat := if hz = 25000000 || hz = 40000000 then 40 * nsU else 1000000000 * nsU / hz

/-- The coarse counter runs: it carries the Last, REFCLK clocks it, and the mode is not OFF (R25). -/
def coarseRuns (s : State) : Bool := s.last.coarse && s.sys.refclkHz ≠ 0 && s.pwr.mode ≠ .off

def execCoarseCounterUpdate (s : State) : Out :=
  if coarseRuns s then
    let g := coarseGranule s.sys.refclkHz
    .next (modLast (fun l => passTime g { l with counter := (l.counter + (g : Int) + (g : Int) * l.rateEff / 2 ^ 40) % topTime }) s)
  else .next s

/-- TEMP_TERM_UPDATE: the die sensor is read and the temperature term recomputed (R43). -/
def execTempTermUpdate (die : BitVec 16) (s : State) : Out :=
  .next (setRate (modLast (fun l => { l with die := die.toInt }) s))

/-- SYNC_TIMEOUT Sync intervals of the port that SRC names, in units of `Time` (R156, R478). -/
def syncGap (s : State) (p : Nat) (domain : Byte) : Time :=
  let d := if domain = 0 then (s.ethPort p).d0 else (s.ethPort p).d1
  let n : Time := (s.eth.gptp.syncTimeout * 1000000000 * nsU : Nat)
  let k := d.logSync.getD s.eth.gptp.logSync
  if 0 ≤ k then n * 2 ^ k.toNat else n / 2 ^ (-k).toNat

/-- The source's gap of R478 has passed since its latest valid sample, since SOURCE_SET, or since its port left the slave role: SYNC_TIMEOUT Sync intervals of a gPTP port,
437.5 us of a Prieth upstream port that is not UP, 3.5 s of a PPS pin. -/
def gapOver (s : State) : Bool :=
  let c := s.last.src.toNat
  let g : Time := s.last.gap
  if c = 0 then false
  else if 0x10 ≤ c && c < 0x14 then syncGap s (c - 0x10) s.last.domain ≤ g
  else if c = 0x20 then ofQuarter 1750000 ≤ g
  else ofNs 3500000000 ≤ g

/-- SOURCE_LOST (R478). -/
def execSourceLost (s : State) : Out := if gapOver s then fin (sourceLostOp s) else .next s

/-! The commands of Tables 2.6 to 2.9. -/

/-- FLAGS of LAST_STATUS (Table 2.8). SLEWING, and SLEW_LEFT beside it, show a slew by TIME_ADJUST alone: the servo's own slews have no offset
still to slew that a rule names (DESIGN CHOICE, log entry 118). -/
def flagBits (s : State) : Nat :=
  bit s.last.valid + 2 * bit s.last.slew.isSome + 4 * bit s.last.rcFallback

def timeGetM (_r : Req) : Meaning where
  effect := fun _ s => (s, .ok, stampBytes (reportStamp s) ++ le 1 s.last.servo.code ++
    le 1 (bit s.last.valid + 2 * bit s.last.utcValid) ++ leBits 2 s.last.utcOffset)

def execTimeGet (r : Req) (s : State) : Out := fin (submit (.timeGet r) (timeGetM r) s)

/-- Manual steering is refused while a source is selected (R46). -/
def steered (s : State) : Bool := s.last.src ≠ 0

/-- The counter moved by a command at a boundary where it would read `base`, before what follows the steps of that boundary is judged (R37);
TIME_STEP is judged against `base` (R477). -/
def stepByCommand (base : Time) (i : Instr) (s : State) : State × Status × List Byte :=
  let old := stampBytes (reportStamp s)
  match i with
  | .timeSet r time utc flags =>
    (modLast (fun l => { l with utcOffset := utc, utcValid := flags.getLsbD 0 }) (moveCounter 2 r.tenant base (timeOf time) s), .ok, old)
  | .timeStep r offset =>
    let new := base + ofFrac offset.toInt
    if inRange new then (moveCounter 1 r.tenant base new s, .ok, old) else (s, .range, [])
  | _ => (s, .ok, [])

/-- A step by a command alone at its boundary. -/
def soloStep (i : Instr) (s : State) : State × Status × List Byte :=
  let (t, st, res) := stepByCommand (cycleEnd s) i s
  (if st = .ok then judgeStep (cycleEnd s) t else t, st, res)

def timeSetM (r : Req) (time : Stamp) (utc flags : Half) : Meaning where
  checks := fun s => [(.range, badNs time), (.busy, steered s)]
  effect := fun _ s => soloStep (.timeSet r time utc flags) s

def execTimeSet (r : Req) (time : Stamp) (utc flags : Half) (s : State) : Out :=
  fin (submit (.timeSet r time utc flags) (timeSetM r time utc flags) s)

/-- TIME_STEP is judged against the counter in the cycle in which it takes effect (R477). -/
def timeStepM (r : Req) (offset : DWord) : Meaning where
  checks := fun s => [(.busy, steered s)]
  effect := fun _ s => soloStep (.timeStep r offset) s

def execTimeStep (r : Req) (offset : DWord) (s : State) : Out := fin (submit (.timeStep r offset) (timeStepM r offset) s)

/-- DURATION: the TIME cycles a slew lasts, times 2 ns (R50); free where the bound of R24 leaves it no share. -/
def slewTime (w : Slew) (s : State) : Nat × State :=
  let e := (slewExtra s.last w).natAbs
  if e = 0 then
    let (v, s) := drawFree s
    (v.toNat, s)
  else (2 * ((w.left.natAbs + e - 1) / e), s)

def timeAdjustM (offset : DWord) (slew : Word) : Meaning where
  checks := fun s => [(.range, slew = 0 || decide (s.last.cfg.slewMax < slew.toNat)), (.busy, steered s),
    (.notSynced, !s.last.valid)]
  effect := fun _ s =>
    let off := ofFrac offset.toInt
    if off = 0 then (modLast (fun l => { l with slew := none }) s, .ok, le 8 0)
    else
      let w : Slew := { left := off, ppb := slew.toNat }
      let (d, s) := slewTime w s
      (modLast (fun l => { l with slew := some w }) s, .ok, le 8 d)

def execTimeAdjust (r : Req) (offset : DWord) (slew : Word) (s : State) : Out :=
  fin (submit (.timeAdjust r offset slew) (timeAdjustM offset slew) s)

def rateSetM (rate : Word) : Meaning where
  checks := fun s => [(.range, decide (rateBound < rate.toInt) || decide (rate.toInt < -rateBound)), (.busy, steered s)]
  effect := fun _ s => (setRate (modLast (fun l => { l with rateSet := rate.toInt, slew := none }) s), .ok, [])

def execRateSet (r : Req) (rate : Word) (s : State) : Out := fin (submit (.rateSet r rate) (rateSetM rate) s)

/-- A source code of Table 2.3 that Note 1 of Table 2.6 does not refuse; a port or pin beyond its range is refused by the
check of units. -/
def badSource (s : State) (src domain : Byte) : Bool :=
  let c := src.toNat
  if c = 0 then domain ≠ 0
  else if 0x10 ≤ c && c < 0x14 then 1 < domain.toNat
  else if c = 0x20 then s.plink.root || domain ≠ 0
  else if 0x40 ≤ c && c < 0x60 then
    let n := s.pin (c - 0x40)
    n.mode ≠ 1 || !n.edge.getLsbD 0 || domain ≠ 0
  else true

/-- A source selected (Table 2.5, R50). -/
def selectSource (who : Nat) (src domain : Byte) (s : State) : State :=
  let s := modLast (fun l => { l with src, domain }) s
  if src = 0 then setServo who .free s else setServo who .acquire (modLast (fun l => { l with slew := none, gap := 0 }) s)

def sourceSetM (r : Req) (src domain : Byte) : Meaning where
  checks := fun s => [(.range, badSource s src domain), (.noClock, s.last.rcFallback)]
  effect := fun _ s => (selectSource r.tenant src domain s, .ok, [])

def execSourceSet (r : Req) (src domain : Byte) (s : State) : Out :=
  fin (submit (.sourceSet r src domain) (sourceSetM r src domain) s)

/-- SERVO_CONFIG: while the servo has a source it waits for the next sample (Note 2 of Table 2.6). -/
def servoConfigM (stepThr lockThr unlockThr slewMax : Word) (lockCount loopBw : Half) : Meaning where
  checks := fun _ => [(.range, decide (1000000000 < stepThr.toNat) || lockThr = 0 || decide (1000000 < lockThr.toNat) ||
    decide (unlockThr.toNat < lockThr.toNat) || decide (100000000 < unlockThr.toNat) || decide (slewMax.toNat < 1000) ||
    decide (1000000 < slewMax.toNat) || lockCount = 0 || decide (1024 < lockCount.toNat) || loopBw = 0 ||
    decide (10000 < loopBw.toNat))]
  effect := fun _ s =>
    let c : ServoSet := {
      stepThr := stepThr.toNat, lockThr := lockThr.toNat, unlockThr := unlockThr.toNat, slewMax := slewMax.toNat
      lockCount := lockCount.toNat, loopBw := loopBw.toNat }
    (modLast (fun l => if steered s then { l with cfgNext := some c } else { l with cfg := c, cfgNext := none }) s, .ok, [])

def execServoConfig (r : Req) (a b c d : Word) (e f : Half) (s : State) : Out :=
  fin (submit (.servoConfig r a b c d e f) (servoConfigM a b c d e f) s)

/-- Whole seconds in HOLDOVER (Table 2.8). -/
def holdSeconds (l : Last) : Nat := l.holdTime / (1000000000 * nsU)

def lastStatusM : Meaning where
  effect := fun _ s => (s, .ok, le 1 s.last.servo.code ++ leBits 1 s.last.src ++ leBits 1 s.last.domain ++
    le 1 (flagBits s) ++ leInt 4 (rateNow s.last) ++ leInt 8 s.last.offset ++
    leInt 8 (match s.last.slew with | some w => fracOf w.left | none => 0) ++ le 4 (holdSeconds s.last) ++
    leInt 2 s.last.die ++ le 2 0)

def execLastStatus (r : Req) (s : State) : Out := fin (submit (.lastStatus r) lastStatusM s)

/-! Calibration (R39 to R47, Table 2.9). -/

/-- INDEX and SUB name a term of Table 2.9. -/
def calTerm (item index sub : Nat) : Bool :=
  match item with
  | 1 => index < 32 && sub = 0
  | 2 => index < 4 && sub < 2
  | 3 => index < 4 && sub = 0
  | 4 => index = 0 && sub < 3
  | 5 => index < 12 && sub = 0
  | _ => false

/-- The range of VALUE (Table 2.9). -/
def calRange (item sub : Nat) (v : Int) : Bool :=
  match item, sub with
  | 1, _ => -100000 ≤ v && v ≤ 100000
  | 2, _ => 0 ≤ v && v ≤ 2000000
  | 3, _ => -50000 ≤ v && v ≤ 50000
  | 4, 0 => -4000 ≤ v && v ≤ 15000
  | 4, 1 => -10000000 ≤ v && v ≤ 10000000
  | 4, _ => -100000 ≤ v && v ≤ 100000
  | 5, _ => -5000 ≤ v && v ≤ 5000
  | _, _ => false

/-- The user term (R39). -/
def userTerm (c : Calib) (item index sub : Nat) : Int :=
  match item, sub with
  | 1, _ => nth c.trace index
  | 2, 0 => nth c.phyTx index
  | 2, _ => nth c.phyRx index
  | 3, _ => nth c.asym index
  | 4, 0 => c.theta0
  | 4, 1 => c.c1
  | 4, _ => c.c2
  | _, _ => nth c.cell index

/-- The factory term as CAL_GET reports it (Table 2.9). -/
def factoryTerm (item index sub : Nat) : Int :=
  match item with
  | 2 => Config.ethPath index sub
  | 3 => Config.plAsym index
  | 5 => Config.cellOffset index
  | _ => 0

/-- The user term set to a value. -/
def setTerm (item index sub : Nat) (v : Int) (c : Calib) : Calib :=
  let put := fun (l : List Int) => updAt l index (fun _ => v)
  match item, sub with
  | 1, _ => { c with trace := put c.trace }
  | 2, 0 => { c with phyTx := put c.phyTx }
  | 2, _ => { c with phyRx := put c.phyRx }
  | 3, _ => { c with asym := put c.asym }
  | 4, 0 => { c with theta0 := v }
  | 4, 1 => { c with c1 := v }
  | 4, _ => { c with c2 := v }
  | _, _ => { c with cell := put c.cell }

/-- d_fix of a reflex path in ps, between 2,250 and 3,000 (R184). -/
def dFix (path : Nat) : Int := ((2250 + Config.reflexFix path % 751 : Nat) : Int)

/-- The latency from ball to ball that R183 asks of a path, in ps. -/
def latencyOf (c : Calib) (delay inPin outPin : Nat) : Int := 5000 + 250 * delay - nth c.trace inPin - nth c.trace outPin

/-- The trim of R184 in ps, rounded to 250 ps toward the shorter value on a tie. -/
def trimOf (c : Calib) (path delay inPin outPin : Nat) : Int := 250 * roundEarly (latencyOf c delay inPin outPin - dFix path) 250

/-- The trim and the latency that an input edge of a path at time t takes (R185). -/
def trimAt (x : Path) (t : Time) : Int × Int :=
  match (x.trimNext.filter fun y => y.1 < t).getLast? with
  | some y => y.2
  | none => (x.trim, x.lat)

/-- New trims for the configured paths of a recalibrated pin, for input edges later than 1 us from now, or event 0x0305 where the trim would
be negative (R184, R185). -/
def retrim (pin : Nat) (s : State) (m : Nat) : State :=
  let x := s.path m
  if x.mode ≠ 0 && (x.inPin = pin || x.outPin = pin) then
    let t := trimOf s.last.cal m x.delay x.inPin x.outPin
    if t < 0 then record 0x0305 (ownerOf s 0x0E m) [(1, m)] s
    else modPath m (fun x => { x with
      trim := (trimAt x s.now).1, lat := (trimAt x s.now).2
      trimNext := (x.trimNext.filter fun y => !(y.1 < s.now)) ++ [(s.now + ofNs 1000, t, latencyOf s.last.cal x.delay x.inPin x.outPin)] }) s
  else s

def calSetM (item index sub : Byte) (value : Word) : Meaning where
  checks := fun _ => [(.range, !calTerm item.toNat index.toNat sub.toNat || !calRange item.toNat sub.toNat value.toInt)]
  effect := fun _ s =>
    let s := modLast (fun l => { l with cal := setTerm item.toNat index.toNat sub.toNat value.toInt l.cal
                                        calOld := (l.calOld.filter fun x => s.now < x.2) ++ [(l.cal, s.now + ofNs 1000)] }) s
    (if item = 1 then (List.range 16).foldl (retrim index.toNat) s else s, .ok, [])

def execCalSet (r : Req) (item index sub : Byte) (value : Word) (s : State) : Out :=
  fin (submit (.calSet r item index sub value) (calSetM item index sub value) s)

def calGetM (item index sub : Byte) : Meaning where
  checks := fun _ => [(.range, !calTerm item.toNat index.toNat sub.toNat)]
  effect := fun _ s =>
    let u := userTerm s.last.cal item.toNat index.toNat sub.toNat
    let f := factoryTerm item.toNat index.toNat sub.toNat
    (s, .ok, leInt 4 u ++ leInt 4 f ++ leInt 4 (f + u))

def execCalGet (r : Req) (item index sub : Byte) (s : State) : Out :=
  fin (submit (.calGet r item index sub) (calGetM item index sub) s)

/-! REFCLK and the latch. -/

/-- VALID is cleared, with event 0x0106 and its cause (R28, R34). -/
def clearValid (cause : Nat) (s : State) : State :=
  record 0x0106 engineTag [(1, cause)] (modLast (fun l => { l with valid := false }) s)

/-- REFCLK_STOP_IN_SLEEP: REFCLK stops while the coarse counter carries the Last (R28). -/
def execRefclkStopInSleep (s : State) : Out := if s.last.coarse then fin (clearValid 0 s) else .next s

/-- Entry into RC fallback (R34). -/
def enterRcFallback (s : State) : State :=
  let s1 := modLast (fun l => { l with src := 0, rcFallback := true }) s
  let s2 := clearValid 1 s1
  if s.last.servo = .free then setRate s2 else setServo engineTag .free s2

/-- The TIME domain takes the Last over from the coarse counter: the load adds at most one coarse granule, which is free (R27, log
entry 36). -/
def loadCounter (s : State) : State :=
  if !s.last.coarse then s
  else
    let g := coarseGranule s.sys.refclkHz
    let (v, s) := drawFree s
    modLast (fun l => { l with counter := (l.counter + (v.toNat % (g + 1) : Nat)) % topTime, coarse := false }) s

end Sys2Proof.Machine
end

