-- ==== Sys2Proof/Machine/Grid.lean ====
section
/-! DEFINITION. The sample grid (R244): rates, boundaries and their times. Boundary k of rate fs lies at G + k/fs; times are
compared exactly, in units of `Time` over fs. -/

namespace Sys2Proof.Machine

/-- 1 s as a `Time`. -/
def secondU : Time := ofNs 1000000000

/-- The first boundary at or after a time. -/
def boundaryFrom (s : State) (fs : Nat) (t : Time) : Int := ceilDiv ((t - s.audio.grid) * fs) secondU

/-- The last boundary at or before a time. -/
def boundaryUpTo (s : State) (fs : Nat) (t : Time) : Int := (t - s.audio.grid) * fs / secondU

/-- The time of a boundary, rounded down to a unit of `Time`. -/
def boundaryTime (s : State) (fs : Nat) (k : Int) : Time := s.audio.grid + k * secondU / fs

/-- Boundary k of rate fs lies before t + m/fs. -/
def boundaryBefore (s : State) (fs : Nat) (k : Int) (t : Time) (m : Int) : Bool :=
  k * secondU < (t - s.audio.grid) * fs + m * secondU

/-- Boundary k of rate fs lies after t + m/fs. -/
def boundaryAfter (s : State) (fs : Nat) (k : Int) (t : Time) (m : Int) : Bool :=
  (t - s.audio.grid) * fs + m * secondU < k * secondU

/-- The time of boundary k plus m periods, in whole ns, the fraction dropped. -/
def boundaryNs (s : State) (fs : Nat) (k m : Int) : Int := (s.audio.grid * fs + (k + m) * secondU) / (fs * nsU : Nat)

/-- The frequency offset in ppb of `edges` periods of a rate from one stamp to another, rounded to nearest (R163, R247). -/
def freqPpb (base : Nat) (t0 t : Time) (edges : Nat) : Int :=
  roundAway ((edges * secondU - base * (t - t0)) * 1000000000) (base * (t - t0).toNat)

/-- The phase of a stamp: from the nearest boundary of a rate's grid, in 2^-16 ns (R163, R247). -/
def phaseOf (s : State) (base : Nat) (t : Time) : Int :=
  let x := (t - s.audio.grid) * base
  roundAway (x - roundEarly x secondU.toNat * secondU) (base * (nsU / 65536))

end Sys2Proof.Machine
end

