-- ==== Sys2Proof/Machine/Ether.lean ====
section
/-! DEFINITION. Ethernet time ports (06): the commands of group 0x02, gPTP and AVTP. What IEEE 802.1AS-2020 and IEEE 1722 fix
beyond the manual is taken from them (log entry 28). -/

namespace Sys2Proof.Machine

/-! Ports and stamps. -/

/-- The corrections of a received and a transmitted stamp, in ps (R42). -/
def rxCorr (s : State) (p : Nat) : Int := -(Config.ethPath p 1 + nth s.last.cal.phyRx p)
def txCorr (s : State) (p : Nat) : Int := Config.ethPath p 0 + nth s.last.cal.phyTx p

/-- The receive stamp of a frame at a tap of this TIME cycle (R42, R61, R147). -/
def rxStamp (s : State) (p tap : Nat) : Time := s.now + ofQuarter tap + ofPs (rxCorr s p)

/-- The transmit stamp of a frame at a tap of this TIME cycle. -/
def txStamp (s : State) (p tap : Nat) : Time := s.now + ofQuarter tap + ofPs (txCorr s p)

/-- The port is enabled, has its link and its clocks. -/
def portUp (s : State) (p : Nat) : Bool := (s.ethPort p).mode ≠ 0 && (s.ethPort p).link && timeUnitUp s fenceEth && domainUp s (16 + p) &&
    !stoppedByHoldover s fenceEth

/-- The port may send: it is up and has a MAC address (R148). -/
def portSends (s : State) (p : Nat) : Bool := portUp s p && (s.ethPort p).mac.isSome

/-- A frame is counted as received. -/
def countRx (p : Nat) (s : State) : State := modEthPort p (fun q => { q with rxFrames := q.rxFrames + 1 }) s

/-- The port rate in kb/s. -/
def portRate (mode : Nat) : Nat := if mode = 1 then 1000000 else if mode = 2 then 2500000 else 0

/-! The line and its queues (R165): gPTP first, then the shaped queues A and B (log entry 136). -/

/-- The TIME cycles a frame of some bits holds the line; a cycle carries 2·10^-6 bit for each kb/s. -/
def lineCycles (q : EthPort) (bits : Nat) : Nat := (bits * 500000 + portRate q.mode - 1) / max 1 (portRate q.mode)

/-- The TIME cycles until the line of a port is free. -/
def lineWait (s : State) (p : Nat) : Nat := (s.ethPort p).lineFree - s.last.cycles

/-- A frame takes the line, at once or when it is free, and is counted as sent. -/
def takeLine (p bits : Nat) (s : State) : State :=
  modEthPort p (fun q => { q with
    txFrames := q.txFrames + 1, lineFree := max s.last.cycles q.lineFree + lineCycles q bits }) s

/-- Send a gPTP message, which goes before every frame of the shaped queues (R165). -/
def sendPtp (p bits : Nat) (o : Output) (s : State) : State := emit o (takeLine p bits s)

/-- The transmit stamp of a gPTP message that leaves when the line is free, at a tap of its TIME cycle. -/
def sendStamp (s : State) (p tap : Nat) : Time := txStamp s p tap + lineWait s p * stepUnits s.last.rateEff

/-- The credit of a queue after some cycles: it rises at idleSlope while frames wait, and up to zero while none does. -/
def accrue (idle dt : Nat) (x : Shaper) : Shaper :=
  let c := x.credit + (idle * dt : Nat)
  { x with credit := if x.frames.isEmpty then min 0 c else c }

/-- The credits of a port up to the present cycle. -/
def accrueCredits (now : Nat) (q : EthPort) : EthPort :=
  { q with
    shapeA := accrue q.idleA (now - q.credAt) q.shapeA, shapeB := accrue q.idleB (now - q.credAt) q.shapeB, credAt := now }

/-- A queue may send: a frame waits and the credit is not negative. -/
def mayTake (x : Shaper) : Bool := !x.frames.isEmpty && decide (0 ≤ x.credit)

/-- A queue without its first frame, whose bits its credit pays for. -/
def paidFor (x : Shaper) : Shaper :=
  { frames := x.frames.drop 1, credit := x.credit - ((x.frames.head?.elim 0 fun f => f.2) * 500000 : Nat) }

/-- The first frame of a queue leaves and is counted in its stream. -/
def sendFirst (p : Nat) (x : Shaper) (s : State) : State :=
  match x.frames with
  | [] => s
  | (f, bits) :: _ =>
    emit (.avtp f) (takeLine p bits (modStream true f.stream (fun y => { y with packets := y.packets + 1 }) s))

/-- A free line takes the first frame of queue A, or else of queue B, that may send. -/
def serveLine (s : State) (p : Nat) : State :=
  if !portSends s p then s
  else
    let s := modEthPort p (accrueCredits s.last.cycles) s
    let q := s.ethPort p
    if 0 < lineWait s p then s
    else if mayTake q.shapeA then sendFirst p q.shapeA (modEthPort p (fun q => { q with shapeA := paidFor q.shapeA }) s)
    else if mayTake q.shapeB then sendFirst p q.shapeB (modEthPort p (fun q => { q with shapeB := paidFor q.shapeB }) s)
    else s

/-- Every port's line is served. -/
def serveLines (s : State) : State := [0, 1, 2, 3].foldl serveLine s

/-- A frame enters the queue of its class. -/
def queueFrame (p cls bits : Nat) (f : AvFrame) (s : State) : State :=
  let s := modEthPort p (accrueCredits s.last.cycles) s
  serveLine (modEthPort p (fun q =>
    if cls = 0 then { q with shapeA := { q.shapeA with frames := q.shapeA.frames ++ [(f, bits)] } }
    else { q with shapeB := { q.shapeB with frames := q.shapeB.frames ++ [(f, bits)] } }) s) p

/-- A port's queues empty, with no credit. -/
def clearQueues (q : EthPort) : EthPort := { q with shapeA := {}, shapeB := {}, lineFree := 0 }

/-! Streams: bandwidth and IDs (R157, R158, R165, R166). -/

/-- Bytes of a sample by format (R157). -/
def formatBytes (f : Nat) : Nat := if f = 2 then 4 else if f = 3 then 3 else 2

/-- Bytes on the wire of a frame with an AVTP payload: at least 64 bytes, with preamble, SFD and gap (R166). -/
def wireBytes (payload : Nat) : Nat := max 64 (14 + 4 + payload + 4) + 20

/-- Packets a second of a class (R159). -/
def classRate (c : Nat) : Nat := if c = 0 then 8000 else 4000

/-- Bits on the wire of an AAF packet of n samples a channel, and of a CRF PDU (R166). -/
def aafBits (c : AvtpCfg) (n : Nat) : Nat := wireBytes (24 + c.channels.toNat * n * formatBytes c.format.toNat) * 8
def crfBits (c : CrfCfg) : Nat := wireBytes (20 + 8 * c.tsPerPdu.toNat) * 8

/-- The frequency of the MCG that a CRF stream names. -/
def crfHz (s : State) (c : CrfCfg) : Nat := mcgHz (s.mcg c.mcg.toNat).mult (s.mcg c.mcg.toNat).family

/-- Bandwidth of a stream in b/s (R166): a CRF talker sends a PDU for every TS_INTERVAL·TS_PER_PDU edges of its MCG; a rate that is no whole
number of packets counts as the next whole one (log entry 128). -/
def streamBits (s : State) : StreamCfg → Nat
  | .aaf c =>
    let r := classRate c.cls.toNat
    aafBits c ((nsrRate c.nsr.toNat + r - 1) / r) * r
  | .crf c =>
    let d := max 1 (c.tsInterval.toNat * c.tsPerPdu.toNat)
    crfBits c * ((crfHz s c + d - 1) / d)

/-- Port, class of a stream's configuration. -/
def StreamCfg.port : StreamCfg → Nat
  | .aaf c => c.port.toNat
  | .crf c => c.port.toNat
def StreamCfg.cls : StreamCfg → Nat
  | .aaf c => c.cls.toNat
  | .crf c => c.cls.toNat

/-- The stream_id and the destination of a stream: sent by a talker, matched and accepted by a listener (Table 6.4). -/
def StreamCfg.streamId : StreamCfg → DWord
  | .aaf c => c.streamId
  | .crf c => c.streamId
def StreamCfg.dest : StreamCfg → BitVec 48
  | .aaf c => c.destMac
  | .crf c => c.destMac

/-- The rate whose boundaries a stream starts and stops at (R169): that of its samples, or for a CRF talker its MCG's edges. A CRF listener has
none and starts and stops at once (log entry 135). -/
def streamRate (s : State) (talker : Bool) : StreamCfg → Option Nat
  | .aaf c => some (nsrRate c.nsr.toNat)
  | .crf c => if talker then some (crfHz s c) else none

/-- A boundary of a stream is not after the present time. -/
def reached (s : State) (x : Stream) (b : Int) : Bool :=
  match x.cfg.bind (streamRate s true) with
  | some fs => !boundaryAfter s fs b s.now 0
  | none => true

/-- A stream counts as running from the acceptance of its start to the boundary of its stop (log entry 135). -/
def streamHeld (s : State) (x : Stream) : Bool := x.state ≠ 0 && !x.stopB.any (reached s x)

/-- A stream runs: its start has taken effect, its stop has not (R169). -/
def streamOn (s : State) (x : Stream) : Bool := streamHeld s x && x.startB.all (reached s x)

/-- A boundary lies between a stream's start and its stop. -/
def withinStream (x : Stream) (b : Int) : Bool := x.startB.all (fun a => decide (a ≤ b)) && x.stopB.all (fun a => decide (b < a))

/-- Bandwidth of a class's running talkers on a port, in b/s. -/
def classLoad (s : State) (p c : Nat) : Nat :=
  (s.eth.talkers.map fun x => match x.cfg with
    | some g => if streamHeld s x && g.port = p && g.cls = c then streamBits s g else 0
    | none => 0).sum

/-- idleSlope of a class of a port in b/s. -/
def idleOf (q : EthPort) (c : Nat) : Nat := 1000 * (if c = 0 then q.idleA else q.idleB)

/-- A stream in some direction runs on a port. -/
def streamsOn (s : State) (p : Nat) : Bool :=
  (s.eth.talkers ++ s.eth.listeners).any fun x => streamHeld s x && (match x.cfg with | some g => decide (g.port = p) | none => false)

/-- The IDs of a stream. -/
def streamIds (x : Stream) : Nat × Nat :=
  match x.cfg with
  | some (.aaf c) => (c.base.toNat, c.channels.toNat)
  | _ => (0, 0)

/-- Another stream of the list shares an ID with a range. -/
def idsTaken (l : List Stream) (k base n : Nat) : Bool :=
  (List.range l.length).any fun j => j ≠ k &&
    (let (b, m) := streamIds (nth l j)
     base < b + m && b < base + n)

/-! Commands of ports and streams. -/

/-- A port's link falls or rises, with event 0x0201 (R171). -/
def setLink (p : Nat) (up : Bool) (cause : Nat) (s : State) : State :=
  if (s.ethPort p).link = up then s
  else record 0x0201 (ownerOf s 0x0B p) [(1, p), (1, bit up), (1, cause)]
    (modEthPort p (fun q => { clearQueues q with link := up, asCapable := false, lostResponses := 0, req := none, resp := none }) s)

def ethPortStatusM (port : Byte) : Meaning where
  effect := fun _ s =>
    let q := s.ethPort port.toNat
    (s, .ok, le 1 (bit q.link) ++ le 1 q.mode ++ le 2 0 ++ leBits 4 q.rxFrames ++ leBits 4 q.rxFcsErr ++ leBits 4 q.rxDropped ++
      leBits 4 q.txFrames ++ leBits 4 q.ringDropped)

def execEthPortStatus (r : Req) (port : Byte) (s : State) : Out := fin (submit (.ethPortStatus r port) (ethPortStatusM port) s)

/-- FORMAT, NSR, CHANNELS and BASE of R157 and R158. -/
def badAvtp (c : AvtpCfg) : Bool :=
  c.format.toNat < 2 || 4 < c.format.toNat || c.nsr.toNat < 4 || 9 < c.nsr.toNat || c.channels = 0 || 32 < c.channels.toNat ||
  c.base.toNat < 0x100 || 0x300 < c.base.toNat + c.channels.toNat

/-- A configured stream slot, its counters at zero (R170). -/
def freshStream (c : StreamCfg) : Stream := { cfg := some c }

def avtpTalkerConfigM (c : AvtpCfg) : Meaning where
  checks := fun s => [(.range, badAvtp c || 1 < c.cls.toNat || c.presOffset = 0 || 1024 < c.presOffset.toNat),
    (.busy, streamHeld s (s.stream true c.stream.toNat)),
    (.noResource, idsTaken s.eth.talkers c.stream.toNat c.base.toNat c.channels.toNat)]
  effect := fun _ s => (modStream true c.stream.toNat (fun _ => freshStream (.aaf c)) s, .ok, [])

def execAvtpTalkerConfig (r : Req) (c : AvtpCfg) (s : State) : Out :=
  fin (submit (.avtpTalkerConfig r c) (avtpTalkerConfigM c) s)

def avtpListenerConfigM (c : AvtpCfg) : Meaning where
  checks := fun s => [(.range, badAvtp c || c.cls ≠ 0 || c.presOffset ≠ 0),
    (.busy, streamHeld s (s.stream false c.stream.toNat)),
    (.noResource, idsTaken s.eth.listeners c.stream.toNat c.base.toNat c.channels.toNat)]
  effect := fun _ s => (modStream false c.stream.toNat (fun _ => freshStream (.aaf c)) s, .ok, [])

def execAvtpListenerConfig (r : Req) (c : AvtpCfg) (s : State) : Out :=
  fin (submit (.avtpListenerConfig r c) (avtpListenerConfigM c) s)

def crfConfigM (c : CrfCfg) : Meaning where
  checks := fun s => [
    (.range, 1 < c.dir.toNat || (c.dir = 0 && 1 < c.cls.toNat) || c.tsPerPdu = 0 || 8 < c.tsPerPdu.toNat || c.baseFreq = 0 ||
      2 ^ 29 ≤ c.baseFreq.toNat || c.tsInterval = 0),
    (.busy, streamHeld s (s.stream (c.dir = 0) c.stream.toNat))]
  effect := fun _ s => (modStream (c.dir = 0) c.stream.toNat (fun _ => freshStream (.crf c)) s, .ok, [])

def execCrfConfig (r : Req) (c : CrfCfg) (s : State) : Out := fin (submit (.crfConfig r c) (crfConfigM c) s)

/-- The first boundary of a stream at or after now (R169). -/
def streamBoundary (s : State) (talker : Bool) (g : StreamCfg) : Option Int :=
  (streamRate s talker g).map fun fs => boundaryFrom s fs s.now

/-- AVTP_STREAM_START (R169, Note 2 of Table 6.3): the stream starts at its first sample boundary, or for CRF the first edge,
at or after now. -/
def avtpStreamStartM (r : Req) (dir stream : Byte) : Meaning where
  checks := fun s =>
    let x := s.stream (dir = 0) stream.toNat
    [(.range, 1 < dir.toNat || (match x.cfg with
        | some g => (s.ethPort g.port).mode = 0 || ownerOf s 0x0B g.port ≠ r.tenant
        | none => true)),
     (.busy, streamHeld s x),
     (.noResource, dir = 0 && (match x.cfg with
        | some g => decide (idleOf (s.ethPort g.port) g.cls < classLoad s g.port g.cls + streamBits s g)
        | none => false)),
     (.notSynced, !s.last.valid)]
  effect := fun _ s =>
    let first := (s.stream (dir = 0) stream.toNat).cfg.bind (streamBoundary s (dir = 0))
    (modStream (dir = 0) stream.toNat (fun x => { x with
      state := if dir = 0 then 1 else 2, startB := first, stopB := none, firstB := first.getD 0, nextSend := s.last.cycles
      collected := [], buf := [], next := none, seq := none, crfLast := none }) s, .ok, [])

def execAvtpStreamStart (r : Req) (dir stream : Byte) (s : State) : Out :=
  fin (submit (.avtpStreamStart r dir stream) (avtpStreamStartM r dir stream) s)

/-- A stream idle. -/
def stopStream (x : Stream) : Stream :=
  { x with state := 0, buf := [], collected := [], next := none, seq := none, startB := none, stopB := none, crfLast := none }

/-- A stream that is to stop at a boundary, or at once where it has none or has already stopped. -/
def stopAt (b : Option Int) (held : Bool) (x : Stream) : Stream :=
  match b with
  | some k => if held then { x with stopB := some (match x.stopB with | some j => min j k | none => k) } else x
  | none => stopStream x

/-- AVTP_STREAM_STOP: the stream stops at its first sample boundary at or after now (R169). -/
def avtpStreamStopM (dir stream : Byte) : Meaning where
  checks := fun _ => [(.range, 1 < dir.toNat)]
  effect := fun _ s =>
    let x := s.stream (dir = 0) stream.toNat
    (modStream (dir = 0) stream.toNat (stopAt (x.cfg.bind (streamBoundary s (dir = 0))) (streamHeld s x)) s, .ok, [])

def execAvtpStreamStop (r : Req) (dir stream : Byte) (s : State) : Out :=
  fin (submit (.avtpStreamStop r dir stream) (avtpStreamStopM dir stream) s)

def avtpStreamStatusM (dir stream : Byte) : Meaning where
  checks := fun _ => [(.range, 1 < dir.toNat)]
  effect := fun _ s =>
    let x := s.stream (dir = 0) stream.toNat
    let crf := dir = 1 && (match x.cfg with | some (.crf _) => true | _ => false)
    (s, .ok, le 1 (if streamOn s x then x.state else 0) ++ le 3 0 ++ leBits 4 x.packets ++ leBits 4 x.late ++ leBits 4 x.early ++ leBits 4 x.seqGaps ++
      leBits 4 x.bad ++ leInt 4 (if crf then x.crfPpb else 0) ++ leInt 4 (if crf then x.crfPhase else 0))

def execAvtpStreamStatus (r : Req) (dir stream : Byte) (s : State) : Out :=
  fin (submit (.avtpStreamStatus r dir stream) (avtpStreamStatusM dir stream) s)

def cbsConfigM (port : Byte) (idleA idleB : Word) : Meaning where
  checks := fun s =>
    let p := port.toNat
    [(.range, decide (3 * portRate (s.ethPort p).mode < 4 * (idleA.toNat + idleB.toNat))),
     (.busy, decide (1000 * idleA.toNat < classLoad s p 0) || decide (1000 * idleB.toNat < classLoad s p 1))]
  effect := fun _ s => (modEthPort port.toNat (fun q => { q with idleA := idleA.toNat, idleB := idleB.toNat }) s, .ok, [])

def execCbsConfig (r : Req) (port : Byte) (idleA idleB : Word) (s : State) : Out :=
  fin (submit (.cbsConfig r port idleA idleB) (cbsConfigM port idleA idleB) s)

def ethRxFilterM (ports actions rlog2 : Byte) (base : DWord) : Meaning where
  checks := fun _ => [(.range, 15 < ports.toNat || 7 < actions.toNat || rlog2 = 0 || 10 < rlog2.toNat || base.toNat % 2048 ≠ 0)]
  effect := fun _ s => ({ s with eth := { s.eth with
    rxPorts := BitVec.ofNat 4 ports.toNat, rxActions := BitVec.ofNat 3 actions.toNat, rxLog2 := rlog2.toNat, rxBase := base
    rxIndex := 0 } }, .ok, [])

def execEthRxFilter (r : Req) (ports actions rlog2 : Byte) (base : DWord) (s : State) : Out :=
  fin (submit (.ethRxFilter r ports actions rlog2 base) (ethRxFilterM ports actions rlog2 base) s)

/-! gPTP: roles, BMCA (R149 to R156). -/

/-- A PTP Port in domain 0 or the extra one. -/
def ptpRole (q : EthPort) (extra : Bool) : PtpRole := if extra then q.d1 else q.d0

def modRole (p : Nat) (extra : Bool) (f : PtpRole → PtpRole) (s : State) : State :=
  modEthPort p (fun q => if extra then { q with d1 := f q.d1 } else { q with d0 := f q.d0 }) s

def ptpDomain (s : State) (extra : Bool) : PtpDomain := if extra then s.eth.dom1 else s.eth.dom0

def modDomain (extra : Bool) (f : PtpDomain → PtpDomain) (s : State) : State :=
  if extra then { s with eth := { s.eth with dom1 := f s.eth.dom1 } } else { s with eth := { s.eth with dom0 := f s.eth.dom0 } }

/-- A domain is served. -/
def domainOn (s : State) (extra : Bool) : Bool := s.eth.gptp.mode ≠ 0 && (!extra || s.eth.gptp.domain1 ≠ 0)

/-- The slave port of a domain. -/
def slavePort (s : State) (extra : Bool) : Option Nat := (List.range 4).find? fun p => (ptpRole (s.ethPort p) extra).role = 2

/-- The order of IEEE 802.1AS vectors: a is better than b, or equal. -/
def betterVector (a b : Vector802) : Bool :=
  let la := [a.priority1, a.clockClass, a.accuracy, a.variance, a.priority2, a.gmId.toNat, a.steps, a.sender.toNat, a.senderPort]
  let lb := [b.priority1, b.clockClass, b.accuracy, b.variance, b.priority2, b.gmId.toNat, b.steps, b.sender.toNat, b.senderPort]
  decide (la ≤ lb)

/-- The instance's own vector; an instance that is not grandmaster-capable has priority1 255. -/
def ownVector (s : State) : Vector802 :=
  let g := s.eth.gptp
  { priority1 := if g.gmCapable then g.priority1 else 255, clockClass := g.clockClass, accuracy := g.accuracy, variance := g.variance
    priority2 := g.priority2, gmId := g.clockId, steps := 0, sender := g.clockId, senderPort := 0 }

/-- The best of the ports' vectors, with its port. -/
def bestPort (s : State) (extra : Bool) : List Nat → Option (Nat × Vector802)
  | [] => none
  | p :: l =>
    let x := ptpRole (s.ethPort p) extra
    match (if x.set = some 0 && portUp s p && (s.ethPort p).asCapable then x.best else none), bestPort s extra l with
    | some v, some (q, w) => if betterVector v w then some (p, v) else some (q, w)
    | some v, none => some (p, v)
    | none, r => r

/-- A role set with event 0x0202 when it changes; a port that takes the slave role starts its count of R156. -/
def setRole (p : Nat) (extra : Bool) (role : Nat) (s : State) : State :=
  let old := (ptpRole (s.ethPort p) extra).role
  if old = role then s
  else record 0x0202 (ownerOf s 0x0B p) [(1, p), (1, bit extra), (1, old), (1, role)]
    (modRole p extra (fun x => { x with
      role, lost := false, logSync := none, waiting := none, lastSync := if role = 2 then some s.last.cycles else none }) s)

/-- The grandmaster of a domain set, with event 0x0204 when it changes. -/
def setGm (extra : Bool) (gm : DWord) (steps : Nat) (s : State) : State :=
  let old := (ptpDomain s extra).gm
  let s := modDomain extra (fun d => { d with gm, steps }) s
  if old = gm then s else record 0x0204 engineTag [(1, bit extra), (8, gm.toNat)] s

/-- SRC follows the slave role that BMCA moved away from the port `old`, or gave where none had it (R155). -/
def followSource (extra : Bool) (old : Option Nat) (s : State) : State :=
  match slavePort s extra with
  | some q =>
    let src := s.last.src.toNat
    if s.eth.gptp.mode = 2 && old ≠ some q && 0x10 ≤ src && src < 0x14 && src ≠ 0x10 + q && s.last.domain.toNat = bit extra then
      record 0x0203 engineTag [(1, src - 0x10), (1, q)] (modLast (fun l => { l with src := byteOf (0x10 + q) }) s)
    else s
  | none => s

/-- The role BMCA gives a port, `best` being the port of the domain's best vector and `gm` that vector. -/
def bmcaRole (s : State) (extra : Bool) (best : Option Nat) (gm : Vector802) (p : Nat) : Nat :=
  let x := ptpRole (s.ethPort p) extra
  if (s.ethPort p).mode = 0 then 0
  else match x.set with
  | some 1 => 1
  | some 0 =>
    if !(portUp s p && (s.ethPort p).asCapable) then 0
    else if best = some p then 2
    else
      let mine := { gm with steps := gm.steps + 1, sender := s.eth.gptp.clockId, senderPort := p + 1 }
      (match x.best with
       | some v => if betterVector mine v then 1 else 3
       | none => 1)
  | _ => 0

/-- BMCA of a domain: roles, the grandmaster, and the servo's source (R152, R155). -/
def runBmca (extra : Bool) (s : State) : State :=
  let own := ownVector s
  let (best, gm) := match bestPort s extra [0, 1, 2, 3] with
    | some (p, v) => if betterVector own v then (none, own) else (some p, v)
    | none => (none, own)
  let roles := (List.range 4).map (bmcaRole s extra best gm)
  let old := slavePort s extra
  let s := (List.range 4).foldl (fun s p => setRole p extra (nth roles p) s) s
  followSource extra old (setGm extra gm.gmId (if best.isSome then gm.steps + 1 else 0) s)

/-- The roles of static mode. -/
def staticRoles (extra : Bool) (s : State) : State :=
  let s := (List.range 4).foldl (fun s p =>
    let role := match (ptpRole (s.ethPort p) extra).set with
      | some 1 => 1
      | some 2 => 2
      | _ => 0
    setRole p extra (if (s.ethPort p).mode = 0 then 0 else role) s) s
  match slavePort s extra with
  | some _ => s
  | none => setGm extra s.eth.gptp.clockId 0 s

/-- Roles of one domain after a change. -/
def refreshRoles (extra : Bool) (s : State) : State :=
  if !domainOn s extra then (List.range 4).foldl (fun s p => setRole p extra 0 s) s
  else if s.eth.gptp.mode = 1 then staticRoles extra s else runBmca extra s

/-- Roles of both domains after a change. -/
def bothRoles (s : State) : State := refreshRoles true (refreshRoles false s)

/-- asCapable as measured, BMCA run again when it changes (R152). -/
def setCapable (p : Nat) (b : Bool) (s : State) : State :=
  if (s.ethPort p).asCapable = b then s
  else
    let s := modEthPort p (fun q => { q with asCapable := b }) s
    if s.eth.gptp.mode = 2 then bothRoles s else s

/-- ETH_PORT_CONFIG; a change of MODE takes the link down, for a cause the manual does not code (log entry 3). IDLE_A and IDLE_B stay, and the bound
of R165 is not judged again (log entry 127). -/
def ethPortConfigM (port mode : Byte) (vid : Half) (mac : BitVec 48) : Meaning where
  checks := fun s => [(.range, 2 < mode.toNat || vid = 0 || 4094 < vid.toNat || mac.getLsbD 0),
    (.busy, (s.ethPort port.toNat).mode ≠ mode.toNat && streamsOn s port.toNat)]
  effect := fun _ s =>
    let p := port.toNat
    let s := if (s.ethPort p).mode ≠ mode.toNat && (s.ethPort p).link then
        let (v, s) := drawFree s
        setLink p false (v.toNat % 256) s
      else s
    (bothRoles (modEthPort p (fun q => { q with
      mode := mode.toNat, vid := vid.toNat, mac := some mac, rxFrames := 0, rxFcsErr := 0, rxDropped := 0, txFrames := 0
      ringDropped := 0 }) s), .ok, [])

def execEthPortConfig (r : Req) (port mode : Byte) (vid : Half) (mac : BitVec 48) (s : State) : Out :=
  fin (submit (.ethPortConfig r port mode vid mac) (ethPortConfigM port mode vid mac) s)

/-- asCapable: always on enabled ports in static mode (R152). -/
def asCapableOf (s : State) (p : Nat) : Bool :=
  let q := s.ethPort p
  q.mode ≠ 0 && (s.eth.gptp.mode = 1 || (s.eth.gptp.mode = 2 && q.asCapable))

def badGptp (c : GptpCfg) : Bool :=
  let out := fun (b : Byte) (lo hi : Int) => decide (b.toInt < lo) || decide (hi < b.toInt)
  2 < c.mode.toNat || 127 < c.domain1.toNat || out c.logSync (-7) 0 || out c.logPdelay (-3) 3 || out c.logAnnounce (-3) 3 ||
  c.syncTimeout.toNat < 2 || 10 < c.syncTimeout.toNat || c.announceTimeout.toNat < 2 || 10 < c.announceTimeout.toNat ||
  c.pdelayThresh = 0 || 100000 < c.pdelayThresh.toNat || c.clockId = 0 || c.clockId = BitVec.allOnes 64

def gptpConfigM (c : GptpCfg) : Meaning where
  checks := fun _ => [(.range, badGptp c)]
  effect := fun _ s =>
    let g : GptpSet := {
      mode := c.mode.toNat, domain1 := c.domain1.toNat, priority1 := c.priority1.toNat, priority2 := c.priority2.toNat
      clockClass := c.clockClass.toNat, accuracy := c.clockAccuracy.toNat, variance := c.logVariance.toNat
      logSync := c.logSync.toInt, logPdelay := c.logPdelay.toInt, logAnnounce := c.logAnnounce.toInt
      syncTimeout := c.syncTimeout.toNat, announceTimeout := c.announceTimeout.toNat, gmCapable := c.flags.getLsbD 0
      timeSource := c.timeSource, pdelayThresh := c.pdelayThresh.toNat, clockId := c.clockId }
    let drop := fun (x : PtpRole) => { x with best := none, lastAnn := none, waiting := none }
    let mode := decide (g.mode ≠ s.eth.gptp.mode)
    let dom := mode || decide (g.domain1 ≠ s.eth.gptp.domain1)
    let s := { s with eth := { s.eth with gptp := g, ports := s.eth.ports.map fun q => { q with
      d0 := if mode then drop q.d0 else q.d0, d1 := if dom then drop q.d1 else q.d1 } } }
    (bothRoles s, .ok, [])

def execGptpConfig (r : Req) (c : GptpCfg) (s : State) : Out := fin (submit (.gptpConfig r c) (gptpConfigM c) s)

/-- A second slave port in a named domain (R152). -/
def secondSlave (s : State) (p : Nat) (domains : Byte) : Bool :=
  (List.range 4).any fun q => q ≠ p &&
    ((domains.getLsbD 0 && (s.ethPort q).d0.set = some 2) || (domains.getLsbD 1 && (s.ethPort q).d1.set = some 2))

def gptpPortRoleM (port role domains : Byte) : Meaning where
  checks := fun s => [(.range, 3 < role.toNat || 3 < domains.toNat || (role = 0 && s.eth.gptp.mode ≠ 2) ||
    (role = 2 && (s.eth.gptp.mode ≠ 1 || secondSlave s port.toNat domains)))]
  effect := fun _ s =>
    let set := fun (extra : Bool) (s : State) =>
      refreshRoles extra (modRole port.toNat extra (fun x => { x with set := some role.toNat }) s)
    let s := if domains.getLsbD 0 then set false s else s
    (if domains.getLsbD 1 then set true s else s, .ok, [])

def execGptpPortRole (r : Req) (port role domains : Byte) (s : State) : Out :=
  fin (submit (.gptpPortRole r port role domains) (gptpPortRoleM port role domains) s)

/-- SYNC_AGE in us. -/
def syncAge (s : State) (extra : Bool) : Nat :=
  match slavePort s extra with
  | some p =>
    let x := ptpRole (s.ethPort p) extra
    (match x.lastSync, x.logSync with
     | some c, some _ => min ((s.last.cycles - c) / 500) 0xFFFFFFFE
     | _, _ => 0xFFFFFFFF)
  | none => 0xFFFFFFFF

/-- GPTP_STATUS; the grandmaster behind a static slave port is not known, so GM_ID is then a free value (log entry 3). -/
def gptpStatusM (domain : Byte) : Meaning where
  effect := fun _ s =>
    let extra := domain = 1
    let roles := (List.range 4).flatMap fun p => le 1 (ptpRole (s.ethPort p) extra).role
    let d := ptpDomain s extra
    let hidden := s.eth.gptp.mode = 1 && (slavePort s extra).isSome
    let (v, s) := if hidden then drawFree s else (d.gm, s)
    let (k, s) := if hidden then drawFree s else (BitVec.ofNat 64 d.steps, s)
    let cap := ((List.range 4).map fun p => if asCapableOf s p then 2 ^ p else 0).sum
    let lost := match slavePort s extra with
      | some p => (ptpRole (s.ethPort p) extra).lost
      | none => false
    (s, .ok, roles ++ leBits 8 v ++ le 2 k.toNat ++ le 1 cap ++ le 1 (bit lost) ++
      ((List.range 4).flatMap fun p => leInt 4 ((s.ethPort p).linkDelay / 65536)) ++ le 4 (syncAge s extra) ++ le 4 0)

def execGptpStatus (r : Req) (domain : Byte) (s : State) : Out := fin (submit (.gptpStatus r domain) (gptpStatusM domain) s)

/-! gPTP messages. Times in 2^-16 ns. -/

/-- A PTP timestamp with a correction in 2^-16 ns. -/
def ptpTime (seconds : BitVec 48) (ns : Word) : Int := ((seconds.toNat * 1000000000 + ns.toNat : Nat) : Int) * 65536

/-- Master ports of a domain that can send. -/
def masterPorts (s : State) (extra : Bool) : List Nat :=
  (List.range 4).filter fun p => (ptpRole (s.ethPort p) extra).role = 1 && portSends s p && asCapableOf s p

/-- The most a relay holds a Sync, 500 us in 2^-16 ns (R153). -/
def relayBound : Nat := 500000 * 65536

/-- The number of a domain, and the domain of a number that is served (R149). -/
def domainNumber (s : State) (extra : Bool) : Nat := if extra then s.eth.gptp.domain1 else 0
def domainOf (s : State) (n : Byte) : Option Bool :=
  if n = 0 then (if domainOn s false then some false else none)
  else if n.toNat = s.eth.gptp.domain1 && domainOn s true then some true else none

/-- The port identity of ETHp (R151), and the head of a message it sends in a domain. -/
def portId (s : State) (p : Nat) : PortId := { clock := s.eth.gptp.clockId, port := BitVec.ofNat 16 (p + 1) }
def ptpHead (s : State) (p : Nat) (extra : Bool) (seq : Half) : PtpHead := { port := p, domain := domainNumber s extra, source := portId s p, seq }

/-- Bits on the wire of the gPTP messages, with preamble, SFD, FCS and gap. -/
def syncBits : Nat := 84 * 8
def followUpBits : Nat := 114 * 8
def announceBits : Nat := 114 * 8
def pdelayBits : Nat := 92 * 8

/-- Send Sync and Follow_Up on a master port: the origin in whole ns, its correction, and the cumulative rate offset in 2^-41 (R150, R153,
R154). -/
def sendSync (extra : Bool) (p : Nat) (origin correction rate : Int) (s : State) : State :=
  let h := ptpHead s p extra (ptpDomain s extra).syncSeq
  sendPtp p followUpBits (.ethFollowUp h origin.toNat correction rate) (sendPtp p syncBits (.ethSync h) s)

/-- A duration in this clock's units in those of the grandmaster, the rate ratio being the neighbour's with the cumulative offset of the
upstream in 2^-41 added to it (R153, log entry 28). -/
def inGmTime (ratio : Int × Nat) (rate x : Int) : Int := x * ratio.1 / (max 1 ratio.2 : Nat) + x * rate / 2 ^ 41

/-- A duration in the neighbour's units in this clock's. -/
def inOwnTime (ratio : Int × Nat) (x : Int) : Int := if ratio.1 ≤ 0 then x else x * ratio.2 / ratio.1

/-- The cumulative rate offset this engine sends on, in 2^-41: the upstream's and that of the neighbour. -/
def rateOn (ratio : Int × Nat) (rate : Int) : Int := rate + (ratio.1 - (max 1 ratio.2 : Nat)) * 2 ^ 41 / (max 1 ratio.2 : Nat)

/-- Relay a Sync to one master port, at an instant of its own that is free within the bound of R153 and not before its line is free (log
entry 125). `now` is the time of the TIME cycle in which the Sync was complete. -/
def relaySync (p : Nat) (extra : Bool) (now rx : Time) (origin correction rate : Int) (s : State) (m : Nat) : State :=
  let (v, s) := drawFree s
  let wait := max (ofFrac ((v.toNat % relayBound : Nat) : Int)) (lineWait s m * stepUnits s.last.rateEff)
  let tx := now + ofPs (txCorr s m) + wait
  let r := (s.ethPort p).ratio
  sendSync extra m (origin / 65536)
    (correction + inGmTime r rate (fracOf (tx - rx) + inOwnTime r (s.ethPort p).linkDelay)) (rateOn r rate) s

/-- A Sync with its origin and correction is complete at the slave port: a servo sample, and the relay to the master ports, whose residence time
is counted on the timescale of its reception (R153, R155). -/
def syncComplete (p : Nat) (extra : Bool) (rx : Time) (origin correction rate : Int) (s : State) : State :=
  let now := s.now
  let off := rx - ofFrac (origin + correction + (s.ethPort p).linkDelay)
  let s := if s.last.src.toNat = 0x10 + p && s.last.domain.toNat = bit extra then servoSample off s else s
  let s := modDomain extra (fun x => { x with syncSeq := x.syncSeq + 1 }) s
  (masterPorts s extra).foldl (relaySync p extra now rx origin correction rate) s

/-- SYNC (R155, R156). -/
def execSync (p : Fin 4) (m : SyncMsg) (s : State) : Out :=
  if !portUp s p then .next s
  else
    let s := countRx p s
    match domainOf s m.domain with
    | none => .next s
    | some extra =>
      if (ptpRole (s.ethPort p) extra).role ≠ 2 then .next s
      else
        let rx := rxStamp s p m.tap
        let s := modRole p extra (fun x => { x with
          lastSync := some s.last.cycles, logSync := some m.logInterval.toInt, lost := false
          waiting := if m.twoStep then some (m.seq, rx, m.correction.toInt) else none }) s
        if m.twoStep then .next s
        else fin (syncComplete p extra rx (ptpTime m.seconds m.ns) m.correction.toInt m.rateOffset.toInt s)

/-- FOLLOW_UP of the Sync it follows (R150, R153). -/
def execFollowUp (p : Fin 4) (m : FollowUpMsg) (s : State) : Out :=
  if !portUp s p then .next s
  else
    let s := countRx p s
    match domainOf s m.domain with
    | none => .next s
    | some extra =>
      match (ptpRole (s.ethPort p) extra).waiting with
      | some (q, rx, corr) =>
        if q ≠ m.seq || (ptpRole (s.ethPort p) extra).role ≠ 2 then .next s
        else
          fin (syncComplete p extra rx (ptpTime m.seconds m.ns) (corr + m.correction.toInt) m.rateOffset.toInt
            (modRole p extra (fun x => { x with waiting := none }) s))
      | none => .next s

/-- ANNOUNCE: processed in BMCA mode only; one from this instance or through 255 steps is not qualified (R152). -/
def execAnnounce (p : Fin 4) (m : AnnounceMsg) (s : State) : Out :=
  if !portUp s p then .next s
  else
    let s := countRx p s
    match domainOf s m.domain with
    | none => .next s
    | some extra =>
    if s.eth.gptp.mode ≠ 2 || m.sourceId = s.eth.gptp.clockId || 255 ≤ m.steps.toNat || !(s.ethPort p).asCapable then .next s
    else
      let v : Vector802 := {
        priority1 := m.priority1.toNat, clockClass := m.clockClass.toNat, accuracy := m.clockAccuracy.toNat
        variance := m.logVariance.toNat, priority2 := m.priority2.toNat, gmId := m.gmId, steps := m.steps.toNat
        sender := m.sourceId, senderPort := m.sourcePort.toNat }
      let old := ptpRole (s.ethPort p) extra
      let keep := match old.best with
        | some b => b.sender ≠ v.sender || b.senderPort ≠ v.senderPort
        | none => false
      let worse := match old.best with
        | some b => keep && betterVector b v
        | none => false
      if worse then .next s
      else fin (runBmca extra (modRole p extra (fun x => { x with
        best := some v, lastAnn := some s.last.cycles, logAnn := some m.logInterval.toInt }) s))

/-- The mean link delay from an exchange, (r·(t4 − t1) − (t3 − t2))/2, r the neighbour's rate ratio (R149). -/
def linkDelayOf (r : Int × Nat) (t1 t2 t3 t4 : Int) : Int := ((t4 - t1) * r.1 / (max 1 r.2 : Nat) - (t3 - t2)) / 2

/-- PDELAY: a request is answered, a response to this port's request measured (R149, R152). The turnaround of the answer is free within 10 ms, and
not before the line is free; each stamp goes out in whole ns with its fraction in the correctionField (R147). -/
def execPdelay (p : Fin 4) (m : PdelayMsg) (s : State) : Out :=
  if !portUp s p then .next s
  else
    let s := countRx p s
    if s.eth.gptp.mode = 0 then .next s
    else match m with
      | .request seq asked tap =>
        if !portSends s p then .next s
        else
          let t2 := fracOf (rxStamp s p tap)
          let (v, s) := drawFree s
          let t3 := max (t2 + ((v.toNat % (10000000 * 65536) : Nat) : Int)) (fracOf (sendStamp s p 0))
          let h := ptpHead s p false seq
          .next (sendPtp p pdelayBits (.ethPdelayFollowUp h asked (t3 / 65536).toNat (t3 % 65536))
            (sendPtp p pdelayBits (.ethPdelayResp h asked (t2 / 65536).toNat (t2 % 65536)) s))
      | .response seq asked seconds ns correction tap =>
        match (s.ethPort p).req with
        | some (q, _) =>
          if q = seq && asked = portId s p then
            .next (modEthPort p (fun x => { x with
              resp := some (seq, ptpTime seconds ns + correction.toInt, fracOf (rxStamp s p tap)) }) s)
          else .next s
        | none => .next s
      | .responseFollowUp seq asked seconds ns correction =>
        match (s.ethPort p).req, (s.ethPort p).resp with
        | some (q, t1), some (q', t2, t4) =>
          if q ≠ seq || q' ≠ seq || asked ≠ portId s p then .next s
          else
            let t3 := ptpTime seconds ns + correction.toInt
            let ratio := match (s.ethPort p).respPrev with
              | some (a3, a4) => if a4 < t4 then (t3 - a3, (t4 - a4).toNat) else (s.ethPort p).ratio
              | none => (s.ethPort p).ratio
            let d := linkDelayOf ratio t1 t2 t3 t4
            fin (setCapable p (decide (d ≤ (s.eth.gptp.pdelayThresh * 65536 : Nat))) (modEthPort p (fun x => { x with
              req := none, resp := none, respPrev := some (t3, t4), ratio, linkDelay := d, lostResponses := 0 }) s))
        | _, _ => .next s

/-- The engine is grandmaster of a domain: it has no slave port that still hears its upstream (R154, R156). -/
def isGrandmaster (s : State) (extra : Bool) : Bool :=
  domainOn s extra && (match slavePort s extra with
    | some p => s.eth.gptp.mode = 1 && (ptpRole (s.ethPort p) extra).lost
    | none => s.eth.gptp.mode = 1 || (s.eth.gptp.gmCapable && (ptpDomain s extra).gm = s.eth.gptp.clockId))

/-- SYNC_INTERVAL: the grandmaster sends Sync and Follow_Up on each master port while VALID is 1 (R154). -/
def execSyncInterval (extra : Bool) (s : State) : Out :=
  if !isGrandmaster s extra || !s.last.valid then .next s
  else
    let s := modDomain extra (fun d => { d with syncSeq := d.syncSeq + 1 }) s
    .next ((masterPorts s extra).foldl (fun s p =>
      let (v, s) := drawFree s
      let t := fracOf (sendStamp s p (v.toNat % 8))
      sendSync extra p (t / 65536) (t % 65536) 0 s) s)

/-- PDELAY_INTERVAL: a peer delay request goes out; the tap of its stamp is free. After more than 9 requests without an answer the
port is not asCapable (log entry 28). -/
def execPdelayInterval (p : Fin 4) (s : State) : Out :=
  if s.eth.gptp.mode = 0 || !portSends s p then .next s
  else
    let lost := if (s.ethPort p).req.isSome then (s.ethPort p).lostResponses + 1 else (s.ethPort p).lostResponses
    let s := modEthPort p (fun x => { x with lostResponses := lost }) s
    let s := if 9 < lost then setCapable p false s else s
    let (v, s) := drawFree s
    let q := (s.ethPort p).pdelaySeq + 1
    let t1 := fracOf (sendStamp s p (v.toNat % 8))
    .next (sendPtp p pdelayBits (.ethPdelayReq (ptpHead s p false q))
      (modEthPort p (fun x => { x with pdelaySeq := q, req := some (q, t1), resp := none }) s))

/-- The vector a domain's master ports announce: that of the slave port one step on, or the instance's own (R152). -/
def announced (s : State) (extra : Bool) : Vector802 :=
  match (slavePort s extra).bind fun p => (ptpRole (s.ethPort p) extra).best with
  | some v => { v with steps := v.steps + 1, sender := s.eth.gptp.clockId, senderPort := 0 }
  | none => ownVector s

/-- ANNOUNCE_INTERVAL: in BMCA mode Announce goes out on each master port, with TIME_SOURCE as given (R152, Table 6.4). -/
def execAnnounceInterval (extra : Bool) (s : State) : Out :=
  if s.eth.gptp.mode ≠ 2 || !domainOn s extra then .next s
  else
    let s := modDomain extra (fun d => { d with annSeq := d.annSeq + 1 }) s
    .next ((masterPorts s extra).foldl (fun s p =>
      sendPtp p announceBits (.ethAnnounce (ptpHead s p extra (ptpDomain s extra).annSeq)
        { announced s extra with senderPort := p + 1 } s.eth.gptp.timeSource) s) s)

/-- TIME cycles of 2^log s, 500 MHz. -/
def intervalCycles (log : Int) : Nat := if 0 ≤ log then 500000000 * 2 ^ log.toNat else 500000000 / 2 ^ (-log).toNat

/-- SYNC_RECEIPT_TIMEOUT (R156, R478). -/
def execSyncReceiptTimeout (p : Fin 4) (extra : Bool) (s : State) : Out :=
  let x := ptpRole (s.ethPort p) extra
  let span := s.eth.gptp.syncTimeout * intervalCycles (x.logSync.getD s.eth.gptp.logSync)
  match x.lastSync with
  | some c =>
    if !domainOn s extra || x.role ≠ 2 || x.lost || s.last.cycles < c + span then .next s
    else
      let s := record 0x0205 (ownerOf s 0x0B p) [(1, p), (1, bit extra)] (modRole p extra (fun x => { x with lost := true }) s)
      fin (if s.last.src.toNat = 0x10 + p && s.last.domain.toNat = bit extra then sourceLostOp s else s)
  | none => .next s

/-- ANNOUNCE_RECEIPT_TIMEOUT: BMCA runs again without the port's vector (R156). -/
def execAnnounceReceiptTimeout (p : Fin 4) (extra : Bool) (s : State) : Out :=
  let x := ptpRole (s.ethPort p) extra
  match x.lastAnn with
  | some c =>
    if s.eth.gptp.mode ≠ 2 || !domainOn s extra ||
        s.last.cycles < c + s.eth.gptp.announceTimeout * intervalCycles (x.logAnn.getD s.eth.gptp.logAnnounce) then .next s
    else
      fin (runBmca extra (record 0x0206 (ownerOf s 0x0B p) [(1, p), (1, bit extra)]
        (modRole p extra (fun x => { x with best := none, lastAnn := none }) s)))
  | none => .next s

/-! Links and frames (R146, R167, R168, R171). -/

/-- What a port's PCS report makes of its link in a mode (R146): SGMII is up at 1,000 Mb/s only, 2500BASE-X by code groups alone. -/
def linkAfter (mode : Nat) : LinkReport → Option Bool
  | .autoNeg mbps up => if mode = 1 then some (up && mbps = 1000) else none
  | .codeGroups sync => if mode = 2 then some sync else none

/-- ETH_LINK_CHANGE (R146, R171). -/
def execEthLinkChange (p : Fin 4) (report : LinkReport) (cause : Byte) (s : State) : Out :=
  match linkAfter (s.ethPort p).mode report with
  | none => .next s
  | some up =>
    let s := setLink p up cause.toNat s
    fin (if s.eth.gptp.mode = 2 then bothRoles s else s)

/-- The frame's kind is enabled in ACTIONS; a frame of two kinds, multicast and unmatched AVTP, needs one of them enabled (R167, log entry 129). -/
def wanted (s : State) (p : Nat) (f : EthFrame) : Bool :=
  s.eth.rxPorts.getLsbD p && s.eth.rxBase ≠ 0 && f.bytes.length ≤ 1522 &&
  ((s.eth.rxActions.getLsbD 0 && some f.dest = (s.ethPort p).mac) || (s.eth.rxActions.getLsbD 1 && f.dest.getLsbD 0) ||
   (s.eth.rxActions.getLsbD 2 && f.etherType = 0x22F0))

/-- 01-80-C2-00-00-0E, first byte sent least significant. -/
def ptpDest : BitVec 48 := 0x0E0000C28001

/-- An AVTP frame of a running listener on the port. -/
def listenerFor (s : State) (p : Nat) (f : EthFrame) : Bool :=
  f.etherType = 0x22F0 && s.eth.listeners.any fun x => streamOn s x && (match x.cfg with
    | some g => decide (g.port = p) && g.streamId = f.streamId && g.dest = f.dest
    | none => false)

/-- The FLAGS word of a ring slot that holds a frame: OWN, the port, the length with its FCS (Table 6.2). -/
def ringFlags (p len : Nat) : List Byte := le 1 1 ++ le 1 p ++ le 2 len

/-- ETH_FRAME_RX: a frame classified in the order of R167; gPTP messages and packets of a listener have commands of their own. -/
def execEthFrameRx (p : Fin 4) (f : EthFrame) (s : State) : Out :=
  if !portUp s p then .next s
  else
    let s := countRx p s
    if !f.fcsOk then .next (modEthPort p (fun q => { q with rxFcsErr := q.rxFcsErr + 1 }) s)
    else if (f.etherType = 0x88F7 && f.dest = ptpDest) || listenerFor s p f then .next s
    else if !wanted s p f then .next (modEthPort p (fun q => { q with rxDropped := q.rxDropped + 1 }) s)
    else if f.ownSet || !f.ringUp || !viaUp s .pcie || isFenced s 18 then
      fin (record 0x0220 (ownerOf s 0x0B p) [(1, p)] (modEthPort p (fun q => { q with ringDropped := q.ringDropped + 1 }) s))
    else
      let slot := s.eth.rxBase + BitVec.ofNat 64 (2048 * s.eth.rxIndex)
      .next (emit (.hostWrite slot (ringFlags p f.bytes.length))
        (emit (.hostWrite (slot + 4) (le 4 0 ++ stampBytes (stampOf (rxStamp s p f.tap)) ++ f.bytes))
          { s with eth := { s.eth with rxIndex := (s.eth.rxIndex + 1) % 2 ^ s.eth.rxLog2 } }))

/-! AVTP (R160 to R164). -/

/-- P as the time near t_rx whose low 32 bits match the timestamp (R161), in whole ns. -/
def presentation (rx : Time) (ts : Word) : Int :=
  let base := ceilDiv (rx - ofNs (2 ^ 31)) nsU
  base + ((ts.toNat : Int) - base) % 2 ^ 32

/-- Samples put at consecutive boundaries from b; a boundary already filled keeps what it has (R162, step 5). -/
def placeSamples (b : Int) : List (List Word) → List (Int × List Word) → List (Int × List Word)
  | [], buf => buf
  | x :: l, buf => placeSamples (b + 1) l (if buf.any (fun y => y.1 = b) then buf else buf ++ [(b, x)])

/-- The samples of an AAF payload, a list of channels for each boundary, each in the high bytes of its word (R157). -/
def samplesOf (width channels : Nat) (payload : List Byte) : List (List Word) :=
  (List.range (payload.length / max 1 (width * channels))).map fun i => (List.range channels).map fun c =>
    BitVec.ofNat 32 (unle ((slice payload ((i * channels + c) * width) width).reverse) * 2 ^ (32 - 8 * width))

/-- The payload of an AAF packet: the high bytes of each sample, most significant first (R157). -/
def payloadOf (width : Nat) (samples : List (List Word)) : List Byte :=
  samples.flatMap fun l => l.flatMap fun w => (le 4 w.toNat).reverse.take width

/-- A gap in sequence_num (R162): any number but the next one is a gap, of the packets between them modulo 256 (log entry 126). -/
def seqGap (k : Nat) (seq : Byte) (s : State) : State :=
  let x := s.stream false k
  let s' := modStream false k (fun x => { x with seq := some seq }) s
  match x.seq with
  | some q =>
    if seq = q + 1 then s'
    else record 0x0212 (ownerOf s 0x0D k) [(1, k), (2, (seq - q - 1).toNat)]
      (modStream false k (fun x => { x with seqGaps := x.seqGaps + 1 }) s')
  | none => s'

/-- Judge an AAF packet by steps 3 to 5 of R162, its first sample at boundary b. -/
def judgePacket (k fs : Nat) (rx : Time) (b : Int) (samples : List (List Word)) (s : State) : State :=
  let who := ownerOf s 0x0D k
  let s := modStream false k (fun x => { x with state := 1, next := some (b + samples.length) }) s
  if boundaryBefore s fs b rx 2 then
    let late := roundUp ((rx - s.audio.grid) * fs + 2 * secondU - b * secondU) (fs * nsU)
    record 0x0210 who [(1, k), (4, late.toNat)] (modStream false k (fun x => { x with late := x.late + 1 }) s)
  else if boundaryAfter s fs (b + samples.length - 1) rx 128 then
    record 0x0211 who [(1, k)] (modStream false k (fun x => { x with early := x.early + 1 }) s)
  else
    modStream false k (fun x => { x with
      packets := x.packets + 1, buf := placeSamples b samples x.buf }) s

/-- A CRF listener measures stamps against the Last (R163, R164): the frequency offset from the last stamp of the PDU before, when this one
follows it, or else from its own first, to its last; the phase of the last from the nearest boundary of BASE_FREQ (log entry 133). -/
def measureCrf (c : CrfCfg) (s : State) (first : Option DWord) (stamps : List DWord) (x : Stream) : Stream :=
  let all := first.toList ++ stamps
  match all.head?, all.getLast? with
  | some a, some b =>
    let t0 := ofNs (a.toNat : Int)
    let t := ofNs (b.toNat : Int)
    { x with
      crfLast := some b
      crfPpb := if t0 < t then freqPpb c.baseFreq.toNat t0 t ((all.length - 1) * c.tsInterval.toNat) else x.crfPpb
      crfPhase := roundAway (phaseOf s c.baseFreq.toNat t) 65536 }
  | _, _ => x

/-- AVTP_PACKET: a listener judges a packet whole (R161 to R164). A frame to another destination is not its own, and a CRF PDU of a type other
than AUDIO_SAMPLE is bad (R157, log entry 134). -/
def execAvtpPacket (k : Fin 64) (m : AvtpPkt) (s : State) : Out :=
  let x := s.stream false k
  match x.cfg with
  | none => .next s
  | some g =>
    if !streamOn s x || !portUp s g.port || m.dest ≠ g.dest then .next s
    else
      let s := countRx g.port s
      let rx := rxStamp s g.port m.tap
      let bad := modStream false k (fun x => { x with bad := x.bad + 1 }) s
      match g with
      | .crf c =>
        if m.crfType ≠ 1 then fin bad
        else
          let before := if x.seq = some (m.seq - 1) then x.crfLast else none
          let s := seqGap k m.seq s
          fin (modStream false k (fun x => measureCrf c s before m.stamps { x with state := 1, packets := x.packets + 1 }) s)
      | .aaf c =>
        if m.format ≠ c.format || m.nsr ≠ c.nsr || m.channels ≠ c.channels then fin bad
        else
          let fs := nsrRate c.nsr.toNat
          let samples := samplesOf (formatBytes c.format.toNat) c.channels.toNat m.payload
          let s := seqGap k m.seq s
          if m.tv then fin (judgePacket k fs rx (boundaryFrom s fs (ofNs (presentation rx m.timestamp))) samples s)
          else match x.next with
            | some b => fin (judgePacket k fs rx b samples s)
            | none => fin s

/-- The TIME cycles of a class's interval: 125 and 250 us (R159). -/
def classCycles (c : Nat) : Nat := if c = 0 then 62500 else 125000

/-- The frame a talker sends: its addresses, priority 3 or 2 by class, the port's VID (R159). -/
def talkerFrame (s : State) (k : Nat) (g : StreamCfg) (body : AvBody) : AvFrame where
  port := g.port
  stream := k
  dest := g.dest
  source := (s.ethPort g.port).mac.getD 0
  priority := if g.cls = 0 then 3 else 2
  vid := (s.ethPort g.port).vid
  streamId := g.streamId
  seq := (s.stream true k).sent
  body := body

/-- A talker's frame goes into the queue of its class; a port that may not send takes none (R148, R165, R171). -/
def sendTalker (k : Nat) (g : StreamCfg) (bits : Nat) (body : AvBody) (s : State) : State :=
  if !portSends s g.port then s
  else queueFrame g.port g.cls bits (talkerFrame s k g body) (modStream true k (fun x => { x with sent := x.sent + 1 }) s)

/-- AVTP_TALKER_INTERVAL: once the class's interval has passed, a packet with every sample whose boundary fell in it (R159, R160). -/
def execAvtpTalkerInterval (k : Fin 64) (s : State) : Out :=
  let x := s.stream true k
  match x.cfg with
  | some (.aaf c) =>
    if x.state ≠ 1 || x.collected = [] || s.last.cycles < x.nextSend then .next s
    else
      let n : Int := x.collected.length
      let step := classCycles c.cls.toNat
      let next := if s.last.cycles < x.nextSend + step then x.nextSend + step else s.last.cycles + step
      .next (sendTalker k (.aaf c) (aafBits c x.collected.length)
        (.aaf true c.format c.nsr c.channels (BitVec.ofInt 32 (boundaryNs s (nsrRate c.nsr.toNat) x.firstB c.presOffset.toNat))
          (payloadOf (formatBytes c.format.toNat) x.collected))
        (modStream true k (fun x => { x with collected := [], firstB := x.firstB + n, nextSend := next }) s))
  | _ => .next s

/-- The stamp of an edge of a synthesised MCG clock in ns (R163, R246). -/
def crfStamp (s : State) (hz : Nat) (j : Int) : DWord :=
  BitVec.ofInt 64 (nsOf (ofQuarter (roundEarly (s.audio.grid * hz + j * secondU) (hz * (nsU / 4)))))

/-- The stamp of an edge of an external clock that lies `age` 0.25 ns before this TIME cycle (R163, R247). -/
def edgeStampNs (s : State) (age : Nat) : DWord := BitVec.ofInt 64 (nsOf (ofQuarter (quarterOf s.now - age)))

/-- CRF_PDU_SEND: TS_PER_PDU stamps, in the Last, of every TS_INTERVAL-th edge of the MCG (R163). The edges of a synthesising MCG are those of its
grid; of a measuring one's the row gives the ages. -/
def execCrfPduSend (pdu : CrfPdu) (s : State) : Out :=
  let k := pdu.stream
  let x := s.stream true k
  match x.cfg with
  | some (.crf c) =>
    let g := s.mcg c.mcg.toNat
    let hz := crfHz s c
    let n := c.tsPerPdu.toNat
    let step := c.tsInterval.toNat
    let lastEdge := x.firstB + ((n - 1) * step : Nat)
    if x.state ≠ 1 || !streamOn s x || g.mode = 0 || (g.mode = 1 && boundaryAfter s hz lastEdge s.now 0) ||
        (g.mode = 2 && pdu.ages.length ≠ n) then .next s
    else
      let stamps := if g.mode = 1 then (List.range n).map fun i => crfStamp s hz (x.firstB + (i * step : Nat))
        else pdu.ages.map (edgeStampNs s)
      .next (sendTalker k (.crf c) (crfBits c) (.crf 1 c.baseFreq c.tsInterval stamps)
        (modStream true k (fun x => { x with firstB := x.firstB + (n * step : Nat) }) s))
  | _ => .next s

end Sys2Proof.Machine
end

