-- ==== Sys2Proof/Machine/Audio.lean ====
section
/-! DEFINITION. Audio ports and media clock generators (09): fades, FIFOs, slips, the frame events and the commands of group
0x05. -/

namespace Sys2Proof.Machine

/-! Fades (R257 to R259). -/

/-- 2^80·π, rounded down. -/
def pi80 : Int := 3797952473636338580787993

/-- Terms of the cosine series with alternating signs: x²·t/((2n+1)(2n+2)), in 2^-80. -/
def cosGo : Nat → Int → Int → Nat → Int → Int
  | 0, _, _, _, acc => acc
  | f + 1, x2, t, n, acc =>
    let t' := -(t * x2 / 2 ^ 80) / ((2 * n + 1) * (2 * n + 2) : Nat)
    cosGo f x2 t' (n + 1) (acc + t')

/-- cos(π·a/b) in 2^-80. -/
def cosPi (a b : Nat) : Int :=
  let x := pi80 * a / b
  cosGo 28 (x * x / 2 ^ 80) (2 ^ 80) 0 (2 ^ 80)

/-- g_out(i) of a fade of N steps, as a Q1.31 value rounded to nearest (R257). -/
def gainOut (n i : Nat) : Int := min (2 ^ 31 - 1) (roundAway (2 ^ 80 + cosPi (i + 1) n) (2 ^ 50))

/-- g_in(i) of a fade of N steps, as a Q1.31 value rounded to nearest (R257). -/
def gainIn (n i : Nat) : Int := min (2 ^ 31 - 1) (roundAway (2 ^ 80 - cosPi (i + 1) n) (2 ^ 50))

/-- A sample times a Q1.31 gain, rounded to nearest with ties away from zero (R257). -/
def scaleBy (g : Int) (x : Word) : Word := BitVec.ofInt 32 (roundAway (g * x.toInt) (2 ^ 31))

/-- A fade-out is triggered (R259): from full gain at step 0, from a ramp-in at the smallest j with g_out(j) no greater than
the present gain; a fade in progress goes on, and a waiting ramp-in is cancelled. -/
def fadeOut (n : Nat) (f : Fade) : Fade :=
  match f.st with
  | .pass => { f with st := .out, step := 0, again := false }
  | .rampIn => { f with st := .out, step := n - 1 - f.step, again := false }
  | _ => { f with again := false }

/-- A ramp-in is triggered (R259). -/
def rampIn (f : Fade) : Fade :=
  match f.st with
  | .silent => { f with st := .rampIn, step := 0 }
  | .out => { f with again := true }
  | _ => f

/-- One boundary of a channel with a fade of N steps: the sample taken there, or none, and what the channel gives. -/
def fadeStep (n : Nat) (x : Option Word) (f : Fade) : Word × Fade :=
  let v := x.getD f.held
  let f := { f with held := v }
  match f.st with
  | .pass => (v, f)
  | .silent => (0, f)
  | .out =>
    let f' := if f.step + 1 < n then { f with step := f.step + 1 }
      else if f.again then { f with st := .rampIn, step := 0, again := false } else { f with st := .silent, step := 0 }
    (scaleBy (gainOut n f.step) v, f')
  | .rampIn =>
    let f' := if f.step + 1 < n then { f with step := f.step + 1 } else { f with st := .pass, step := 0 }
    (scaleBy (gainIn n f.step) v, f')

/-- A channel that no audio port carries (R258): it underruns at a boundary without a sample and ramps in at the first with
one, over 64 steps. -/
def fadeChannel (x : Option Word) (f : Fade) : Word × Fade :=
  fadeStep 64 x (if x.isSome then rampIn f else fadeOut 64 f)

/-! Ports: settings. -/

/-- The ratio f_m/fs of a MULT code and a rate code (Table 9.3). -/
def mcgRatio (mult rate : Nat) : Nat := 256 * 2 ^ mult / 2 ^ rate

/-- A port drives its own clocks. -/
def isMaster (c : AportCfg) : Bool := c.role = 0

/-- A master port on a synthesising MCG, whose frames lie on the grid (R248, R255). -/
def onGrid (s : State) (q : Aport) : Bool :=
  match q.cfg with
  | some c => isMaster c && (s.mcg q.mcg).mode = 1
  | none => false

/-- FADE_LEN, PREROLL and POSTROLL, 0 selecting 64 (Table 9.7). -/
def fadeLen (q : Aport) : Nat := match q.cfg with | some c => if c.fadeLen = 0 then 64 else c.fadeLen.toNat | none => 64
def prerollLen (c : AportCfg) : Nat := if c.preroll = 0 then 64 else c.preroll.toNat
def postrollLen (c : AportCfg) : Nat := if c.postroll = 0 then 64 else c.postroll.toNat

/-- The sample rate of a port. -/
def portFs (q : Aport) : Nat := fsOf q.family q.rate

/-- The slots of a mask, upward: channel n is the slot of the n-th set bit (R252). -/
def maskSlots (m : Word) : List Nat := (List.range 32).filter fun b => m.getLsbD b

/-- The number of channels of a mask. -/
def maskCount (m : Word) : Nat := (maskSlots m).length

/-- Channel c differs in its slot between two masks, or exists under only one (R268). -/
def affected (old new : Word) (c : Nat) : Bool := (maskSlots old)[c]? ≠ (maskSlots new)[c]?

/-- The port's own settings break R250, for a family, an MCG multiplier and a rate. -/
def badFrame (c : AportCfg) (family mult rate : Nat) : Bool :=
  let fb := c.frameBits.toNat
  !([32, 64, 128, 256, 512, 1024].contains fb) || c.slotWidth < c.word ||
  (if c.format = 2 then fb < c.slots.toNat * c.slotWidth.toNat else c.slots ≠ 2 || fb / 2 < c.slotWidth.toNat) ||
  49152000 < fsOf family rate * fb ||
  (isMaster c && mcgRatio mult rate < fb)

/-- The ranges of Table 9.7. -/
def badAport (c : AportCfg) : Bool :=
  2 < c.format.toNat || 1 < c.role.toNat || 2 < c.rate.toNat || c.slots = 0 || 32 < c.slots.toNat ||
  !([16, 24, 32].contains c.slotWidth.toNat) || !([16, 20, 24, 32].contains c.word.toNat) ||
  c.dIn.toNat < 2 || 32 < c.dIn.toNat || c.dOut.toNat < 2 || 32 < c.dOut.toNat || c.preroll = 1 || c.postroll = 1 ||
  (c.fadeLen ≠ 0 && (c.fadeLen.toNat < 8 || 1024 < c.fadeLen.toNat))

/-! Frames on the balls (R249, R251, R253, Table 9.4). -/

/-- FLAGS of APORT_CONFIG. -/
def mclkOut (c : AportCfg) : Bool := c.flags.getLsbD 0
def bclkInv (c : AportCfg) : Bool := c.flags.getLsbD 1
def fsInv (c : AportCfg) : Bool := c.flags.getLsbD 2

/-- The start bit of slot 0, and the bit clocks from the start of a slot to that of the next. -/
def slotDelay (c : AportCfg) : Nat := if c.format = 0 then 1 else if c.format = 1 then 0 else bit (c.flags.getLsbD 3)
def slotSpan (c : AportCfg) : Nat := if c.format = 2 then c.slotWidth.toNat else c.frameBits.toNat / 2

/-- The bit clock of a frame at which bit i of slot k lies, modulo FRAME_BITS. -/
def slotBit (c : AportCfg) (k i : Nat) : Nat := (slotDelay c + k * slotSpan c + i) % c.frameBits.toNat

/-- The slot and the bit of it that lie at bit clock j of a frame. -/
def slotAt (c : AportCfg) (j : Nat) : Option (Nat × Nat) :=
  let off := (j + c.frameBits.toNat - slotDelay c) % c.frameBits.toNat
  let k := off / slotSpan c
  let i := off % slotSpan c
  if k < c.slots.toNat && i < c.slotWidth.toNat then some (k, i) else none

/-- The word of slot k on APn_SDI, MSB first, as Q1.31: WORD bits at the top, the rest zero (R249, R254). -/
def wordIn (c : AportCfg) (sdi : List Bool) (k : Nat) : Word :=
  BitVec.ofNat 32 (((List.range c.word.toNat).map fun i => bit (sdi.getD (slotBit c k i) false) * 2 ^ (31 - i)).sum)

/-- The level of APn_FS at bit clock j of a frame: active is high, and FS_INV inverts it (Table 9.4, log entry 85). -/
def fsLevel (c : AportCfg) (j : Nat) : Bool :=
  (match c.format.toNat with
   | 0 => decide (c.frameBits.toNat / 2 ≤ j)
   | 1 => decide (j < c.frameBits.toNat / 2)
   | _ => decide (j = 0)) ^^ fsInv c

/-- Data is sampled on the rising edge of APn_BCLK and changes on the falling one, or with BCLK_INV the other way about (R249). -/
def samplesRising (c : AportCfg) : Bool := !bclkInv c

/-- A Q1.31 value rounded to WORD bits, at the top of the slot: half a least significant bit added, truncated, saturated at
the largest positive word (R254). -/
def wordOut (width : Nat) (x : Word) : Word :=
  let u := 2 ^ (32 - width)
  let v := (x.toInt + (u / 2 : Nat)) / u
  BitVec.ofInt 32 (min v (2 ^ (width - 1) - 1) * u)

/-! FIFOs and slips (R255, R256, R267). -/

/-- Trigger a fade-out on every channel of a direction. -/
def fadeAll (n : Nat) (q : PortFifo) : PortFifo := { q with fades := q.fades.map (fadeOut n) }

/-- Trigger a ramp-in on the channels below a count. -/
def rampAll (count : Nat) (q : PortFifo) : PortFifo :=
  { q with fades := q.fades.mapIdx fun c f => if c < count then rampIn f else f }

/-- No channel of the direction fades out. -/
def fadesEnded (q : PortFifo) : Bool := q.fades.all fun f => f.st ≠ .out

/-- A direction with nothing in it, every channel silent. -/
def emptyFifo : PortFifo := {}

/-- Trigger a ramp-in on the channels below a count that a change of mask affects (R268). -/
def rampAffected (old new : Word) (q : PortFifo) : PortFifo :=
  { q with fades := q.fades.mapIdx fun c f => if c < maskCount new && affected old new c then rampIn f else f }

/-- The direction of a port: transmit or receive. -/
def setDir (tx : Bool) (f : PortFifo → PortFifo) (q : Aport) : Aport :=
  if tx then { q with outp := f q.outp } else { q with inp := f q.inp }

/-- A direction of a port. -/
def dirOf (tx : Bool) (q : Aport) : PortFifo := if tx then q.outp else q.inp

/-- An underrun slip of a direction (R267), direction 0 transmit, 1 receive: its FIFO has nothing left. -/
def slipUnder (p : Nat) (tx : Bool) (s : State) : State :=
  record 0x0501 (ownerOf s 0x09 p) [(1, p), (1, bit !tx)] (modAport p (fun q =>
    setDir tx (fun d => { fadeAll (fadeLen q) d with frames := [], reading := false, slip := true, overrun := false })
      { q with underruns := q.underruns + 1 }) s)

/-- An overrun slip of a direction; one in progress goes on (R267). -/
def slipOver (p : Nat) (tx : Bool) (s : State) : State :=
  let d := if tx then (s.aport p).outp else (s.aport p).inp
  if d.overrun then s
  else record 0x0502 (ownerOf s 0x09 p) [(1, p), (1, bit !tx)] (modAport p (fun q =>
    setDir tx (fun d => { fadeAll (fadeLen q) d with overrun := true }) { q with overruns := q.overruns + 1 }) s)

/-- The writer of a direction: the FIFO takes nothing while either side of it is in reset (R74); while the reader is not reading, the newest
frames up to its depth are kept; a frame that finds 2·D is discarded (R256, R267). -/
def writeFifo (p : Nat) (tx : Bool) (depth : Nat) (frame : Word × List Word) (s : State) : State :=
  let d := dirOf tx (s.aport p)
  if !domainUp s 2 || !domainUp s (8 + p) then s
  else if !d.reading then
    modAport p (setDir tx (fun d => { d with frames := (d.frames ++ [frame]).drop (d.frames.length + 1 - depth) })) s
  else if 2 * depth ≤ d.frames.length then slipOver p tx s
  else modAport p (setDir tx (fun d => { d with frames := d.frames ++ [frame] })) s

/-- One reading of a direction: the frame taken, or none. Reading begins when the fill reaches the depth and no fade-out of a slip runs, and
the channels then ramp in; channels that a new receive mask affects ramp in at its first frame (R267, R268). While the port stops nothing
ramps in. -/
def readFifo (p : Nat) (tx : Bool) (depth : Nat) (s : State) : Option (List Word) × State :=
  let q := s.aport p
  let d := dirOf tx q
  if !d.reading && (d.frames.length < depth || !fadesEnded d) then (none, s)
  else match d.frames with
    | [] => (none, slipUnder p tx s)
    | (m, fr) :: rest =>
      let ramp := fun (d : PortFifo) =>
        if q.st = 3 then d
        else
          let d := if d.reading then d else rampAll (maskCount (if tx then q.txMask else m)) d
          if tx then d else rampAffected d.mask m d
      (some fr, modAport p (setDir tx fun d => { ramp d with reading := true, slip := false, frames := rest, mask := m }) s)

/-- What the channels of a direction give for a frame or for none, with their fades one step on. -/
def fadeFrame (n : Nat) (fr : Option (List Word)) (fs : List Fade) : List (Word × Fade) :=
  fs.mapIdx fun c f => fadeStep n (fr.map fun l => nth l c) f

/-- The values of a port's receive channels at a boundary of Prism, with the port's input side one boundary on (R257, R258). -/
def takeInput (p : Nat) (s : State) : List Word × State :=
  let q := s.aport p
  match q.cfg with
  | none => ([], s)
  | some c =>
    if !(q.st = 2 || q.st = 5 || (q.st = 3 && q.stopping)) then ([], s)
    else
      let (fr, s) := readFifo p false c.dIn.toNat s
      let l := fadeFrame (fadeLen q) fr (s.aport p).inp.fades
      (l.map (fun x => x.1), modAport p (fun q => { q with inp := { q.inp with fades := l.map (fun x => x.2) } }) s)

/-- Prism's samples for a port's transmit channels at a boundary go into its output FIFO (R255). -/
def giveOutput (p : Nat) (frame : List Word) (s : State) : State :=
  match (s.aport p).cfg with
  | none => s
  | some c => writeFifo p true c.dOut.toNat (0, frame) s

/-! States of a port (R265 to R270). -/

/-- The bits of APn_SDO in a frame: the words of the channels, MSB first and zero after WORD, in the slots of the mask, every other bit time
high impedance (R249, R253). -/
def sdoFrame (c : AportCfg) (mask : Word) (vals : List Word) : List (Option Bool) :=
  let words := (maskSlots mask).mapIdx fun n b => (b, wordOut c.word.toNat (nth vals n))
  (List.range c.frameBits.toNat).map fun j =>
    match slotAt c j with
    | some (k, i) => if mask.getLsbD k then some (decide (i < c.word.toNat) && ((assoc words k).getD 0).getLsbD (31 - i)) else none
    | none => none

/-- Pre-roll begins at a frame start: zeros are sent, the input is discarded (R265). -/
def beginPreroll (c : AportCfg) (q : Aport) : Aport :=
  { q with st := 1, startReq := false, clocks := true, left := prerollLen c, stopping := false, recv := none, low := false
           inp := emptyFifo, outp := { emptyFifo with frames := q.outp.frames } }

/-- The port is stopped: its clocks rest, APn_SDO is high impedance (R266). -/
def portStopped (q : Aport) : Aport :=
  { q with st := 0, startReq := false, stopReq := false, change := none, clocks := false, stopping := false, left := 0
           inp := emptyFifo, outp := emptyFifo, recv := none, frameB := none, low := false, sdo := []
           locked := false, goodRun := 0, drift := 0, meas := none, lastSync := none }

/-- APORT_STOP acts: fade-outs of both directions, then the post-roll; at once during pre-roll (R266, R270). -/
def actStop (c : AportCfg) (q : Aport) : Aport :=
  let q := { q with stopReq := false, change := none }
  if q.st = 1 then { q with st := 3, left := postrollLen c, stopping := false }
  else if q.st = 2 || q.st = 5 then
    { q with st := 3, stopping := true, inp := fadeAll (fadeLen q) q.inp, outp := fadeAll (fadeLen q) q.outp }
  else q

/-- A requested change acts: the channels it affects fade out (R268, R269). -/
def actChange (q : Aport) : Aport :=
  let n := fadeLen q
  let hit := fun (old new : Word) (d : PortFifo) =>
    { d with fades := d.fades.mapIdx fun c f => if affected old new c then fadeOut n f else f }
  match q.change with
  | some (.mask tx rx false) =>
    if q.st = 2 then
      { q with st := 5, change := some (.mask tx rx true), outp := hit q.txMask tx q.outp, inp := hit q.rxMask rx q.inp }
    else q
  | some (.rate m r fam false) =>
    if q.st = 2 then
      { q with st := 5, change := some (.rate m r fam true), outp := fadeAll n q.outp, inp := fadeAll n q.inp }
    else q
  | _ => q

/-- What acts at a frame start before the frame: a stop, else a change. -/
def actAtFrame (c : AportCfg) (q : Aport) : Aport := if q.stopReq then actStop c q else actChange q

/-- CLOCK_OK (Table 9.8): a synthesised clock runs while TIME and the Last do (R20). -/
def mcgClockOk (s : State) (m : Nat) : Bool :=
  timeUnitUp s fenceMcg && (match (s.mcg m).mode with
    | 0 => false
    | 1 => true
    | _ => (s.mcg m).clockOk && domainUp s (4 + m))

/-- MCGn_CLK: the frequency it drives in SYNTHESISE; none in MEASURE, where it is an input, and while the MCG does not run (R247). -/
def mcgOut (s : State) (m : Nat) : Option Nat :=
  if (s.mcg m).mode = 1 && mcgClockOk s m then some (mcgHz (s.mcg m).mult (s.mcg m).family) else none

/-- APn_MCLK: with MCLK_OUT the clock of the port's MCG, whether or not the port runs (R251). -/
def apMclk (s : State) (p : Nat) : Option Nat :=
  match (s.aport p).cfg with
  | some c => if mclkOut c && mcgClockOk s (s.aport p).mcg && domainUp s (8 + p) then
      some (mcgHz (s.mcg (s.aport p).mcg).mult (s.mcg (s.aport p).mcg).family) else none
  | none => none

/-- APn_BCLK of a master port on a synthesising MCG: fs·FRAME_BITS while it runs (R251). -/
def apBclk (s : State) (p : Nat) : Option Nat :=
  match (s.aport p).cfg with
  | some c => if (s.aport p).clocks && onGrid s (s.aport p) then some (portFs (s.aport p) * c.frameBits.toNat) else none
  | none => none

/-- The clock of port p runs, a slave port holds lock, and no fence withdraws the port (Table 3.6, R20, R260); with CORE lost the frames go on,
and the port fades out on its underrun (Table 3.6). -/
def frameOk (s : State) (p : Nat) (c : AportCfg) : Bool :=
  domainUp s (8 + p) && !isFenced s fenceAport && !isFenced s fencePrism && !isFenced s fenceMirror &&
    (if isMaster c then mcgClockOk s (s.aport p).mcg else (s.aport p).locked)

/-- The boundary at which a frame of a port on the grid begins now: it lies at the ball within 2.0 ns of it (R251). -/
def portBoundary (s : State) (q : Aport) : Int := boundaryUpTo s (portFs q) (s.now + ofNs 2)

/-- A frame may begin: on the grid, at a boundary later than that of the last frame (R251). -/
def frameDue (s : State) (q : Aport) : Bool := !onGrid s q || q.frameB.all fun b => b < portBoundary s q

/-- The frame of a port in pre-roll, or in post-roll after its fade-outs: zeros out, the input discarded. -/
def silentFrame (c : AportCfg) (q : Aport) : Aport :=
  { q with frames := q.frames + 1, left := q.left - 1, recv := none, sdo := sdoFrame c q.txMask [] }

/-- A frame of a port that carries samples begins (R252 to R255): the input FIFO takes the input frame that ends here, and the new one is
received under the present mask (R256, R268). -/
def dataFrame (p : Nat) (c : AportCfg) (sdi : List Bool) (s : State) : State :=
  let q := s.aport p
  let s := match q.recv with
    | some fr => writeFifo p false c.dIn.toNat fr s
    | none => s
  let s := modAport p (fun q => { q with recv := some (q.rxMask, (maskSlots q.rxMask).map (wordIn c sdi)) }) s
  let (fr, s) := readFifo p true c.dOut.toNat s
  let l := fadeFrame (fadeLen q) fr (s.aport p).outp.fades
  modAport p (fun q => { q with
    frames := q.frames + 1
    sdo := sdoFrame c q.txMask (l.map fun x => x.1)
    outp := { q.outp with fades := l.map fun x => x.2 } }) s

/-- What a port does at a frame start before the frame: it starts, or what was asked of it acts. -/
def openFrame (c : AportCfg) (q : Aport) : Aport :=
  if (q.st = 0 || q.st = 4) && q.startReq && !q.stopReq then beginPreroll c q else actAtFrame c q

/-- PORT_FRAME_START: a frame of port p begins; `sdi` are the bits of the frame on APn_SDI, by bit clock. -/
def execPortFrameStart (port : Fin 8) (sdi : List Bool) (s : State) : Out :=
  let p := port.val
  match (s.aport p).cfg with
  | none => .next s
  | some c =>
    if !frameOk s p c || !frameDue s (s.aport p) then .next s
    else
      let at_ := if onGrid s (s.aport p) then some (portBoundary s (s.aport p)) else none
      let q := openFrame c (s.aport p)
      let s := modAport p (fun _ => { q with frameB := at_ }) s
      match q.st with
      | 1 => fin (modAport p (silentFrame c) s)
      | 2 => fin (dataFrame p c sdi s)
      | 5 => fin (dataFrame p c sdi s)
      | 3 => if q.stopping then fin (dataFrame p c sdi s) else fin (modAport p (silentFrame c) s)
      | _ => .next s

/-- PREROLL_END: after PREROLL frames the port sends Prism samples and writes input frames; both directions ramp in when they
are first read (R265). -/
def execPrerollEnd (port : Fin 8) (s : State) : Out :=
  let q := s.aport port.val
  if q.st = 1 && q.left = 0 then .next (modAport port.val (fun q => { q with st := 2 }) s) else .next s

/-- POSTROLL_END: after POSTROLL frames of zero the port is stopped (R266). -/
def execPostrollEnd (port : Fin 8) (s : State) : Out :=
  let q := s.aport port.val
  if q.st = 3 && !q.stopping && q.left = 0 then .next (modAport port.val portStopped s) else .next s

/-- A new mask applies to one direction once its affected channels have faded, with event 0x0505 when it differs; the change
ends when both directions have theirs (R268). -/
def applyMask (p : Nat) (tx : Bool) (s : State) : State :=
  let q := s.aport p
  match q.change with
  | some (.mask ntx nrx true) =>
    let (old, new, d) := if tx then (q.txMask, ntx, q.outp) else (q.rxMask, nrx, q.inp)
    if (List.range 32).any (fun c => affected old new c && (nth d.fades c).st = .out) then s
    else
      let q1 := if tx then { q with txMask := ntx, outp := rampAffected old ntx d } else { q with rxMask := nrx }
      let q2 := if q1.txMask = ntx && q1.rxMask = nrx then { q1 with st := 2, change := none } else q1
      let s := modAport p (fun _ => q2) s
      if old = new then s else record 0x0505 (ownerOf s 0x09 p) [(1, p), (1, bit !tx), (4, new.toNat)] s
  | _ => s

/-- The end of an overrun's fade-out: the oldest frames are discarded down to D and the channels ramp in (R267). -/
def endOverrun (p : Nat) (tx : Bool) (s : State) : State :=
  let q := s.aport p
  let d := if tx then q.outp else q.inp
  match q.cfg with
  | some c =>
    let depth := if tx then c.dOut.toNat else c.dIn.toNat
    if d.overrun && fadesEnded d then
      modAport p (setDir tx (fun d =>
        let d := { d with overrun := false, frames := d.frames.drop (d.frames.length - depth) }
        if q.st = 3 then d else rampAll (maskCount (if tx then q.txMask else q.rxMask)) d)) s
    else s
  | none => s

/-- Prism takes the input of the ports: it runs and is not gated. -/
def prismTakes (s : State) : Bool := prismUp s && !stoppedByHoldover s fencePrism && !s.prism.gated

/-- No fade-out of a port runs any more; what Prism does not take has no fade left to end. -/
def portFaded (s : State) (q : Aport) : Bool := fadesEnded q.outp && (fadesEnded q.inp || !prismTakes s)

/-- The last fade-out before a post-roll has ended: the post-roll begins, and nothing more reaches Prism (R266, R270). -/
def startPostroll (p : Nat) (s : State) : State :=
  let q := s.aport p
  match q.cfg with
  | some c =>
    if q.st = 3 && q.stopping && portFaded s q then
      modAport p (fun q => { q with stopping := false, left := postrollLen c, inp := emptyFifo, recv := none }) s
    else s
  | none => s

/-- The port's share of FADE_COMPLETE (R259, R266 to R268). -/
def portFadeDone (p : Nat) (tx : Bool) (s : State) : State := startPostroll p (endOverrun p tx (applyMask p tx s))

/-- The boundary k of the old rate lies on the grid of the new one (R269). -/
def commonBoundary (oldFs newFs : Nat) (k : Int) : Bool := k * newFs % oldFs = 0

/-- APORT_RATE_SWITCH: at the first common boundary after the fade-outs the FIFOs are emptied and the port takes the new rate
(R269). -/
def execAportRateSwitch (port : Fin 8) (s : State) : Out :=
  let p := port.val
  let q := s.aport p
  match q.cfg, q.change with
  | some c, some (.rate m r fam true) =>
    let oldFs := portFs q
    let k := boundaryUpTo s oldFs s.now
    if portFaded s q && commonBoundary oldFs (fsOf fam r) k then
      let ns := boundaryNs s oldFs k 0 % 1000000000
      let s := record 0x0504 (ownerOf s 0x09 p) [(1, p), (1, q.rate), (1, r), (4, ns.toNat)] s
      fin (modAport p (fun q =>
        let q := { q with mcg := m, rate := r, family := fam, change := none, outp := emptyFifo, recv := none, frameB := none }
        if isMaster c then beginPreroll c q
        else { q with st := 4, startReq := true, inp := emptyFifo, locked := false, goodRun := 0, meas := none }) s)
    else .next s
  | _, _ => .next s

/-! Slave role (R260). -/

/-- The port's FIFOs are in use. -/
def carries (q : Aport) : Bool := q.st = 2 || q.st = 5 || (q.st = 3 && q.stopping)

/-- A frame error: underruns in both directions of a port whose FIFOs are in use, event 0x0503, lock dropped. -/
def frameError (p bits : Nat) (s : State) : State :=
  let s := modAport p (fun q => { q with locked := false, goodRun := 0, meas := none, recv := none }) s
  let s := if carries (s.aport p) then slipUnder p false (slipUnder p true s) else s
  record 0x0503 (ownerOf s 0x09 p) [(1, p), (4, bits)] s

/-- A slave port that is configured and not stopped. -/
def slaveRuns (q : Aport) : Bool :=
  match q.cfg with
  | some c => !isMaster c && q.st ≠ 0
  | none => false

/-- The stamp of a leading edge in another domain, to 0.25 ns: its place in the TIME cycle that samples it, by the tap (R61); none while TIME
is down, which has no capture then (log entry 120). -/
def edgeStamp (s : State) (tap : Nat) : Option Time :=
  if s.last.coarse || !lastUp s then none else some (ofQuarter (quarterOf (s.now + ofPs (Config.tapMap tap))))

/-- DRIFT over each second of good frames (Table 9.8): the frame rate against the grid, in ppb. -/
def measureDrift (t : Time) (q : Aport) : Aport :=
  match q.meas with
  | none => { q with meas := some (t, 0) }
  | some (t0, n) =>
    let d := t - t0
    if d < secondU then { q with meas := some (t0, n + 1) }
    else
      { q with drift := roundAway (((n + 1 : Nat) * secondU - portFs q * d) * 1000000000) (portFs q * d.toNat)
               meas := some (t, 0) }

/-- The period between two frame syncs lies within ±2 % of 1/fs. -/
def periodOk (q : Aport) (t0 t : Time) : Bool :=
  let x := (t - t0) * portFs q * 100
  decide (98 * secondU ≤ x) && decide (x ≤ 102 * secondU)

/-- A frame of exactly FRAME_BITS bit clocks from t0 to t: it counts toward the lock when its period is good; without it a port that is not
locked counts from zero again. -/
def goodFrame (t0 t : Time) (q : Aport) : Aport :=
  if periodOk q t0 t then
    let q := measureDrift t { q with goodRun := min 4 (q.goodRun + 1) }
    if 4 ≤ q.goodRun then { q with locked := true } else q
  else if q.locked then measureDrift t q else { q with goodRun := 0 }

/-- SLAVE_FRAME_SYNC: a frame sync comes `bits` bit clocks after the one before it; its tap gives its stamp. The first one begins the first
frame. -/
def execSlaveFrameSync (port : Fin 8) (bits : Nat) (tap : Fin 8) (s : State) : Out :=
  let p := port.val
  let q := s.aport p
  match q.cfg with
  | some c =>
    let t := edgeStamp s tap.val
    let mark := modAport p fun q => { q with lastSync := t }
    if !slaveRuns q || !domainUp s (8 + p) then .next s
    else match q.lastSync, t with
      | none, _ => .next (mark s)
      | some t0, some t =>
        if bits = c.frameBits.toNat then fin (mark (modAport p (goodFrame t0 t) s)) else fin (mark (frameError p bits s))
      | some _, none => if bits = c.frameBits.toNat then .next (mark s) else fin (mark (frameError p bits s))
  | none => .next s

/-- SLAVE_FRAME_TIMEOUT: no frame sync within 2·FRAME_BITS bit clocks. -/
def execSlaveFrameTimeout (port : Fin 8) (s : State) : Out :=
  let p := port.val
  let q := s.aport p
  match q.cfg with
  | some c =>
    if slaveRuns q && domainUp s (8 + p) then
      fin (modAport p (fun q => { q with lastSync := none }) (frameError p (2 * c.frameBits.toNat) s))
    else .next s
  | none => .next s

/-! Media clock generators (R246, R247). -/

/-- The window in progress of a measuring MCG ends at this time (R247). -/
def windowEnd (m : Mcg) : Time := m.began + ofNs ((m.window * 1000000 : Nat) : Int)

/-- MCG_WINDOW_END: a measuring MCG completes its window. Of the edges it stamped in it, one in each period of the family's 1× rate, the row
gives the stamps of the first and the last in 0.25 ns and the periods between them (R247, log entry 85). -/
def execMcgWindowEnd (mcg : Fin 4) (edges : Nat) (span : EdgeSpan) (s : State) : Out :=
  let m := s.mcg mcg.val
  let t0 := ofQuarter span.first
  let t := ofQuarter span.last
  if m.mode = 2 && domainUp s (4 + mcg.val) && timeUnitUp s fenceMcg && decide (windowEnd m ≤ s.now) && decide (m.began ≤ t0) &&
      decide (t0 < t) && decide (t ≤ windowEnd m) then
    let base := fsOf m.family 0
    .next (modMcg mcg.val (fun m => { m with
      clockOk := true, ppb := freqPpb base t0 t edges, phase := phaseOf s base t, began := windowEnd m }) s)
  else .next s

/-- A running port or a CRF talker uses MCG m (Note 1 of Table 9.6). -/
def mcgUsed (s : State) (m : Nat) : Bool :=
  (s.audio.ports.any fun q => q.st ≠ 0 && q.mcg = m && (match q.cfg with | some c => isMaster c | none => false)) ||
  (s.eth.talkers.any fun x => streamHeld s x && (match x.cfg with | some (.crf c) => c.mcg.toNat = m | _ => false))

/-- The grid is in use (R245). -/
def gridUsed (s : State) : Bool :=
  (s.audio.ports.any fun q => q.st ≠ 0) || (s.eth.talkers.any fun x => streamHeld s x) ||
  (s.eth.listeners.any fun x => streamHeld s x) || (s.plink.ports.any fun x => x.rateTx ≠ 0 || x.rateRx ≠ 0) ||
  (s.lens.any fun c => c.slots.any fun x => x.st = 3 || x.st = 4)

def mcgConfigM (mcg mode family mult : Byte) (window : Half) : Meaning where
  checks := fun s =>
    [(.range, 2 < mode.toNat || 1 < family.toNat || 2 < mult.toNat ||
        (if mode = 2 then window.toNat < 10 || 10000 < window.toNat else window ≠ 0)),
     (.busy, mcgUsed s mcg.toNat)]
  effect := fun _ s =>
    let fresh := mode ≠ 0 && s.audio.mcgs.all (fun m => m.mode = 0) && !gridUsed s
    let s := modMcg mcg.toNat (fun _ =>
      { mode := mode.toNat, family := family.toNat, mult := mult.toNat, window := window.toNat, began := s.now }) s
    (if fresh then record 0x0507 engineTag [(8, 0)] { s with audio := { s.audio with grid := 0 } } else s, .ok, [])

def execMcgConfig (r : Req) (mcg mode family mult : Byte) (window : Half) (s : State) : Out :=
  fin (submit (.mcgConfig r mcg mode family mult window) (mcgConfigM mcg mode family mult window) s)

def mcgMeasureM (mcg : Byte) : Meaning where
  effect := fun _ s =>
    let m := s.mcg mcg.toNat
    let meas := m.mode = 2
    (s, .ok, le 1 m.mode ++ le 1 m.family ++ le 1 m.mult ++ le 1 (bit (mcgClockOk s mcg.toNat)) ++
      leInt 4 (if meas then m.ppb else 0) ++ leInt 8 (if meas then m.phase else 0) ++ leInt 8 (fracOf s.audio.grid))

def execMcgMeasure (r : Req) (mcg : Byte) (s : State) : Out := fin (submit (.mcgMeasure r mcg) (mcgMeasureM mcg) s)

/-! Port commands. -/

def aportConfigM (c : AportCfg) : Meaning where
  checks := fun s =>
    let m := s.mcg c.mcg.toNat
    [(.range, badAport c || m.mode = 0 || badFrame c m.family m.mult c.rate.toNat),
     (.busy, (s.aport c.port.toNat).st ≠ 0 || (s.aport c.port.toNat).startReq)]
  effect := fun _ s =>
    (modAport c.port.toNat (fun _ =>
      { cfg := some c, family := (s.mcg c.mcg.toNat).family, mcg := c.mcg.toNat, rate := c.rate.toNat }) s, .ok, [])

def execAportConfig (r : Req) (c : AportCfg) (s : State) : Out := fin (submit (.aportConfig r c) (aportConfigM c) s)

/-- What APORT_START checks of the MCG again (R263). -/
def badStart (s : State) (q : Aport) : Bool :=
  match q.cfg with
  | none => true
  | some c => isMaster c && ((s.mcg q.mcg).mode = 0 || (s.mcg q.mcg).family ≠ q.family || badFrame c q.family (s.mcg q.mcg).mult q.rate)

def aportStartM (port : Byte) : Meaning where
  checks := fun s =>
    let q := s.aport port.toNat
    [(.range, badStart s q), (.busy, q.st ≠ 0 || q.startReq)]
  effect := fun _ s =>
    (modAport port.toNat (fun q =>
      let slave := match q.cfg with | some c => !isMaster c | none => false
      { q with startReq := true, stopReq := false, st := if slave then 4 else q.st, locked := false, goodRun := 0, meas := none, lastSync := none }) s,
      .ok, [])

def execAportStart (r : Req) (port : Byte) (s : State) : Out := fin (submit (.aportStart r port) (aportStartM port) s)

/-- A stop of a port that is stopped does nothing but withdraw a start; one that waits for lock stops at once; else it acts at
the next frame start (R266). -/
def requestStop (q : Aport) : Aport :=
  if q.st = 0 then { q with startReq := false }
  else if q.st = 4 then portStopped q
  else if q.st = 3 then q
  else { q with stopReq := true }

def aportStopM (port : Byte) : Meaning where
  effect := fun _ s => (modAport port.toNat requestStop s, .ok, [])

def execAportStop (r : Req) (port : Byte) (s : State) : Out := fin (submit (.aportStop r port) (aportStopM port) s)

/-- A port in pre-roll, post-roll or a change, or about to be (Note 4 of Table 9.6). -/
def portBusy (q : Aport) : Bool := q.st = 1 || q.st = 3 || q.st = 5 || q.change.isSome || q.stopReq

def aportMaskM (port : Byte) (tx rx : Word) : Meaning where
  checks := fun s =>
    let q := s.aport port.toNat
    let past := match q.cfg with | some c => 2 ^ c.slots.toNat ≤ tx.toNat || 2 ^ c.slots.toNat ≤ rx.toNat | none => true
    [(.range, past), (.busy, portBusy q)]
  effect := fun _ s =>
    (modAport port.toNat (fun q =>
      if q.st = 2 then { q with change := some (.mask tx rx false) }
      else if q.st = 0 || q.st = 4 then { q with txMask := tx, rxMask := rx } else q) s, .ok, [])

def execAportMask (r : Req) (port : Byte) (tx rx : Word) (s : State) : Out :=
  fin (submit (.aportMask r port tx rx) (aportMaskM port tx rx) s)

def aportRateM (r : Req) (port mcg rate : Byte) : Meaning where
  holds := fun s => match (s.aport port.toNat).cfg with
    | some c => !isMaster c || ownerOf s 0x0A mcg.toNat = r.tenant.val
    | none => true
  checks := fun s =>
    let q := s.aport port.toNat
    let m := s.mcg mcg.toNat
    [(.range, 2 < rate.toNat || m.mode = 0 || (match q.cfg with | some c => badFrame c m.family m.mult rate.toNat | none => true)),
     (.busy, portBusy q)]
  effect := fun _ s =>
    let fam := (s.mcg mcg.toNat).family
    (modAport port.toNat (fun q =>
      if q.st = 2 then { q with change := some (.rate mcg.toNat rate.toNat fam false) }
      else if q.st = 0 || q.st = 4 then
        { q with mcg := mcg.toNat, rate := rate.toNat, family := fam, locked := false, goodRun := 0 }
      else q) s, .ok, [])

def execAportRate (r : Req) (port mcg rate : Byte) (s : State) : Out :=
  fin (submit (.aportRate r port mcg rate) (aportRateM r port mcg rate) s)

def aportStatusM (port : Byte) : Meaning where
  effect := fun _ s =>
    let q := s.aport port.toNat
    (s, .ok, le 1 q.st ++ le 1 (match q.cfg with | some c => c.role.toNat | none => 0) ++ le 1 q.rate ++ le 1 0 ++
      leBits 4 q.txMask ++ leBits 4 q.rxMask ++ le 1 q.inp.frames.length ++ le 1 q.outp.frames.length ++ le 2 0 ++
      leBits 4 q.underruns ++ leBits 4 q.overruns ++ leBits 4 q.frames ++ leInt 4 q.drift)

def execAportStatus (r : Req) (port : Byte) (s : State) : Out := fin (submit (.aportStatus r port) (aportStatusM port) s)

/-! What other chapters do to ports. -/

/-- Stop every port that uses MCG m, as APORT_STOP would; the MCG is disabled and its ball high impedance. -/
def stopMcg (m : Nat) (s : State) : State :=
  let s := { s with audio := { s.audio with
    ports := s.audio.ports.map fun q =>
      if q.mcg = m && (match q.cfg with | some c => isMaster c | none => false) then requestStop q else q } }
  modMcg m (fun x => { x with mode := 0, clockOk := false }) s

/-- Every port stops without post-roll (R392). -/
def stopAllPorts (s : State) : State := { s with audio := { s.audio with ports := s.audio.ports.map portStopped } }

/-- The clock of port p is lost: its outputs drive low, its FIFOs are discarded, its input channels fade as on an underrun (Table 3.6, R74). A
port in post-roll restarts with the clock, and its stop then acts again (log entry 121). -/
def portClockLost (p : Nat) (s : State) : State :=
  let q := s.aport p
  match q.cfg with
  | some c =>
    if q.st = 0 then s
    else
      let s := if carries q then slipUnder p false s else s
      modAport p (fun q => { q with
        clocks := false, locked := false, goodRun := 0, lastSync := none, meas := none, recv := none, frameB := none
        low := true, sdo := List.replicate c.frameBits.toNat (some false), stopReq := q.stopReq || q.st = 3
        outp := { q.outp with frames := [] }, inp := { q.inp with frames := [] } }) s
  | none => s

/-- The clock of port p is back: the port restarts with pre-roll (Table 3.6). -/
def portClockBack (p : Nat) (s : State) : State :=
  modAport p (fun q =>
    match q.cfg with
    | some c =>
      if q.st = 0 then q
      else if isMaster c then beginPreroll c { q with change := none }
      else if q.stopReq then portStopped q
      else { q with st := 4, startReq := true, change := none, inp := emptyFifo, outp := emptyFifo, low := false }
    | none => q) s

/-- CORE is lost: what the port FIFOs hold is discarded (R74); an output underruns at its next frame, an input starts anew when Prism reads
again (Table 3.6). -/
def dropPortFifos (s : State) : State :=
  { s with audio := { s.audio with ports := s.audio.ports.map fun q =>
      { q with inp := { emptyFifo with mask := q.inp.mask }, outp := { q.outp with frames := [] } } } }

/-- Every channel that a running port sends fades out on the reading side of its FIFO, or ramps in again (R258, R387, R392). -/
def fadePortOutputs (s : State) : State :=
  { s with audio := { s.audio with ports := s.audio.ports.map fun q => if q.st = 0 then q else { q with outp := fadeAll (fadeLen q) q.outp } } }
def rampPortOutputs (s : State) : State :=
  { s with audio := { s.audio with ports := s.audio.ports.map fun q =>
      if q.st = 2 then { q with outp := rampAll (maskCount q.txMask) q.outp } else q } }

/-- No running port's output fades out. -/
def portOutputsFaded (s : State) : Bool := s.audio.ports.all fun q => q.st = 0 || !q.clocks || fadesEnded q.outp

/-- Every channel of every running port fades out (R375). -/
def fadeAllPorts (s : State) : State :=
  { s with audio := { s.audio with ports := s.audio.ports.map fun q =>
      if q.st = 0 then q else { q with inp := fadeAll (fadeLen q) q.inp, outp := fadeAll (fadeLen q) q.outp } } }

end Sys2Proof.Machine
end

