-- ==== Sys2Proof/Machine/LensCode.lean ====
section
/-! DEFINITION. The encoding of the Lens instructions (Tables 11.5 to 11.10): a decoder of program memory words and the encoder
of each instruction, written from the same tables. -/

namespace Sys2Proof.Machine

/-- Bits hi..lo of a word. -/
def fieldOf (w : BitVec 64) (lo n : Nat) : BitVec n := w.extractLsb' lo n

/-- A value placed at a bit. -/
def at64 {n : Nat} (lo : Nat) (v : BitVec n) : BitVec 64 := BitVec.ofNat 64 (v.toNat * 2 ^ lo)

/-- A Bool placed at a bit. -/
def flag64 (lo : Nat) (b : Bool) : BitVec 64 := BitVec.ofNat 64 (bit b * 2 ^ lo)

/-- The 18 bits of a move field (Table 11.6). -/
def moveBits (m : Move) : BitVec 18 :=
  BitVec.ofNat 18 (m.kind.toNat * 2 ^ 16 + bit m.pair * 2 ^ 15 + m.reg.toNat * 2 ^ 11 + m.ptr.toNat * 2 ^ 8 +
    m.upd.toNat * 2 ^ 6 + bit m.modl * 2 ^ 5)

/-- The move a field spells; kind 3 and a pair at an odd register are no move (Table 11.6, R306). -/
def moveOf (b : BitVec 18) : Option Move :=
  let m : Move := {
    kind := b.extractLsb' 16 2, pair := b.getLsbD 15, reg := b.extractLsb' 11 4, ptr := b.extractLsb' 8 3
    upd := b.extractLsb' 6 2, modl := b.getLsbD 5 }
  if m.kind = 3 || (m.pair && m.reg.getLsbD 0 && m.kind ≠ 0) then none else some m

/-- A move that the tables allow. -/
def moveLegal (m : Move) : Bool := !(m.kind = 3 || (m.pair && m.reg.getLsbD 0 && m.kind ≠ 0))

/-- CLASS and OPC. -/
def opBits (cls opc : Nat) : BitVec 64 := BitVec.ofNat 64 (cls * 2 ^ 60 + opc * 2 ^ 54)

/-- An ALU word (Table 11.8). -/
def aluWord (opc : Nat) (d a b : BitVec 4) (sh : BitVec 6) (x y : Move) : BitVec 64 :=
  opBits 1 opc ||| at64 50 d ||| at64 46 a ||| at64 42 b ||| at64 36 sh ||| at64 18 (moveBits x) ||| at64 0 (moveBits y)

/-- A MAC word (Table 11.9). -/
def macWord (opc : Nat) (a : BitVec 3) (opx opy : BitVec 4) (csrc neg : Bool) (sh : BitVec 5) (x y : Move) : BitVec 64 :=
  opBits 2 opc ||| at64 51 a ||| at64 47 opx ||| at64 43 opy ||| flag64 42 csrc ||| flag64 41 neg ||| at64 36 sh |||
    at64 18 (moveBits x) ||| at64 0 (moveBits y)

/-- The word of a Lens instruction; none for a command that is no instruction. -/
def lensEncode : Instr → Option (BitVec 64)
  | .lNop _ => some (opBits 0 0)
  | .lEnd _ => some (opBits 0 1)
  | .lBr _ cc t => some (opBits 0 2 ||| at64 50 cc ||| at64 0 t)
  | .lCall _ t => some (opBits 0 3 ||| at64 0 t)
  | .lRet _ => some (opBits 0 4)
  | .lLoop _ rt reg dc n e =>
    some (opBits 0 5 ||| flag64 53 rt ||| flag64 52 reg ||| at64 48 dc ||| at64 32 n ||| at64 0 e)
  | .lRep _ reg dc n => some (opBits 0 6 ||| flag64 52 reg ||| at64 48 dc ||| at64 32 n)
  | .lBrk _ => some (opBits 0 7)
  | .lAdd _ d a b x y => some (aluWord 0x00 d a b 0 x y)
  | .lSub _ d a b x y => some (aluWord 0x01 d a b 0 x y)
  | .lAnd _ d a b x y => some (aluWord 0x02 d a b 0 x y)
  | .lOr _ d a b x y => some (aluWord 0x03 d a b 0 x y)
  | .lXor _ d a b x y => some (aluWord 0x04 d a b 0 x y)
  | .lAsl _ d a sh x y => some (aluWord 0x05 d a 0 sh x y)
  | .lAsr _ d a sh x y => some (aluWord 0x06 d a 0 sh x y)
  | .lLsr _ d a sh x y => some (aluWord 0x07 d a 0 sh x y)
  | .lAbs _ d a x y => some (aluWord 0x08 d a 0 0 x y)
  | .lNeg _ d a x y => some (aluWord 0x09 d a 0 0 x y)
  | .lMin _ d a b x y => some (aluWord 0x0A d a b 0 x y)
  | .lMax _ d a b x y => some (aluWord 0x0B d a b 0 x y)
  | .lMov _ d a x y => some (aluWord 0x0C d a 0 0 x y)
  | .lCmp _ a b x y => some (aluWord 0x0D 0 a b 0 x y)
  | .lPar _ x y => some (aluWord 0x3F 0 0 0 0 x y)
  | .lMpy _ a p q c g x y => some (macWord 0x00 a p q c g 0 x y)
  | .lMac _ a p q c g x y => some (macWord 0x01 a p q c g 0 x y)
  | .lMpy4 _ a p q c g x y => some (macWord 0x02 a p q c g 0 x y)
  | .lMac4 _ a p q c g x y => some (macWord 0x03 a p q c g 0 x y)
  | .lMac2e _ a p q g x y => some (macWord 0x04 a p q false g 0 x y)
  | .lMac2c _ a p q g x y => some (macWord 0x05 a p q false g 0 x y)
  | .lClr _ a x y => some (macWord 0x06 a 0 0 false false 0 x y)
  | .lClr4 _ a x y => some (macWord 0x07 a 0 0 false false 0 x y)
  | .lRnd _ d a sh x y => some (macWord 0x08 a d 0 false false sh x y)
  | .lMva _ a p x y => some (macWord 0x09 a p 0 false false 0 x y)
  | .lLdi _ r imm => some (opBits 3 0 ||| at64 48 r ||| at64 0 imm)
  | .lMvr _ r1 r2 => some (opBits 3 1 ||| at64 48 r1 ||| at64 42 r2)
  | .lLds _ d a => some (opBits 4 0 ||| at64 50 d ||| at64 46 a)
  | .lSts _ d a => some (opBits 4 1 ||| at64 50 d ||| at64 46 a)
  | .lLks _ d a => some (opBits 4 2 ||| at64 50 d ||| at64 46 a)
  | .lUns _ d a => some (opBits 4 3 ||| at64 50 d ||| at64 46 a)
  | .lLdb _ p a n1 => some (opBits 4 4 ||| at64 43 p ||| at64 46 a ||| at64 39 n1)
  | .lStb _ p a n1 => some (opBits 4 5 ||| at64 43 p ||| at64 46 a ||| at64 39 n1)
  | _ => none

/-- A CTL word (Table 11.7). Bits that an instruction does not use are not looked at. -/
def decodeCtl (n : Fin 8) (w : BitVec 64) : Option Instr :=
  match (fieldOf w 54 6).toNat with
  | 0 => some (.lNop n)
  | 1 => some (.lEnd n)
  | 2 => if (fieldOf w 50 4).toNat < 9 then some (.lBr n (fieldOf w 50 4) (fieldOf w 0 13)) else none
  | 3 => some (.lCall n (fieldOf w 0 13))
  | 4 => some (.lRet n)
  | 5 => some (.lLoop n (w.getLsbD 53) (w.getLsbD 52) (fieldOf w 48 4) (fieldOf w 32 16) (fieldOf w 0 13))
  | 6 => some (.lRep n (w.getLsbD 52) (fieldOf w 48 4) (fieldOf w 32 13))
  | 7 => some (.lBrk n)
  | _ => none

/-- An ALU word (Table 11.8); a left shift above 31 is illegal. -/
def decodeAlu (n : Fin 8) (w : BitVec 64) (x y : Move) : Option Instr :=
  let d := fieldOf w 50 4
  let a := fieldOf w 46 4
  let b := fieldOf w 42 4
  let sh := fieldOf w 36 6
  match (fieldOf w 54 6).toNat with
  | 0x00 => some (.lAdd n d a b x y)
  | 0x01 => some (.lSub n d a b x y)
  | 0x02 => some (.lAnd n d a b x y)
  | 0x03 => some (.lOr n d a b x y)
  | 0x04 => some (.lXor n d a b x y)
  | 0x05 => if sh.toNat < 32 then some (.lAsl n d a sh x y) else none
  | 0x06 => some (.lAsr n d a sh x y)
  | 0x07 => some (.lLsr n d a sh x y)
  | 0x08 => some (.lAbs n d a x y)
  | 0x09 => some (.lNeg n d a x y)
  | 0x0A => some (.lMin n d a b x y)
  | 0x0B => some (.lMax n d a b x y)
  | 0x0C => some (.lMov n d a x y)
  | 0x0D => some (.lCmp n a b x y)
  | 0x3F => some (.lPar n x y)
  | _ => none

/-- A MAC word (Table 11.9): CSRC only on the four that have it, register groups aligned as each operation states. -/
def decodeMac (n : Fin 8) (w : BitVec 64) (x y : Move) : Option Instr :=
  let a := fieldOf w 51 3
  let p := fieldOf w 47 4
  let q := fieldOf w 43 4
  let c := w.getLsbD 42
  let g := w.getLsbD 41
  let sh := fieldOf w 36 5
  let four := a.toNat % 4 = 0 && q.toNat % 4 = 0
  match (fieldOf w 54 6).toNat with
  | 0x00 => some (.lMpy n a p q c g x y)
  | 0x01 => some (.lMac n a p q c g x y)
  | 0x02 => if four then some (.lMpy4 n a p q c g x y) else none
  | 0x03 => if four then some (.lMac4 n a p q c g x y) else none
  | 0x04 => if !c && p.toNat % 2 = 0 then some (.lMac2e n a p q g x y) else none
  | 0x05 => if !c && a.toNat % 2 = 0 && p.toNat % 2 = 0 && q.toNat % 2 = 0 then some (.lMac2c n a p q g x y) else none
  | 0x06 => if !c then some (.lClr n a x y) else none
  | 0x07 => if !c && a.toNat % 4 = 0 then some (.lClr4 n a x y) else none
  | 0x08 => if !c then some (.lRnd n p a sh x y) else none
  | 0x09 => if !c then some (.lMva n a p x y) else none
  | _ => none

/-- An LDI word (Table 11.10): selectors 0 to 41. -/
def decodeLdi (n : Fin 8) (w : BitVec 64) : Option Instr :=
  match (fieldOf w 54 6).toNat with
  | 0 => if (fieldOf w 48 6).toNat < 42 then some (.lLdi n (fieldOf w 48 6) (fieldOf w 0 32)) else none
  | 1 =>
    if (fieldOf w 48 6).toNat < 42 && (fieldOf w 42 6).toNat < 42 then some (.lMvr n (fieldOf w 48 6) (fieldOf w 42 6)) else none
  | _ => none

/-- A BUS word (Table 11.10). -/
def decodeBus (n : Fin 8) (w : BitVec 64) : Option Instr :=
  let d := fieldOf w 50 4
  let a := fieldOf w 46 4
  match (fieldOf w 54 6).toNat with
  | 0 => some (.lLds n d a)
  | 1 => some (.lSts n d a)
  | 2 => some (.lLks n d a)
  | 3 => some (.lUns n d a)
  | 4 => some (.lLdb n (fieldOf w 43 3) a (fieldOf w 39 4))
  | 5 => some (.lStb n (fieldOf w 43 3) a (fieldOf w 39 4))
  | _ => none

/-- The instruction a program memory word holds for core n; none for an illegal encoding (R325, Table 11.5). -/
def lensDecode (n : Fin 8) (w : BitVec 64) : Option Instr :=
  match (fieldOf w 60 4).toNat, moveOf (fieldOf w 18 18), moveOf (fieldOf w 0 18) with
  | 0, _, _ => decodeCtl n w
  | 1, some x, some y => decodeAlu n w x y
  | 2, some x, some y => decodeMac n w x y
  | 3, _, _ => decodeLdi n w
  | 4, _, _ => decodeBus n w
  | _, _, _ => none

/-- The class of a word: 0 CTL, 1 ALU, 2 MAC, 3 LDI, 4 BUS. -/
def classOf (w : BitVec 64) : Nat := (fieldOf w 60 4).toNat

end Sys2Proof.Machine
end

