-- ==== Sys2Proof/Machine/LensOps.lean ====
section
/-! DEFINITION. What every Lens instruction shares (11): local memory, registers and their window, moves, loops, the loop cache,
kernel faults and misses, and the turn of one instruction. -/

namespace Sys2Proof.Machine

/-- The causes of a kernel fault, in the order of R325 and R310 to R313; the event gives each by its open code. -/
inductive LensCause where
  | illegal | cInDual | localAddress | oddPair | modulo | stackFull | loopRule | fetch | doubleLoad | busAlign
  deriving DecidableEq, Repr

/-- The place of a cause in the list. -/
def LensCause.index : LensCause → Nat
  | .illegal => 0 | .cInDual => 1 | .localAddress => 2 | .oddPair => 3 | .modulo => 4 | .stackFull => 5 | .loopRule => 6
  | .fetch => 7 | .doubleLoad => 8 | .busAlign => 9

/-- What an operation answers: the core it leaves, or the cause of a kernel fault. -/
abbrev LensRes := Except LensCause LensCore

/-! Local memory. -/

/-- Words of XM or YM, and coefficient words of PM (Table 11.2). -/
def localWords : Nat := 24576
def coefWords : Nat := 16384

/-- A word of a local memory. -/
def localGet (m : List (Nat × Word)) (w : Nat) : Word := (assoc m w).getD 0

/-- A local memory with a word written. -/
def localPut (m : List (Nat × Word)) (w : Nat) (v : Word) : List (Nat × Word) := if v = 0 then assocDel m w else assocSet m w v

/-- Words written from an address on. -/
def localPoke (m : List (Nat × Word)) (w : Nat) : List Word → List (Nat × Word)
  | [] => m
  | v :: l => localPoke (localPut m w v) (w + 1) l

/-- Instruction i of program memory (Table 11.2). -/
def pmWord (c : LensCore) (i : Nat) : BitVec 64 := localGet c.pm (2 * i + 1) ++ localGet c.pm (2 * i)

/-! Registers. -/

/-- The physical register that a name means under the rotating window (R318). -/
def physD (c : LensCore) (r : Nat) : Nat := if r < 8 then r else 8 + (r - 8 + c.rot) % 8

/-- A data register by name. -/
def getD_ (c : LensCore) (r : BitVec 4) : Word := nth c.d (physD c r.toNat)

/-- A data register written by name. -/
def putD (r : BitVec 4) (v : Word) (c : LensCore) : LensCore := { c with d := updAt c.d (physD c r.toNat) (fun _ => v) }

/-- An accumulator as a number in 2^-62. -/
def getA (c : LensCore) (a : Nat) : Int := (nth c.a a).toInt

/-- The limits of an accumulator, Q18.62 in 80 bits. -/
def satA (v : Int) : Int := clampInt (-(2 ^ 79)) (2 ^ 79 - 1) v

/-- An accumulator written. -/
def putA (a : Nat) (v : Int) (c : LensCore) : LensCore := { c with a := updAt c.a a (fun _ => BitVec.ofInt 80 v) }

/-- An accumulator with a value added, saturating; S is set by the caller from what this reports. -/
def accum (a : Nat) (v : Int) (c : LensCore) : LensCore × Bool :=
  let r := getA c a + v
  (putA a (satA r) c, r ≠ satA r)

/-- A 32-bit result saturated, and whether it did. -/
def sat32r (v : Int) : Word × Bool :=
  let r := clampInt (-(2 ^ 31)) (2 ^ 31 - 1) v
  (BitVec.ofInt 32 r, v ≠ r)

/-- Z and N of a result (Table 11.8). -/
def setZN (v : Word) (c : LensCore) : LensCore := { c with z := v = 0, n := v.msb }

/-- SR as it reads (Table 11.4). -/
def readSr (c : LensCore) : Word :=
  BitVec.ofNat 32 (bit c.z + 2 * bit c.n + 4 * bit c.sat + 8 * bit c.be + 16 * bit c.pch + 32 * bit c.firstBlk +
    256 * bit c.tri + 512 * c.loops.length + 4096 * c.rot)

/-- LC: the remaining count of the innermost loop. -/
def readLc (c : LensCore) : Nat := match c.loops with | e :: _ => e.count | [] => 0

/-- A register by its selector (Note 1 of Table 11.10); an M register reads sign-extended. -/
def readSel (c : LensCore) (r : Nat) : Word :=
  if r < 16 then nth c.d (physD c r)
  else if r < 24 then (nth c.p (r - 16)).setWidth 32
  else if r < 32 then (nth c.m (r - 24)).signExtend 32
  else if r < 40 then (nth c.l (r - 32)).setWidth 32
  else if r = 40 then readSr c
  else BitVec.ofNat 32 (readLc c)

/-- A register written by its selector; writing Ln with a value other than 0 captures its origin (R311); SR takes bits [2:0];
LC takes no write. -/
def writeSel (r : Nat) (v : Word) (c : LensCore) : LensRes :=
  let h : Half := v.setWidth 16
  if r < 16 then .ok { c with d := updAt c.d (physD c r) (fun _ => v) }
  else if r < 24 then .ok { c with p := updAt c.p (r - 16) (fun _ => h) }
  else if r < 32 then .ok { c with m := updAt c.m (r - 24) (fun _ => h) }
  else if r < 40 then
    .ok { c with l := updAt c.l (r - 32) (fun _ => h)
                 o := if h = 0 then c.o else updAt c.o (r - 32) (fun _ => nth c.p (r - 32)) }
  else if r = 40 then .ok { c with z := v.getLsbD 0, n := v.getLsbD 1, sat := v.getLsbD 2 }
  else .error .illegal

/-! Pointers and moves (R306, R310, R311). -/

/-- A pointer moved by d; with `modl` and Ln not 0 it wraps within its circular buffer by at most one correction (R311). -/
def movePtr (c : LensCore) (k : Nat) (d : Int) (modl : Bool) : Except LensCause Half :=
  let p : Int := (nth c.p k).toNat
  let len : Int := (nth c.l k).toNat
  let o : Int := (nth c.o k).toNat
  let q := p + d
  if !modl || len = 0 then .ok (BitVec.ofInt 16 q)
  else
    let r := if o + len ≤ q then q - len else if q < o then q + len else q
    if o ≤ r && r < o + len then .ok (BitVec.ofInt 16 r) else .error .modulo

/-- The step of a pointer update. -/
def updStep (c : LensCore) (m : Move) : Int :=
  match m.upd.toNat with
  | 0 => 0
  | 1 => if m.pair then 2 else 1
  | 2 => (nth c.m m.ptr.toNat).toInt
  | _ => -(nth c.m m.ptr.toNat).toInt

/-- What one move does: the physical registers it loads with their values, the words it stores, its pointer's new value. -/
structure MoveAct where
  loads : List (Nat × Word) := []
  stores : List (Nat × Word) := []
  ptr : Option (Nat × Half) := none
  deriving DecidableEq, Repr

/-- A move read from the registers as they are at the start of the cycle, on a memory. -/
def moveAct (c : LensCore) (mem : List (Nat × Word)) (m : Move) : Except LensCause MoveAct :=
  if m.kind = 0 then .ok {}
  else
    let w := (nth c.p m.ptr.toNat).toNat
    let regs := if m.pair then [m.reg.toNat, m.reg.toNat + 1] else [m.reg.toNat]
    if localWords ≤ w then .error .localAddress
    else if m.pair && w % 2 = 1 then .error .oddPair
    else
      match (if m.upd = 0 then .ok none else (movePtr c m.ptr.toNat (updStep c m) m.modl).map some) with
      | .error e => .error e
      | .ok q =>
        let ptr := q.map fun v => (m.ptr.toNat, v)
        if m.kind = 1 then .ok { loads := regs.mapIdx (fun i r => (physD c r, localGet mem (w + i))), ptr }
        else .ok { stores := regs.mapIdx (fun i r => (w + i, nth c.d (physD c r))), ptr }

/-- The pointer values that the updates of one cycle write; two that disagree on one pointer leave it open, the value v. -/
def ptrWrites (v : Half) (l : List (Nat × Half)) (c : LensCore) : LensCore :=
  l.foldl (fun c x =>
    let val := if l.any (fun y => y.1 = x.1 && y.2 ≠ x.2) then v else x.2
    { c with p := updAt c.p x.1 (fun _ => val) }) c

/-- One operation with its two moves: all read the registers as they are at the start of the cycle, all write at its end, a
load after the operation (R310). `cptr` is the update of P7 by a C operand; v is the open value of `ptrWrites`. -/
def withMoves (v : Half) (x y : Move) (cptr : Option (Nat × Half)) (op : LensCore → LensCore) (c : LensCore) : LensRes :=
  match moveAct c c.xm x, moveAct c c.ym y with
  | .error e, _ => .error e
  | _, .error e => .error e
  | .ok a, .ok b =>
    if a.loads.any (fun p => b.loads.any (fun q => p.1 = q.1)) then .error .doubleLoad
    else
      let c1 := op c
      let c2 := (a.loads ++ b.loads).foldl (fun c p => { c with d := updAt c.d p.1 (fun _ => p.2) }) c1
      let c3 := ptrWrites v (a.ptr.toList ++ b.ptr.toList ++ cptr.toList) c2
      .ok { c3 with xm := a.stores.foldl (fun m p => localPut m p.1 p.2) c3.xm
                    ym := b.stores.foldl (fun m p => localPut m p.1 p.2) c3.ym }

/-! Loops (R316 to R319). -/

/-- The body of the running loop that holds the instruction at pc comes from the loop cache (R316). -/
def cacheHit (c : LensCore) : Bool :=
  match c.cache with
  | some (s, e) => s ≤ c.pc && c.pc ≤ e && c.loops.any fun x => x.start = s && x.last = e && !x.first
  | none => false

/-- Pop the innermost loop; a rotating one gives back the rotation base of its enclosing loop. -/
def popLoop (c : LensCore) : LensCore :=
  match c.loops with
  | e :: l => { c with loops := l, rot := if e.rot then e.rotOuter else c.rot }
  | [] => c

/-- What follows the instruction at `at_`: a loop that ends there goes round, or is popped and the one around it is looked at
(R317, R318); else the next address. -/
def afterInstr : Nat → Nat → LensCore → LensCore
  | 0, at_, c => { c with pc := at_ + 1 }
  | k + 1, at_, c =>
    match c.loops with
    | e :: l =>
      if e.last ≠ at_ then { c with pc := at_ + 1 }
      else if 1 < e.count then
        { c with pc := e.start, loops := { e with count := e.count - 1, first := false } :: l
                 rot := if e.rot then (c.rot + 1) % 8 else c.rot }
      else afterInstr k at_ (popLoop c)
    | [] => { c with pc := at_ + 1 }

/-- The instruction at pc is done, after `cyc` cycles. -/
def nextInstr (cyc : Nat) (c : LensCore) : LensCore := afterInstr 5 c.pc { c with cycles := c.cycles + cyc, rep := none }

/-- A taken branch: the innermost loop is popped when the address lies outside its body (R317). -/
def branchTo (t : Nat) (c : LensCore) : LensCore :=
  let c1 := match c.loops with
    | e :: _ => if e.start ≤ t && t ≤ e.last then c else popLoop c
    | [] => c
  { c1 with pc := t, cycles := c.cycles + 2 }

/-- Repetitions of a body (R319): S is set when any repetition saturated. -/
def repeatGo : Nat → (LensCore → LensRes) → LensCore → LensRes
  | 0, _, c => .ok c
  | k + 1, f, c =>
    match f c with
    | .error e => .error e
    | .ok c1 => repeatGo k f { c1 with sat := c1.sat || c.sat }

/-- An instruction of class ALU or MAC: once, or as often as a REP before it says; `csrc` says that it reads C, which in TRI
mode costs a cycle more where the cache does not supply the instruction (R315, R316). -/
def runAlu (csrc : Bool) (f : LensCore → LensRes) (c : LensCore) : LensRes :=
  if csrc && !c.tri then .error .cInDual
  else
    let miss := bit (csrc && !cacheHit c)
    match f c with
    | .error e => .error e
    | .ok c1 =>
      let n := c.rep.getD 1
      match repeatGo (n - 1) f c1 with
      | .error e => .error e
      | .ok c2 => .ok (nextInstr (n + miss) c2)

/-- An instruction of another class, which a REP cannot repeat (R319). -/
def runOne (f : LensCore → LensRes) (c : LensCore) : LensRes := if c.rep.isSome then .error .loopRule else f c

/-! Kernel entry (R308, R309). -/

/-- Half of the buffers in use for a block. -/
def bufHalf (k : Int) : Nat := (k % 2).toNat

/-- The parameter bank in force of a slot. -/
def bankBase (q : LensSlot) (h : Kernel) : Nat := h.prmBuf + (if q.bankB then h.params else 0)

/-- The core at the entry of a slot's kernel, for the input of block k, whose output begins at boundary `out`. -/
def enterKernel (k out : Int) (slot : Nat) (init : Bool) (rest : List (Nat × Bool)) (c : LensCore) : LensCore :=
  let q := nth c.slots slot
  match q.kernel with
  | none => { c with run := none }
  | some h =>
    let p4 := h.inBuf + bufHalf k * c.block * h.inCh
    let p5 := h.outBuf + bufHalf k * c.block * h.outCh
    { c with
      d := List.replicate 16 0, a := List.replicate 8 0, m := List.replicate 8 0, l := List.replicate 8 0
      o := List.replicate 8 0
      p := [0, 0, 0, 0, BitVec.ofNat 16 p4, BitVec.ofNat 16 p5, BitVec.ofNat 16 (bankBase q h), 0]
      z := false, n := false, sat := false, be := false, pch := q.pch, firstBlk := !init && q.first, tri := h.tri
      rot := 0, loops := [], calls := [], rep := none
      pc := if init then h.init else h.block
      run := some { blk := k, out, slot, init, rest }
      slots := if init then c.slots else updAt c.slots slot (fun q => { q with first := false }) }

/-- A slot changed. -/
def modSlot (n slot : Nat) (f : LensSlot → LensSlot) (s : State) : State :=
  modLens n (fun c => { c with slots := updAt c.slots slot f }) s

/-! Misses and faults (R324, R325). -/

/-- Slots still to reach END, as a mask. -/
def unfinished (c : LensCore) : Nat :=
  match c.run with
  | some r => (((r.slot :: r.rest.map (fun x => x.1)).eraseDups).map fun x => 2 ^ x).sum
  | none => 0

/-- A slot that runs or is stopping. -/
def slotLive (q : LensSlot) : Bool := q.st = 3 || q.st = 4

/-- Step 1 of R324: every output of the core fades out from the first output boundary of a block. -/
def fadeOutputs (out : Int) (c : LensCore) : LensCore :=
  { c with missed := true
           slots := c.slots.map fun q => if slotLive q then { q with fadeAt := some out, rampAt := none } else q }

/-- The kernels of a core are at rest, and every live slot is to begin again with INIT (R324 step 4, R331). -/
def abortKernels (c : LensCore) : LensCore :=
  { c with run := none, aborting := false, discard := false, loops := [], calls := [], rep := none, rot := 0
           slots := c.slots.map fun q => if slotLive q then { q with needInit := true, first := true } else q }

/-- Steps 3 and 6 of R324: the miss is counted and recorded, and the core stops when the strikes reach STRIKES. -/
def countMiss (n : Nat) (s : State) : State :=
  let c := s.core n
  let who := ownerOf s 0x04 n
  let s := record 0x0802 who [(1, n), (1, unfinished c), (4, c.pc)]
    (modLens n (fun c => { c with overruns := c.overruns + 1, strikes := c.strikes + 1 }) s)
  if c.strikesSet ≠ 0 && c.strikesSet ≤ c.strikes + 1 then
    record 0x0804 who [(1, n)] (modLens n (fun c =>
      let c := abortKernels c
      { c with slots := c.slots.map fun q => if slotLive q then { q with st := 5 } else q }) s)
  else s

/-- A kernel fault (R325): the block ends at once as a miss, and the cause is recorded. -/
def kernelFault (n : Nat) (e : LensCause) (s : State) : State :=
  let c := s.core n
  match c.run with
  | none => s
  | some r =>
    let s := modLens n (fun c => { fadeOutputs r.out c with faults := c.faults + 1 }) s
    let s := countMiss n s
    let s := record 0x0803 (ownerOf s 0x04 n) [(1, n), (1, r.slot), (1, (Config.causeCode 1 e.index).toNat), (4, c.pc)] s
    modLens n abortKernels s

/-! The turn of one instruction. -/

/-- The instruction at pc lies in the PM region of the slot that runs (R325). -/
def inRegion (c : LensCore) : Bool :=
  match c.run with
  | some r => match (nth c.slots r.slot).kernel with
    | some h => h.pmBase ≤ c.pc && c.pc < h.pmBase + h.pmWords
    | none => false
  | none => false

/-- Where a halt or a deadline abort enters (R320): between two instructions, inside a loop only at an iteration boundary of
the innermost loop, never before the instruction that a REP repeats. -/
def abortPoint (c : LensCore) : Bool := c.rep.isNone && (match c.loops with | e :: _ => c.pc = e.start | [] => true)

/-- A core executes: CORE runs, a kernel is entered, no clear runs. -/
def lensLive (s : State) (n : Nat) : Bool := prismUnitUp s (fenceLens n) && !s.prism.gated && (s.core n).run.isSome && !(s.core n).clearing

/-- One instruction of core n, as program memory holds it: a fetch outside the region and an illegal encoding are faults; a
word that holds another instruction than i leaves the state (log entry 2). -/
def lensInstr (n : Fin 8) (i : Instr) (op : State → Except LensCause State) (s : State) : State :=
  let c := s.core n.val
  if !inRegion c then kernelFault n.val .fetch s
  else match lensDecode n (pmWord c c.pc) with
    | none => kernelFault n.val .illegal s
    | some j =>
      if j ≠ i then s
      else match op s with
        | .error e => kernelFault n.val e s
        | .ok t => if (t.core n.val).aborting && abortPoint (t.core n.val) then modLens n.val abortKernels t else t

/-- The row of an instruction: core n, running and not halted, executes it. -/
def lensTurn (n : Fin 8) (i : Instr) (op : State → Except LensCause State) (s : State) : Out :=
  if !lensLive s n.val || s.dbg.halted.getLsbD (1 + n.val) then .next s else fin (lensInstr n i op s)

/-- An operation on the core alone. -/
def onCore (n : Nat) (f : LensCore → LensRes) (s : State) : Except LensCause State :=
  (f (s.core n)).map fun c => modLens n (fun _ => c) s

/-- The open value of this instruction, drawn (log entry 3). -/
def onCoreFree (n : Nat) (f : Half → LensCore → LensRes) (s : State) : Except LensCause State :=
  let (v, s) := drawFree s
  onCore n (f (v.setWidth 16)) s

end Sys2Proof.Machine
end

