-- ==== Sys2Proof/Machine/Lens.lean ====
section
/-! DEFINITION. The Lens instructions (Tables 11.7 to 11.10): the effect of each on its core, and its row. -/

namespace Sys2Proof.Machine

/-! Class CTL (Table 11.7). -/

def lNopOp (c : LensCore) : LensRes := .ok (nextInstr 1 c)

def execLNop (core : Fin 8) (s : State) : Out := lensTurn core (.lNop core) (onCore core.val (runOne lNopOp)) s

/-- The output samples of a slot's block in YM, by sample and channel (R309). -/
def readOutput (c : LensCore) (h : Kernel) (k : Int) : List (List Word) :=
  (List.range c.block).map fun i => (List.range h.outCh).map fun ch =>
    localGet c.ym (h.outBuf + (bufHalf k * c.block + i) * h.outCh + ch)

/-- Every entry of the block has reached END: the cycles it took are noted; the first block that meets its deadline after a miss
ramps the outputs in and restarts the strikes (R324 step 5); a block run on after a halt is followed by a restart (R445). -/
def finishBlock (out : Int) (c : LensCore) : LensCore :=
  let again := c.slots.any fun q => slotLive q && q.needInit
  let c := { c with run := none, cyclesLast := c.cycles, cyclesMax := max c.cyclesMax c.cycles, rep := none, loops := [], calls := [], rot := 0 }
  if c.discard then abortKernels c
  else if again || c.aborting then c
  else { c with
    strikes := 0
    slots := c.slots.map fun q =>
      if q.st = 3 && q.rampAt.isNone && (c.missed || q.fades.all (fun f => f.st = .silent)) then { q with rampAt := some out } else q }

/-- END ends the kernel for this block; the next entry of the block follows. -/
def lEndOp (c : LensCore) : LensRes :=
  match c.run with
  | none => .ok c
  | some r =>
    let c := { c with cycles := c.cycles + 1 }
    let q := nth c.slots r.slot
    let out := match q.kernel with | some h => readOutput c h r.blk | none => []
    let c := if r.init || c.discard then c else
      { c with slots := updAt c.slots r.slot (fun q => { q with outq := q.outq ++ [(r.out, out)] }) }
    match r.rest with
    | (slot, init) :: rest => .ok (enterKernel r.blk r.out slot init rest c)
    | [] => .ok (finishBlock r.out c)

def execLEnd (core : Fin 8) (s : State) : Out := lensTurn core (.lEnd core) (onCore core.val (runOne lEndOp)) s

/-- The condition codes of Note 1 of Table 11.7. -/
def condHolds (c : LensCore) : Nat → Bool
  | 0 => true
  | 1 => c.z
  | 2 => !c.z
  | 3 => c.n
  | 4 => !c.n
  | 5 => c.sat
  | 6 => c.be
  | 7 => c.pch
  | 8 => c.firstBlk
  | _ => false

def lBrOp (cc : BitVec 4) (t : BitVec 13) (c : LensCore) : LensRes :=
  .ok (if condHolds c cc.toNat then branchTo t.toNat c else nextInstr 1 c)

def execLBr (core : Fin 8) (cc : BitVec 4) (t : BitVec 13) (s : State) : Out :=
  lensTurn core (.lBr core cc t) (onCore core.val (runOne (lBrOp cc t))) s

/-- CALL: a return stack of 4; CALL pops no loop (R317). -/
def lCallOp (t : BitVec 13) (c : LensCore) : LensRes :=
  if 4 ≤ c.calls.length then .error .stackFull
  else .ok { c with calls := (c.pc + 1) :: c.calls, pc := t.toNat, cycles := c.cycles + 2 }

def execLCall (core : Fin 8) (t : BitVec 13) (s : State) : Out :=
  lensTurn core (.lCall core t) (onCore core.val (runOne (lCallOp t))) s

/-- RET; with an empty return stack the address it returns to is open, the value v. -/
def lRetOp (v : Half) (c : LensCore) : LensRes :=
  match c.calls with
  | r :: l => .ok { c with calls := l, pc := r, cycles := c.cycles + 2 }
  | [] => .ok { c with pc := v.toNat % 8192, cycles := c.cycles + 2 }

def execLRet (core : Fin 8) (s : State) : Out :=
  lensTurn core (.lRet core) (onCoreFree core.val (fun v => runOne (lRetOp v))) s

/-- LOOP (R317, R318): a count of 0 skips the loop; a fifth nested loop and a body that ends in class CTL are faults; a body of
up to 16 instructions goes into the loop cache. -/
def lLoopOp (rt reg : Bool) (dc : BitVec 4) (count : Half) (e : BitVec 13) (c : LensCore) : LensRes :=
  let n := if reg then (getD_ c dc).toNat % 65536 else count.toNat
  if classOf (pmWord c e.toNat) = 0 then .error .loopRule
  else if n = 0 then .ok (afterInstr 5 e.toNat { c with cycles := c.cycles + 1 })
  else if 4 ≤ c.loops.length then .error .stackFull
  else
    let start := c.pc + 1
    .ok { c with
      loops := { start, last := e.toNat, count := n, rotOuter := c.rot, rot := rt, first := true } :: c.loops
      rot := if rt then 0 else c.rot
      cache := if start ≤ e.toNat && e.toNat < start + 16 then some (start, e.toNat) else c.cache
      pc := start, cycles := c.cycles + 1 }

def execLLoop (core : Fin 8) (rot reg : Bool) (dc : BitVec 4) (count : Half) (e : BitVec 13) (s : State) : Out :=
  lensTurn core (.lLoop core rot reg dc count e) (onCore core.val (runOne (lLoopOp rot reg dc count e))) s

/-- REP (R319): the next instruction, of class ALU or MAC, is repeated; a count of 0 skips it, one above 4,096 is a fault. -/
def lRepOp (reg : Bool) (dc : BitVec 4) (count : BitVec 13) (c : LensCore) : LensRes :=
  let n := if reg then (getD_ c dc).toNat % 8192 else count.toNat
  let cls := classOf (pmWord c (c.pc + 1))
  if 4096 < n || (cls ≠ 1 && cls ≠ 2) then .error .loopRule
  else if n = 0 then .ok (afterInstr 5 (c.pc + 1) { c with cycles := c.cycles + 1 })
  else .ok { c with rep := some n, pc := c.pc + 1, cycles := c.cycles + 1 }

def execLRep (core : Fin 8) (reg : Bool) (dc : BitVec 4) (count : BitVec 13) (s : State) : Out :=
  lensTurn core (.lRep core reg dc count) (onCore core.val (runOne (lRepOp reg dc count))) s

/-- The scope of the open session covers a core (Table 17.4): 0 is the control core, 1 + n is LCn. -/
def scopeCovers (s : State) (k : Nat) : Bool :=
  match s.dbg.session with
  | some x => x.scope = 16 || (1 ≤ k && ownerOf s 0x04 (k - 1) = x.scope)
  | none => false

/-- A core is halted or resumed, with event 0x0E04 (R444); the count of a locked sequence it holds stops or goes on (R128). -/
def setHalted (k : Nat) (on : Bool) (s : State) : State :=
  let pc := if k = 0 then s.dbg.ctlPc.toNat else (s.core (k - 1)).pc
  let master := if k = 0 then 0 else 5 + k
  let s := modStore (fun m => { m with lock := m.lock.map fun l => if l.master = master then { l with frozen := on } else l }) s
  record 0x0E04 engineTag [(1, k), (1, bit on), (4, pc)] (modDbg (fun d =>
    { d with halted := setBit d.halted k on, haltReq := setBit d.haltReq k false, seenHalt := if on then setBit d.seenHalt k true else d.seenHalt }) s)

/-- BRK halts its core where the session's scope covers it, else it acts as NOP (R444). -/
def lBrkOp (n : Nat) (s : State) : Except LensCause State :=
  match onCore n (runOne lNopOp) s with
  | .error e => .error e
  | .ok t => .ok (if scopeCovers s (1 + n) then setHalted (1 + n) true t else t)

def execLBrk (core : Fin 8) (s : State) : Out := lensTurn core (.lBrk core) (lBrkOp core.val) s

/-! Class ALU (Table 11.8). -/

/-- One ALU operation that writes d: its result, and whether it saturated when it is one that can. -/
def aluOp (v : Half) (x y : Move) (d : BitVec 4) (f : LensCore → Word × Option Bool) (c : LensCore) : LensRes :=
  runAlu false (fun c => withMoves v x y none (fun c =>
    let (r, st) := f c
    setZN r (putD d r { c with sat := st.getD c.sat })) c) c

/-- The result of an operation that saturates. -/
def satRes (p : Word × Bool) : Word × Option Bool := (p.1, some p.2)

/-- ADD: d = a + b, saturated. -/
def lAddOp (d a b : BitVec 4) (x y : Move) (v : Half) (c : LensCore) : LensRes :=
  aluOp v x y d (fun c => satRes (sat32r ((getD_ c a).toInt + (getD_ c b).toInt))) c

def execLAdd (core : Fin 8) (d a b : BitVec 4) (x y : Move) (s : State) : Out :=
  lensTurn core (.lAdd core d a b x y) (onCoreFree core.val (lAddOp d a b x y)) s

/-- SUB: d = a − b, saturated. -/
def lSubOp (d a b : BitVec 4) (x y : Move) (v : Half) (c : LensCore) : LensRes :=
  aluOp v x y d (fun c => satRes (sat32r ((getD_ c a).toInt - (getD_ c b).toInt))) c

def execLSub (core : Fin 8) (d a b : BitVec 4) (x y : Move) (s : State) : Out :=
  lensTurn core (.lSub core d a b x y) (onCoreFree core.val (lSubOp d a b x y)) s

/-- AND. -/
def lAndOp (d a b : BitVec 4) (x y : Move) (v : Half) (c : LensCore) : LensRes :=
  aluOp v x y d (fun c => (getD_ c a &&& getD_ c b, none)) c

def execLAnd (core : Fin 8) (d a b : BitVec 4) (x y : Move) (s : State) : Out :=
  lensTurn core (.lAnd core d a b x y) (onCoreFree core.val (lAndOp d a b x y)) s

/-- OR. -/
def lOrOp (d a b : BitVec 4) (x y : Move) (v : Half) (c : LensCore) : LensRes :=
  aluOp v x y d (fun c => (getD_ c a ||| getD_ c b, none)) c

def execLOr (core : Fin 8) (d a b : BitVec 4) (x y : Move) (s : State) : Out :=
  lensTurn core (.lOr core d a b x y) (onCoreFree core.val (lOrOp d a b x y)) s

/-- XOR. -/
def lXorOp (d a b : BitVec 4) (x y : Move) (v : Half) (c : LensCore) : LensRes :=
  aluOp v x y d (fun c => (getD_ c a ^^^ getD_ c b, none)) c

def execLXor (core : Fin 8) (d a b : BitVec 4) (x y : Move) (s : State) : Out :=
  lensTurn core (.lXor core d a b x y) (onCoreFree core.val (lXorOp d a b x y)) s

/-- ASL: shift left by sh, saturated. -/
def lAslOp (d a : BitVec 4) (sh : BitVec 6) (x y : Move) (v : Half) (c : LensCore) : LensRes :=
  aluOp v x y d (fun c => satRes (sat32r ((getD_ c a).toInt * 2 ^ sh.toNat))) c

def execLAsl (core : Fin 8) (d a : BitVec 4) (sh : BitVec 6) (x y : Move) (s : State) : Out :=
  lensTurn core (.lAsl core d a sh x y) (onCoreFree core.val (lAslOp d a sh x y)) s

/-- ASR: arithmetic shift right. -/
def lAsrOp (d a : BitVec 4) (sh : BitVec 6) (x y : Move) (v : Half) (c : LensCore) : LensRes :=
  aluOp v x y d (fun c => ((getD_ c a).sshiftRight sh.toNat, none)) c

def execLAsr (core : Fin 8) (d a : BitVec 4) (sh : BitVec 6) (x y : Move) (s : State) : Out :=
  lensTurn core (.lAsr core d a sh x y) (onCoreFree core.val (lAsrOp d a sh x y)) s

/-- LSR: logical shift right. -/
def lLsrOp (d a : BitVec 4) (sh : BitVec 6) (x y : Move) (v : Half) (c : LensCore) : LensRes :=
  aluOp v x y d (fun c => (getD_ c a >>> sh.toNat, none)) c

def execLLsr (core : Fin 8) (d a : BitVec 4) (sh : BitVec 6) (x y : Move) (s : State) : Out :=
  lensTurn core (.lLsr core d a sh x y) (onCoreFree core.val (lLsrOp d a sh x y)) s

/-- ABS, saturated. -/
def lAbsOp (d a : BitVec 4) (x y : Move) (v : Half) (c : LensCore) : LensRes :=
  aluOp v x y d (fun c => satRes (sat32r (getD_ c a).toInt.natAbs)) c

def execLAbs (core : Fin 8) (d a : BitVec 4) (x y : Move) (s : State) : Out :=
  lensTurn core (.lAbs core d a x y) (onCoreFree core.val (lAbsOp d a x y)) s

/-- NEG, saturated. -/
def lNegOp (d a : BitVec 4) (x y : Move) (v : Half) (c : LensCore) : LensRes :=
  aluOp v x y d (fun c => satRes (sat32r (-(getD_ c a).toInt))) c

def execLNeg (core : Fin 8) (d a : BitVec 4) (x y : Move) (s : State) : Out :=
  lensTurn core (.lNeg core d a x y) (onCoreFree core.val (lNegOp d a x y)) s

/-- MIN, signed. -/
def lMinOp (d a b : BitVec 4) (x y : Move) (v : Half) (c : LensCore) : LensRes :=
  aluOp v x y d (fun c => (if (getD_ c a).toInt ≤ (getD_ c b).toInt then getD_ c a else getD_ c b, none)) c

def execLMin (core : Fin 8) (d a b : BitVec 4) (x y : Move) (s : State) : Out :=
  lensTurn core (.lMin core d a b x y) (onCoreFree core.val (lMinOp d a b x y)) s

/-- MAX, signed. -/
def lMaxOp (d a b : BitVec 4) (x y : Move) (v : Half) (c : LensCore) : LensRes :=
  aluOp v x y d (fun c => (if (getD_ c b).toInt ≤ (getD_ c a).toInt then getD_ c a else getD_ c b, none)) c

def execLMax (core : Fin 8) (d a b : BitVec 4) (x y : Move) (s : State) : Out :=
  lensTurn core (.lMax core d a b x y) (onCoreFree core.val (lMaxOp d a b x y)) s

/-- MOV: copy. -/
def lMovOp (d a : BitVec 4) (x y : Move) (v : Half) (c : LensCore) : LensRes :=
  aluOp v x y d (fun c => (getD_ c a, none)) c

def execLMov (core : Fin 8) (d a : BitVec 4) (x y : Move) (s : State) : Out :=
  lensTurn core (.lMov core d a x y) (onCoreFree core.val (lMovOp d a x y)) s

/-- CMP: the flags of a − b, exactly; no write. -/
def lCmpOp (a b : BitVec 4) (x y : Move) (v : Half) (c : LensCore) : LensRes :=
  runAlu false (fun c => withMoves v x y none (fun c =>
    { c with z := getD_ c a = getD_ c b, n := (getD_ c a).toInt < (getD_ c b).toInt }) c) c

def execLCmp (core : Fin 8) (a b : BitVec 4) (x y : Move) (s : State) : Out :=
  lensTurn core (.lCmp core a b x y) (onCoreFree core.val (lCmpOp a b x y)) s

/-- PAR: moves only. -/
def lParOp (x y : Move) (v : Half) (c : LensCore) : LensRes := runAlu false (withMoves v x y none id) c

def execLPar (core : Fin 8) (x y : Move) (s : State) : Out :=
  lensTurn core (.lPar core x y) (onCoreFree core.val (lParOp x y)) s

/-! Class MAC (Table 11.9). -/

/-- The operand x: D(x), or the coefficient word PM[P7] with P7 then one further, wrapped with L7 (R315). -/
def operandX (c : LensCore) (p : BitVec 4) (csrc : Bool) : Except LensCause (Int × Option (Nat × Half)) :=
  if !csrc then .ok ((getD_ c p).toInt, none)
  else
    let w := (nth c.p 7).toNat
    if coefWords ≤ w then .error .localAddress
    else (movePtr c 7 1 true).map fun q => ((localGet c.pm w).toInt, some (7, q))

/-- A value with its sign turned by NEG. -/
def signed (neg : Bool) (v : Int) : Int := if neg then -v else v

/-- A MAC operation over the operand x, with its moves. -/
def macOp (v : Half) (x y : Move) (p : BitVec 4) (csrc : Bool) (f : Int → LensCore → LensCore) (c : LensCore) : LensRes :=
  runAlu csrc (fun c =>
    match operandX c p csrc with
    | .error e => .error e
    | .ok (w, q) => withMoves v x y q (f w) c) c

/-- Accumulations one after another; S is set when one of them saturates. -/
def accumAll (l : List (Nat × Int)) (c : LensCore) : LensCore :=
  let r := l.foldl (fun (p : LensCore × Bool) x => let q := accum x.1 x.2 p.1; (q.1, p.2 || q.2)) (c, false)
  { r.1 with sat := r.2 }

def lMpyOp (a : BitVec 3) (p q : BitVec 4) (csrc neg : Bool) (x y : Move) (v : Half) (c : LensCore) : LensRes :=
  macOp v x y p csrc (fun w c => putA a.toNat (signed neg (w * (getD_ c q).toInt)) c) c

def execLMpy (core : Fin 8) (a : BitVec 3) (opx opy : BitVec 4) (csrc neg : Bool) (x y : Move) (s : State) : Out :=
  lensTurn core (.lMpy core a opx opy csrc neg x y) (onCoreFree core.val (lMpyOp a opx opy csrc neg x y)) s

def lMacOp (a : BitVec 3) (p q : BitVec 4) (csrc neg : Bool) (x y : Move) (v : Half) (c : LensCore) : LensRes :=
  macOp v x y p csrc (fun w c => accumAll [(a.toNat, signed neg (w * (getD_ c q).toInt))] c) c

def execLMac (core : Fin 8) (a : BitVec 3) (opx opy : BitVec 4) (csrc neg : Bool) (x y : Move) (s : State) : Out :=
  lensTurn core (.lMac core a opx opy csrc neg x y) (onCoreFree core.val (lMacOp a opx opy csrc neg x y)) s

/-- The four products of MPY4 and MAC4: A(a + j) with x·D(y + j). -/
def fourProducts (c : LensCore) (a : BitVec 3) (q : BitVec 4) (neg : Bool) (w : Int) : List (Nat × Int) :=
  (List.range 4).map fun j => (a.toNat + j, signed neg (w * (getD_ c (q + BitVec.ofNat 4 j)).toInt))

def lMpy4Op (a : BitVec 3) (p q : BitVec 4) (csrc neg : Bool) (x y : Move) (v : Half) (c : LensCore) : LensRes :=
  macOp v x y p csrc (fun w c => (fourProducts c a q neg w).foldl (fun c x => putA x.1 x.2 c) c) c

def execLMpy4 (core : Fin 8) (a : BitVec 3) (opx opy : BitVec 4) (csrc neg : Bool) (x y : Move) (s : State) : Out :=
  lensTurn core (.lMpy4 core a opx opy csrc neg x y) (onCoreFree core.val (lMpy4Op a opx opy csrc neg x y)) s

def lMac4Op (a : BitVec 3) (p q : BitVec 4) (csrc neg : Bool) (x y : Move) (v : Half) (c : LensCore) : LensRes :=
  macOp v x y p csrc (fun w c => accumAll (fourProducts c a q neg w) c) c

def execLMac4 (core : Fin 8) (a : BitVec 3) (opx opy : BitVec 4) (csrc neg : Bool) (x y : Move) (s : State) : Out :=
  lensTurn core (.lMac4 core a opx opy csrc neg x y) (onCoreFree core.val (lMac4Op a opx opy csrc neg x y)) s

/-- A double-word product in 2^-94 rounded to nearest at 2^-62; a tie goes either way, as bit 0 of v says (log entry 3). -/
def roundWide (v : Half) (n : Int) : Int := if n % 2 ^ 32 = 2 ^ 31 then n / 2 ^ 32 + bit (v.getLsbD 0) else roundUp n (2 ^ 32)

/-- MAC2E: {D(x+1):D(x)}·D(y), the low word unsigned. -/
def lMac2eOp (a : BitVec 3) (p q : BitVec 4) (neg : Bool) (x y : Move) (v : Half) (c : LensCore) : LensRes :=
  macOp v x y p false (fun _ c =>
    let wide := (getD_ c (p + 1)).toInt * 2 ^ 32 + (getD_ c p).toNat
    accumAll [(a.toNat, signed neg (roundWide v (wide * (getD_ c q).toInt)))] c) c

def execLMac2e (core : Fin 8) (a : BitVec 3) (opx opy : BitVec 4) (neg : Bool) (x y : Move) (s : State) : Out :=
  lensTurn core (.lMac2e core a opx opy neg x y) (onCoreFree core.val (lMac2eOp a opx opy neg x y)) s

/-- MAC2C: a complex product into A(a) and A(a + 1). -/
def lMac2cOp (a : BitVec 3) (p q : BitVec 4) (neg : Bool) (x y : Move) (v : Half) (c : LensCore) : LensRes :=
  macOp v x y p false (fun _ c =>
    let re := (getD_ c p).toInt
    let im := (getD_ c (p + 1)).toInt
    let r2 := (getD_ c q).toInt
    let i2 := (getD_ c (q + 1)).toInt
    accumAll [(a.toNat, signed neg (re * r2 - im * i2)), (a.toNat + 1, signed neg (re * i2 + im * r2))] c) c

def execLMac2c (core : Fin 8) (a : BitVec 3) (opx opy : BitVec 4) (neg : Bool) (x y : Move) (s : State) : Out :=
  lensTurn core (.lMac2c core a opx opy neg x y) (onCoreFree core.val (lMac2cOp a opx opy neg x y)) s

def lClrOp (a : BitVec 3) (x y : Move) (v : Half) (c : LensCore) : LensRes :=
  runAlu false (withMoves v x y none (putA a.toNat 0)) c

def execLClr (core : Fin 8) (a : BitVec 3) (x y : Move) (s : State) : Out :=
  lensTurn core (.lClr core a x y) (onCoreFree core.val (lClrOp a x y)) s

def lClr4Op (a : BitVec 3) (x y : Move) (v : Half) (c : LensCore) : LensRes :=
  runAlu false (withMoves v x y none (fun c => (List.range 4).foldl (fun c j => putA (a.toNat + j) 0 c) c)) c

def execLClr4 (core : Fin 8) (a : BitVec 3) (x y : Move) (s : State) : Out :=
  lensTurn core (.lClr4 core a x y) (onCoreFree core.val (lClr4Op a x y)) s

/-- A(a)·2^sh as a Q1.31 number rounded to nearest, ties away from zero. -/
def roundAcc (v : Int) (sh : BitVec 5) : Int :=
  let k := sh.toInt
  if 0 ≤ k then roundAway (v * 2 ^ k.toNat) (2 ^ 31) else roundAway v (2 ^ (31 + (-k).toNat))

/-- RND d, a, #sh; Z and N belong to the ALU class and stay. -/
def lRndOp (d : BitVec 4) (a : BitVec 3) (sh : BitVec 5) (x y : Move) (v : Half) (c : LensCore) : LensRes :=
  runAlu false (withMoves v x y none (fun c =>
    let (r, st) := sat32r (roundAcc (getA c a.toNat) sh)
    putD d r { c with sat := st })) c

def execLRnd (core : Fin 8) (d : BitVec 4) (a : BitVec 3) (sh : BitVec 5) (x y : Move) (s : State) : Out :=
  lensTurn core (.lRnd core d a sh x y) (onCoreFree core.val (lRndOp d a sh x y)) s

/-- MVA: A(a) = D(x) as Q1.31. -/
def lMvaOp (a : BitVec 3) (p : BitVec 4) (x y : Move) (v : Half) (c : LensCore) : LensRes :=
  runAlu false (withMoves v x y none (fun c => putA a.toNat ((getD_ c p).toInt * 2 ^ 31) c)) c

def execLMva (core : Fin 8) (a : BitVec 3) (opx : BitVec 4) (x y : Move) (s : State) : Out :=
  lensTurn core (.lMva core a opx x y) (onCoreFree core.val (lMvaOp a opx x y)) s

/-! Class LDI (Table 11.10). -/

def lLdiOp (r : BitVec 6) (imm : Word) (c : LensCore) : LensRes := (writeSel r.toNat imm c).map (nextInstr 1)

def execLLdi (core : Fin 8) (r : BitVec 6) (imm : Word) (s : State) : Out :=
  lensTurn core (.lLdi core r imm) (onCore core.val (runOne (lLdiOp r imm))) s

def lMvrOp (r1 r2 : BitVec 6) (c : LensCore) : LensRes := (writeSel r1.toNat (readSel c r2.toNat) c).map (nextInstr 1)

def execLMvr (core : Fin 8) (r1 r2 : BitVec 6) (s : State) : Out :=
  lensTurn core (.lMvr core r1 r2) (onCore core.val (runOne (lMvrOp r1 r2))) s

/-! Class BUS (Table 11.10, R313): the core is master M(6 + n) and carries the tag of the tenant that holds it. -/

/-- Cycles of a single access and of a burst of n beats, without the wait for the grant (Note 2 of Table 11.10). -/
def busCycles (s : State) (n : Nat) : Nat := (8 + n) - (if shadowOf s 0x01 = 0 then 4 else 0)

/-- The Store offset an address names; another region has no path from a Lens core (Table 5.2), answered by an error with event
0x0905. -/
def inStore (a : Nat) : Bool := a < 2 ^ 24

def noPath (n a : Nat) (s : State) : State := illegalAccess (6 + n) (targetOf a).1 a (ownerOf s 0x04 n) s

/-- Four bytes of the Store read by core n, and whether the answer was an error. -/
def coreLoad (n a : Nat) (s : State) : State × Bool × Word :=
  if !inStore a then (noPath n a s, true, 0)
  else
    let (s, err, l) := storeReadAs (6 + n) (ownerOf s 0x04 n) a 4 (granted 0 (6 + n) s)
    (s, err, BitVec.ofNat 32 (unle l))

/-- Four bytes of the Store written by core n, and whether the answer was an error. -/
def coreStore (n a : Nat) (v : Word) (s : State) : State × Bool :=
  if !inStore a then (noPath n a s, true)
  else storeWriteAs (6 + n) (ownerOf s 0x04 n) a ((leBits 4 v).map fun b => (b, true)) (granted 0 (6 + n) s)

/-- A BUS instruction of core n: refused as a REP body and at an unaligned address; while another master's lock holds the Store it
waits, the state unchanged. `f` gives the state, whether the answer was an error, and what the core does with it. -/
def busOp (n : Nat) (a : BitVec 4) (mask : Nat) (beats : Nat) (f : Nat → State → Except LensCause (State × Bool × (LensCore → LensCore)))
    (s : State) : Except LensCause State :=
  let c := s.core n
  let addr := (getD_ c a).toNat
  if c.rep.isSome then .error .loopRule
  else if addr % mask ≠ 0 then .error .busAlign
  else if storeHeld s (6 + n) then .ok s
  else
    match f addr s with
    | .error e => .error e
    | .ok (t, err, g) => .ok (modLens n (fun c => nextInstr (busCycles s beats) { g c with be := err }) t)

/-- LDS: a word of the Store into d; zero when the answer is an error. -/
def lLdsOp (n : Nat) (d a : BitVec 4) (s : State) : Except LensCause State :=
  busOp n a 4 1 (fun addr s => let r := coreLoad n addr s; .ok (r.1, r.2.1, putD d r.2.2)) s

def execLLds (core : Fin 8) (d a : BitVec 4) (s : State) : Out := lensTurn core (.lLds core d a) (lLdsOp core.val d a) s

/-- STS: d into a word of the Store. -/
def lStsOp (n : Nat) (d a : BitVec 4) (s : State) : Except LensCause State :=
  busOp n a 4 1 (fun addr s => let r := coreStore n addr (getD_ (s.core n) d) s; .ok (r.1, r.2, id)) s

def execLSts (core : Fin 8) (d a : BitVec 4) (s : State) : Out := lensTurn core (.lSts core d a) (lStsOp core.val d a) s

/-- LKS: a locked load, which opens a locked sequence on its 32-byte line when the Store grants it (R127). -/
def lLksOp (n : Nat) (d a : BitVec 4) (s : State) : Except LensCause State :=
  busOp n a 4 1 (fun addr s =>
    let r := coreLoad n addr s
    let t := if r.2.1 then r.1 else modStore (fun m => { m with lock := some { master := 6 + n, line := addr / 32 }, timedOut := m.timedOut.erase (6 + n) }) r.1
    .ok (t, r.2.1, putD d r.2.2)) s

def execLLks (core : Fin 8) (d a : BitVec 4) (s : State) : Out := lensTurn core (.lLks core d a) (lLksOp core.val d a) s

/-- UNS: the locked store, which closes the sequence; without one open it acts as STS. A store to another line is no half of the
sequence (R127). After the sequence timed out it is answered with an error and discarded (R128). -/
def lUnsOp (n : Nat) (d a : BitVec 4) (s : State) : Except LensCause State :=
  busOp n a 4 1 (fun addr s =>
    if s.store.timedOut.contains (6 + n) then
      .ok (modStore (fun m => { m with timedOut := m.timedOut.erase (6 + n) }) s, true, id)
    else
    let r := coreStore n addr (getD_ (s.core n) d) s
    .ok (match s.store.lock with
         | some k => if k.line = addr / 32 then releaseLock r.1 else r.1
         | none => r.1, r.2, id)) s

def execLUns (core : Fin 8) (d a : BitVec 4) (s : State) : Out := lensTurn core (.lUns core d a) (lUnsOp core.val d a) s

/-- A burst starts at a multiple of 32 and lies in one page of the Store (R123). -/
def burstOk (addr n : Nat) : Bool := inStore addr && addr % 32 = 0 && addr % 65536 + 32 * n ≤ 65536

/-- LDB: n beats of 32 bytes from the Store into XM at P(p); P(p) moves on by 8·n words. -/
def lLdbOp (n : Nat) (p : BitVec 3) (a n1 : BitVec 4) (s : State) : Except LensCause State :=
  let beats := n1.toNat + 1
  let w := (nth (s.core n).p p.toNat).toNat
  busOp n a 1 beats (fun addr s =>
    if localWords < w + 8 * beats then .error .localAddress
    else
      let (s, err, l) := if burstOk addr beats then storeReadAs (6 + n) (ownerOf s 0x04 n) addr (32 * beats) (granted 0 (6 + n) s)
        else (noPath n addr s, true, List.replicate (32 * beats) 0)
      let words := (List.range (8 * beats)).map fun i => BitVec.ofNat 32 (peekLe l (4 * i) 4)
      .ok (s, err, fun c => { c with
        xm := localPoke c.xm w words, p := updAt c.p p.toNat (fun q => q + BitVec.ofNat 16 (8 * beats)) })) s

def execLLdb (core : Fin 8) (p : BitVec 3) (a n1 : BitVec 4) (s : State) : Out :=
  lensTurn core (.lLdb core p a n1) (lLdbOp core.val p a n1) s

/-- STB: n beats of 32 bytes from XM at P(p) into the Store. -/
def lStbOp (n : Nat) (p : BitVec 3) (a n1 : BitVec 4) (s : State) : Except LensCause State :=
  let beats := n1.toNat + 1
  let c := s.core n
  let w := (nth c.p p.toNat).toNat
  busOp n a 1 beats (fun addr s =>
    if localWords < w + 8 * beats then .error .localAddress
    else
      let l := (List.range (8 * beats)).flatMap fun i => leBits 4 (localGet c.xm (w + i))
      let (s, err) := if burstOk addr beats then storeWriteAs (6 + n) (ownerOf s 0x04 n) addr (l.map fun b => (b, true)) (granted 0 (6 + n) s)
        else (noPath n addr s, true)
      .ok (s, err, fun c => { c with p := updAt c.p p.toNat (fun q => q + BitVec.ofNat 16 (8 * beats)) })) s

def execLStb (core : Fin 8) (p : BitVec 3) (a n1 : BitVec 4) (s : State) : Out :=
  lensTurn core (.lStb core p a n1) (lStbOp core.val p a n1) s

end Sys2Proof.Machine
end

