-- ==== Sys2Proof/Machine/Prism.lean ====
section
/-! DEFINITION. Prism (10): gains, filters, the sample pipeline, buses and their ranges, and the event rows of Prism. -/

namespace Sys2Proof.Machine

/-! Gains (R281). -/

/-- 2^120·ln 10, rounded down. -/
def ln10 : Int := 3060660568284699479708353448060341288

/-- Terms of the exponential series, in 2^-120. -/
def expGo : Nat → Int → Int → Nat → Int → Int
  | 0, _, _, _, acc => acc
  | f + 1, x, t, n, acc =>
    let t' := t * x / 2 ^ 120 / (n : Int)
    expGo f x t' (n + 1) (acc + t')

/-- A value in 2^-120 squared `k` times. -/
def squareGo : Nat → Int → Int
  | 0, v => v
  | k + 1, v => squareGo k (v * v / 2 ^ 120)

/-- 10^(code/2000) as an unsigned Q5.27 value rounded to nearest; the mute code gives 0 (R281). -/
def linGain (code : Int) : Int :=
  if code = -32768 then 0
  else roundUp (squareGo 5 (expGo 34 (ln10 * code / 64000) (2 ^ 120) 1 (2 ^ 120))) (2 ^ 93)

/-- The valid gain codes. -/
def gainValid (g : Half) : Bool := g.toInt = -32768 || (-12000 ≤ g.toInt && g.toInt ≤ 2400)

/-! Rates of sources and sinks (R273). -/

/-- The stream slot that covers an ID. -/
def streamOver (l : List Stream) (id : Nat) : Option AvtpCfg :=
  l.findSome? fun x => match x.cfg with
    | some (.aaf c) => if c.base.toNat ≤ id && id < c.base.toNat + c.channels.toNat then some c else none
    | _ => none

/-- The rate of the unit that carries a source; none when no unit does. -/
def sourceFs (s : State) (id : Nat) : Option Nat :=
  if id < 0x100 then (match (s.aport (id / 32)).cfg with | some _ => some (portFs (s.aport (id / 32))) | none => none)
  else if id < 0x300 then (streamOver s.eth.listeners id).map fun c => nsrRate c.nsr.toNat
  else if id < 0x700 then plFs (s.pl ((id - 0x300) / 256)).rateRx
  else if id < 0x780 then some (fsOf (s.bus (id - 0x700)).family (s.bus (id - 0x700)).rate)
  else some (fsOf (s.core ((id - 0x780) / 16)).family (s.core ((id - 0x780) / 16)).rate)

/-- The rate of the unit that takes a sink; none when no unit does. -/
def sinkFs (s : State) (id : Nat) : Option Nat :=
  if id < 0x100 then (match (s.aport (id / 32)).cfg with | some _ => some (portFs (s.aport (id / 32))) | none => none)
  else if id < 0x300 then (streamOver s.eth.talkers id).map fun c => nsrRate c.nsr.toNat
  else if id < 0x700 then plFs (s.pl ((id - 0x300) / 256)).rateTx
  else if id < 0x780 then some (fsOf (s.bus (id - 0x700)).family (s.bus (id - 0x700)).rate)
  else some (fsOf (s.core ((id - 0x780) / 16)).family (s.core ((id - 0x780) / 16)).rate)

/-! Filters (R276 to R279). -/

/-- Terms of the sine series, in 2^-80. -/
def sinGo : Nat → Int → Int → Nat → Int → Int
  | 0, _, _, _, acc => acc
  | f + 1, x2, t, n, acc =>
    let t' := -(t * x2 / 2 ^ 80) / ((2 * n + 2) * (2 * n + 3) : Nat)
    sinGo f x2 t' (n + 1) (acc + t')

/-- sin(π·a/b) in 2^-80. -/
def sinPi (a b : Nat) : Int :=
  let x := pi80 * a / b
  sinGo 28 (x * x / 2 ^ 80) x 0 x

/-- tan(π·a/b) in 2^-80. -/
def tanPi (a b : Nat) : Int := sinPi a b * 2 ^ 80 / cosPi a b

/-- A coefficient in 2^-80 over a divisor in 2^-80, rounded to nearest in Q2.30. -/
def coef (num den : Int) : Int := roundUp (num * 2 ^ 30) den.toNat

/-- The DC blocker at a rate: b0 and a1 (R277). -/
def dcCoefs (fs : Nat) : Int × Int :=
  let k := tanPi 2 fs
  (coef (2 ^ 80) (2 ^ 80 + k), coef (k - 2 ^ 80) (2 ^ 80 + k))

/-- sqrt 2 in 2^-80. -/
def sqrt2 : Int := 1709679290002018430137083

/-- The wind high-pass at a rate: b0, b1, a1, a2 (R277). -/
def windCoefs (fc fs : Nat) : Int × Int × Int × Int :=
  let k := tanPi fc fs
  let one : Int := 2 ^ 80
  let k2 := k * k / 2 ^ 80
  let r := sqrt2 * k / 2 ^ 80
  let d := one + r + k2
  (coef one d, -(roundUp (2 * one * 2 ^ 30) d.toNat), coef (2 * (k2 - one)) d, coef (one - r + k2) d)

/-- The corners of Table 10.5. -/
def windHz : Nat → Nat
  | 1 => 20 | 2 => 40 | 3 => 80 | 4 => 120 | _ => 0

/-- A sum of products in 2^-61 rounded to Q1.31, ties away from zero, and saturated (R278). -/
def q31 (v : Int) : Int := clampInt (-(2 ^ 31)) (2 ^ 31 - 1) (roundAway v (2 ^ 30))

/-- A sample through the filters of its class (Table 10.3, R278). -/
def filterSample (fs : Nat) (x : Int) (q : SourceClass) : Int × SourceClass :=
  if q.cls = 0 then (x, q)
  else
    let (b0, a1) := dcCoefs fs
    let y := q31 (b0 * x - b0 * q.dc.1 - a1 * q.dc.2)
    let q := { q with dc := (x, y) }
    if q.cls = 1 || q.wind = 0 then (y, q)
    else
      let (c0, c1, d1, d2) := windCoefs (windHz q.wind) fs
      let (x1, x2, y1, y2) := q.hp
      let z := q31 (c0 * y + c1 * x1 + c0 * x2 - d1 * y1 - d2 * y2)
      (z, { q with hp := (y, x1, z, y1) })

/-- A Q1.31 number times a Q1.31 gain, ties away from zero. -/
def scaleInt (g x : Int) : Int := roundAway (g * x) (2 ^ 31)

/-- One boundary of a source with a class: filtered, then faded for a class change; at the end of the fade-out the history is
cleared and the new class applies (R279). History starts at zero when the rate changes (R278). -/
def classSample (fs : Nat) (x : Int) (q : SourceClass) : Int × SourceClass :=
  let q := if q.fs = fs then q else { q with fs, dc := (0, 0), hp := (0, 0, 0, 0) }
  let (y, q) := filterSample fs x q
  match q.fade with
  | none => (y, q)
  | some i =>
    if i < 63 then (scaleInt (gainOut 64 i) y, { q with fade := some (i + 1) })
    else if i = 63 then
      let (c, w) := q.change.getD (q.cls, q.wind)
      (scaleInt (gainOut 64 63) y, { q with cls := c, wind := w, change := none, fade := some 64, dc := (0, 0), hp := (0, 0, 0, 0) })
    else (scaleInt (gainIn 64 (i - 64)) y, { q with fade := if i < 127 then some (i + 1) else none })

/-! What sources deliver at a boundary (R271). -/

/-- Sources from a first ID on. -/
def numbered (first : Nat) (l : List Word) : List (Nat × Int) := l.mapIdx fun i w => (first + i, w.toInt)

/-- Receive channels of the ports at a rate. -/
def gatherPorts : Nat → Nat → State → List (Nat × Int) × State
  | 0, _, s => ([], s)
  | p + 1, fs, s =>
    let (l, s) := gatherPorts p fs s
    if sourceFs s (32 * p) = some fs then
      let (v, s) := takeInput p s
      (l ++ numbered (32 * p) v, s)
    else (l, s)

/-- The fade of a source in the map. -/
def srcFade (s : State) (id : Nat) : Fade := (assoc s.prism.srcFades id).getD { st := .silent }

/-- One listener channel at a boundary (R162, R258). -/
def listenerChannel (x : Option (List Word)) (base : Nat) (acc : List (Nat × Int) × State) (i : Nat) : List (Nat × Int) × State :=
  let s := acc.2
  let (v, f) := fadeChannel (x.map fun l => nth l i) (srcFade s (base + i))
  (acc.1 ++ [(base + i, v.toInt)], modPrism (fun m => { m with srcFades := assocSet m.srcFades (base + i) f }) s)

/-- The channels of listener k at boundary b. -/
def listenerAt (fs : Nat) (b : Int) (acc : List (Nat × Int) × State) (k : Nat) : List (Nat × Int) × State :=
  let s := acc.2
  let x := s.stream false k
  match x.cfg with
  | some (.aaf c) =>
    if nsrRate c.nsr.toNat ≠ fs then acc
    else
      let hit := if x.state = 1 && withinStream x b then (x.buf.find? fun y => y.1 = b).map (fun y => y.2) else none
      let s := modStream false k (fun x => { x with buf := x.buf.filter fun y => b < y.1 }) s
      (List.range c.channels.toNat).foldl (listenerChannel hit c.base.toNat) (acc.1, s)
  | _ => acc

/-- A sample of a receive slot of Prieth port p reaches what the slot feeds: a Prism source, or a transmit slot of another port, as a sample of its
release boundary (R216). -/
def feedLink (p : Nat) (b : Int) (v : Word) (acc : List (Nat × Int) × State) : SlotMap → List (Nat × Int) × State
  | .prism ch => (acc.1 ++ [(0x300 + 256 * p + ch, v.toInt)], acc.2)
  | .forward port slot =>
    (acc.1, modPl port (fun q => { q with txBuf := assocSet q.txBuf slot (((assoc q.txBuf slot).getD []) ++ [(b, v)]) }) acc.2)

/-- One receive slot of Prieth port p at boundary b, faded before Prism or a forward takes it (R215, R216). -/
def linkSlot (p : Nat) (b : Int) (acc : List (Nat × Int) × State) (slot : Nat) : List (Nat × Int) × State :=
  let q := acc.2.pl p
  let buf := (assoc q.rx slot).getD []
  let x := (buf.find? fun y => y.1 = b).map (fun y => y.2)
  let (v, f) := fadeChannel x ((assoc q.rxFades slot).getD { st := .silent })
  let s := modPl p (fun q => { q with
    rx := assocSet q.rx slot (buf.filter fun y => b < y.1), rxFades := assocSet q.rxFades slot f }) acc.2
  ((q.rxMap.filter fun m => m.1 = slot).map fun m => m.2).foldl (feedLink p b v) (acc.1, s)

/-- The mapped receive slots of Prieth port p at boundary b. -/
def linkAt (fs : Nat) (b : Int) (acc : List (Nat × Int) × State) (p : Nat) : List (Nat × Int) × State :=
  if plFs (acc.2.pl p).rateRx = some fs then
    ((acc.2.pl p).rxMap.map fun m => m.1).eraseDups.foldl (linkSlot p b) acc
  else acc

/-- The forwards of a rate at boundary b while Prism takes nothing: in QUIET, and in HOLDOVER with the Prieth ports kept (R216, R387, R393). -/
def forwardLinks (fs : Nat) (b : Int) (s : State) : State :=
  if timeUnitUp s fencePlink && !stoppedByHoldover s fencePlink then ((List.range 4).foldl (linkAt fs b) ([], s)).2 else s

/-- The output of a slot of a core at output boundary t: its block's sample, or none, with the fades that begin there (R303,
R324, R329). A slot in FAULT still ends its last fade-out, and is silent from then on. -/
def slotOutput (n k : Nat) (t : Int) (s : State) : List Word × State :=
  let c := s.core n
  let q := nth c.slots k
  if !slotLive q && q.st ≠ 5 then ([], s)
  else
    let x := (q.outq.find? fun y => y.1 ≤ t && t < y.1 + c.block).map fun y => nth y.2 (t - y.1).toNat
    let out := q.fadeAt.any fun f => f ≤ t
    let ramp := q.rampAt.any fun r => r ≤ t
    let chans := match q.kernel with | some h => h.outCh | none => 0
    let fades := if out then q.fades.map (fadeOut 64) else q.fades
    let fades := if ramp then fades.mapIdx (fun i f => if i < chans then rampIn f else f) else fades
    let l := fades.mapIdx fun i f => fadeStep 64 (x.map fun w => nth w i) f
    let q' := { q with
      fades := l.map (fun y => y.2), outq := q.outq.filter fun y => t < y.1 + c.block
      fadeAt := if out then none else q.fadeAt, rampAt := if ramp then none else q.rampAt }
    ((l.map fun y => y.1).take chans,
      modLens n (fun c => { c with slots := updAt c.slots k (fun _ => q'), missed := c.missed && !ramp }) s)

/-- The Lens output sources of slot k of core n at Prism boundary b, which take output boundary b + 3 (R304, R305). -/
def lensSlotAt (n : Nat) (b : Int) (acc : List (Nat × Int) × State) (k : Nat) : List (Nat × Int) × State :=
  match (nth (acc.2.core n).slots k).chain with
  | some g =>
    if g.outKind = 0 then
      let (l, s) := slotOutput n k (b + 3) acc.2
      (acc.1 ++ numbered (0x780 + 16 * n + g.outFirst.toNat) l, s)
    else acc
  | none => acc

/-- The Lens output sources of a core. -/
def lensAt (fs : Nat) (b : Int) (acc : List (Nat × Int) × State) (n : Nat) : List (Nat × Int) × State :=
  if sourceFs acc.2 (0x780 + 16 * n) = some fs then (List.range 4).foldl (lensSlotAt n b) acc else acc

/-- The buses at a rate. -/
def busesAt (s : State) (fs : Nat) : List Nat := (List.range 128).filter fun b => fsOf (s.bus b).family (s.bus b).rate = fs

/-- What every source at a rate carries at boundary b, in 2^-31; a bus output is its word times 2^s, exactly (R283). -/
def gather (fs : Nat) (b : Int) (s : State) : List (Nat × Int) × State :=
  let acc := gatherPorts 8 fs s
  let acc := (List.range 64).foldl (listenerAt fs b) acc
  let acc := (List.range 4).foldl (linkAt fs b) acc
  let acc := (List.range 8).foldl (lensAt fs b) acc
  (acc.1 ++ (busesAt s fs).map (fun m => (0x700 + m, (acc.2.bus m).out * 2 ^ (acc.2.bus m).outS)), acc.2)

/-- A source through the filter stage (R274). -/
def filterStage (fs : Nat) (acc : List (Nat × Int) × State) (x : Nat × Int) : List (Nat × Int) × State :=
  match assoc acc.2.prism.classes x.1 with
  | none => (acc.1 ++ [x], acc.2)
  | some q =>
    let (y, q) := classSample fs x.2 q
    (acc.1 ++ [(x.1, y)], modPrism (fun m => { m with classes := assocSet m.classes x.1 q }) acc.2)

/-- The value of a source among those gathered. -/
def valueOf (l : List (Nat × Int)) (id : Nat) : Int := (assoc l id).getD 0

/-! Crosspoints and routes at a boundary (R273, R282, R291, R292, R299). -/

/-- RAMP_LEN of a tenant. -/
def rampLen (s : State) (t : Nat) : Nat := (s.tenant t).mirror.rampLen

/-- The rates of two ends differ; an end without a unit has none. -/
def ratesDiffer (a : Option Nat) (fs : Nat) : Bool := match a with | some f => f ≠ fs | none => false

/-- The gain that crosspoint x moves to. -/
def xpTarget (x : Xp) : Int := if x.clearing then 0 else linGain x.code

/-- The gain in force of a crosspoint at this boundary, a fraction of 2^-27 (R291). -/
def xpGain (x : Xp) : Int × Nat :=
  match x.ramp with
  | none => (xpTarget x, 1)
  | some r => (r.num * r.len + (xpTarget x * r.den - r.num) * (r.step + 1 : Nat), r.den * r.len)

/-- A ramp one boundary on; none after its last. -/
def xpNext (x : Xp) : Option Xp :=
  let x := match x.ramp with
    | some r => { x with ramp := if r.step + 1 < r.len then some { r with step := r.step + 1 } else none }
    | none => x
  if x.clearing && x.ramp.isNone then none
  else match x.dying with
    | some i => if i < 63 then some { x with dying := some (i + 1) } else none
    | none => some x

/-- What a crosspoint adds to its bus for a value, in 2^-35 rounded to nearest (R282); the fade of a revoke scales it (R299). -/
def contribution (v : Int) (x : Xp) : Int :=
  let (num, den) := xpGain x
  match x.dying with
  | some i => roundAway (v * num * gainOut 64 i) (den * 2 ^ 54)
  | none => roundAway (v * num) (den * 2 ^ 23)

/-- One crosspoint at a boundary of rate fs: those of other buses' rates are left; a mismatch holds it at zero, with event 0x0604
when it begins, and it ramps in when the rates match again (R273). -/
def xpStage (fs : Nat) (vals : List (Nat × Int)) (acc : List (Nat × Int) × List Xp × List Nat × State) (x : Xp) :
    List (Nat × Int) × List Xp × List Nat × State :=
  let (sums, keep, freed, s) := acc
  if fsOf (s.bus x.bus).family (s.bus x.bus).rate ≠ fs then (sums, keep ++ [x], freed, s)
  else if ratesDiffer (sourceFs s x.source) fs && x.dying.isNone then
    (sums, if x.clearing then keep else keep ++ [{ x with mismatch := true }], freed,
      if x.mismatch then s else record 0x0604 x.owner [(2, x.source), (2, 0x700 + x.bus)] s)
  else
    let x := if x.mismatch then
        { x with mismatch := false, ramp := some { num := 0, den := 1, step := 0, len := rampLen s x.owner } } else x
    let add := contribution (valueOf vals x.source) x
    let sums := assocSet sums x.bus (valueOf sums x.bus + add)
    match xpNext x with
    | some y => (sums, keep ++ [y], freed, s)
    | none => (sums, keep, if x.dying.isSome then freed ++ [x.owner] else freed, s)

/-- The value an insert route gives its bus, in 2^-35 (R272, R292). -/
def routeValue (s : State) (fs : Nat) (vals : List (Nat × Int)) (x : Route) : Int :=
  let at_ := fun (o : Option Nat) => match o with
    | some id => if ratesDiffer (sourceFs s id) fs then 0 else valueOf vals id
    | none => 0
  let v := match x.ramp with
    | none => at_ x.source * 16
    | some (i, len) => roundAway ((at_ x.old * ((len : Int) - (i + 1 : Nat)) + at_ x.source * (i + 1 : Nat)) * 16) len
  match x.dying with
  | some i => roundAway (v * gainOut 64 i) (2 ^ 31)
  | none => v

/-- A route one boundary on; none when it has nothing left to do. -/
def routeNext (x : Route) : Option Route :=
  let x := match x.ramp with
    | some (i, len) => if i + 1 < len then { x with ramp := some (i + 1, len) } else { x with ramp := none, old := none }
    | none => x
  if x.source.isNone && x.ramp.isNone then none
  else match x.dying with
    | some i => if i < 63 then some { x with dying := some (i + 1) } else none
    | none => some x

/-- The sink is the insert of a bus (R272). -/
def isInsert (sink : Nat) : Bool := 0x700 ≤ sink && sink < 0x780

/-- A source's part of a route's value with a weight: a bus output is named, since the word that the mix stage forms of this boundary reaches the
sink with it (R274, R333); any other source is known. -/
def routeTerm (s : State) (fs : Nat) (vals : List (Nat × Int)) (o : Option Nat) (w : Int) : Int × List (Nat × Int) :=
  match o with
  | none => (0, [])
  | some id =>
    if ratesDiffer (sourceFs s id) fs then (0, [])
    else if isInsert id then (0, [(id - 0x700, w)])
    else (valueOf vals id * w, [])

/-- What a route gives a sink that is no insert, its bus outputs still to be formed (R272, R274, R292). -/
def routeForm (s : State) (fs : Nat) (vals : List (Nat × Int)) (x : Route) : SinkForm :=
  match x.ramp with
  | none =>
    let a := routeTerm s fs vals x.source 1
    { sink := x.sink, known := a.1, buses := a.2, dying := x.dying }
  | some (i, len) =>
    let a := routeTerm s fs vals x.old ((len : Int) - (i + 1 : Nat))
    let b := routeTerm s fs vals x.source ((i + 1 : Nat) : Int)
    { sink := x.sink, known := a.1 + b.1, buses := a.2 ++ b.2, den := len, dying := x.dying }

/-- The value of a sink in 2^-35 once the buses of its boundary are formed. -/
def formValue (s : State) (f : SinkForm) : Int :=
  let sum := f.known + (f.buses.map fun x => x.2 * ((s.bus x.1).formed * 2 ^ (s.bus x.1).formedS)).sum
  let v := roundAway (sum * 16) f.den
  match f.dying with
  | some i => roundAway (v * gainOut 64 i) (2 ^ 31)
  | none => v

/-- One route at a boundary of its sink's rate: a value to form, or a contribution to the sum of a bus. -/
def routeStage (fs : Nat) (vals : List (Nat × Int)) (acc : (List SinkForm × List (Nat × Int)) × List Route × List Nat × State) (x : Route) :
    (List SinkForm × List (Nat × Int)) × List Route × List Nat × State :=
  let (outs, keep, freed, s) := acc
  if sinkFs s x.sink ≠ some fs then (outs, keep ++ [x], freed, s)
  else
    let bad := match x.source with | some id => ratesDiffer (sourceFs s id) fs && x.dying.isNone | none => false
    if bad then
      (outs, keep ++ [{ x with mismatch := true }], freed,
        if x.mismatch then s else record 0x0604 x.owner [(2, x.source.getD 0), (2, x.sink)] s)
    else
      let x := if x.mismatch then { x with mismatch := false, old := none, ramp := some (0, rampLen s x.owner) } else x
      let outs := if isInsert x.sink then (outs.1, assocSet outs.2 (x.sink - 0x700) (valueOf outs.2 (x.sink - 0x700) + routeValue s fs vals x))
        else (outs.1 ++ [routeForm s fs vals x], outs.2)
      match routeNext x with
      | some y => (outs, keep ++ [y], freed, s)
      | none => (outs, keep, if x.dying.isSome then freed ++ [x.owner] else freed, s)

/-- Event 0x0605 for each tenant whose crosspoints and routes were freed after a revoke (R299). -/
def tellFreed (freed : List Nat) (s : State) : State :=
  freed.eraseDups.foldl (fun s t => record 0x0605 t [(1, t), (2, freed.count t)] s) s

/-- The route stage of boundary b: contributions, with insert routes added at unity gain (R272), into the pipeline. -/
def routeAll (fs : Nat) (vals : List (Nat × Int)) (s : State) : (List SinkForm × List (Nat × Int)) × State :=
  let (sums, xps, f1, s) := s.prism.xps.foldl (xpStage fs vals) ([], [], [], s)
  let (outs, routes, f2, s) := s.prism.routes.foldl (routeStage fs vals) (([], sums), [], [], s)
  (outs, tellFreed (f1 ++ f2) (modPrism (fun m => { m with xps, routes }) s))

/-! Buses (R282 to R286, R298). -/

/-- s of a range code: FS = 2^s (Table 10.8). -/
def rangeS (r : Nat) : Nat := 2 * r

/-- |v| lies above the step-up threshold 2^-1/2·FS of range r, v in 2^-35. -/
def aboveUp (v : Int) (r : Nat) : Bool := (2 ^ 70 * 4 ^ rangeS r : Nat) < 2 * v * v

/-- |v| lies below the step-down threshold 2^-2.5·FS of range r. -/
def belowDown (v : Int) (r : Nat) : Bool := 32 * v * v < (2 ^ 70 * 4 ^ rangeS r : Nat)

/-- The word of a bus value in a range: v·2^-s rounded to nearest Q1.31, ties away, saturated (R283). -/
def busWord (v : Int) (r : Nat) : Int := clampInt (-(2 ^ 31)) (2 ^ 31 - 1) (roundAway v (2 ^ (4 + rangeS r)))

/-- The smallest range whose step-up threshold |v| does not exceed, or +24 dB (R284). -/
def fitRange (v : Int) : Nat := if !aboveUp v 0 then 0 else if !aboveUp v 1 then 1 else 2

/-- A bus takes a range, with event 0x0601 and one more step. -/
def setRange (b r : Nat) (s : State) : State :=
  let q := s.bus b
  if q.range = r then s
  else
    record 0x0601 (ownerOf s 0x03 b) [(1, b), (1, q.range), (1, r), (1, bit (decide (r < q.range)))]
      (modBus b (fun q => { q with range := r, below := 0, steps := q.steps + 1 }) s)

/-- The mix stage of a bus: the word of its sum in the range in force, then the range for the next sample (R284, R285). -/
def busStage (sums : List (Nat × Int)) (s : State) (b : Nat) : State :=
  let v := valueOf sums b
  let q := s.bus b
  let s := modBus b (fun q => { q with formed := busWord v q.range, formedS := rangeS q.range }) s
  if !q.auto then s
  else if q.range < 2 && aboveUp v q.range then setRange b (fitRange v) s
  else modBus b (fun q => { q with below := if 0 < q.range && belowDown v q.range then q.below + 1 else 0 }) s

/-- A sink's value in 2^-35 as Q1.31, saturated with event 0x0602 (R283, R300). -/
def sinkStage (acc : List (Nat × Word) × State) (x : Nat × Int) : List (Nat × Word) × State :=
  let v := roundAway x.2 16
  let w := clampInt (-(2 ^ 31)) (2 ^ 31 - 1) v
  (acc.1 ++ [(x.1, BitVec.ofInt 32 w)], if v = w then acc.2 else record 0x0602 (ownerOf acc.2 0x02 x.1) [(2, x.1)] acc.2)

/-- The mix stage of the boundary two before: its buses, then its sinks, which take the words of this boundary (R274). -/
def mixStage (fs pipe : Nat) (s : State) : State :=
  match (nth s.prism.pipes pipe).stages with
  | e :: f :: l =>
    let s := (busesAt s fs).foldl (busStage e.2) s
    let (formed, s) := (e.1.map fun f => (f.sink, formValue s f)).foldl sinkStage ([], s)
    modPrism (fun m => { m with pipes := updAt m.pipes pipe (fun _ => { stages := f :: l, formed }) }) s
  | _ => s

/-! Delivery. -/

/-- The value of a sink that is no port's with its fade of QUIET, SLEEP or HOLDOVER, over 64 samples (R258); a fade that is over is dropped. -/
def fadeSink (acc : List (Nat × Word) × State) (x : Nat × Word) : List (Nat × Word) × State :=
  match assoc acc.2.prism.sinkFades x.1 with
  | none => (acc.1 ++ [x], acc.2)
  | some f =>
    let (v, f) := fadeStep 64 (some x.2) f
    (acc.1 ++ [(x.1, v)], modPrism (fun m => { m with
      sinkFades := if f.st = .pass then assocDel m.sinkFades x.1 else assocSet m.sinkFades x.1 f }) acc.2)

/-- A sink's value, zero without a route (R272). -/
def sinkValue (l : List (Nat × Word)) (id : Nat) : Word := (assoc l id).getD 0

/-- Sinks reach the ports at a rate. -/
def deliverPort (fs : Nat) (l : List (Nat × Word)) (s : State) (p : Nat) : State :=
  if sinkFs s (32 * p) = some fs then giveOutput p ((List.range 32).map fun c => sinkValue l (32 * p + c)) s else s

/-- Sinks reach a running talker (R159). -/
def deliverTalker (fs : Nat) (b : Int) (l : List (Nat × Word)) (s : State) (k : Nat) : State :=
  let x := s.stream true k
  match x.cfg with
  | some (.aaf c) =>
    if x.state = 1 && nsrRate c.nsr.toNat = fs && x.firstB ≤ b && withinStream x b then
      modStream true k (fun x => { x with
        collected := x.collected ++ [(List.range c.channels.toNat).map fun i => sinkValue l (c.base.toNat + i)] }) s
    else s
  | _ => s

/-- Sinks reach the transmit slots of a Prieth port (R213, R216). -/
def deliverLink (fs : Nat) (b : Int) (l : List (Nat × Word)) (s : State) (p : Nat) : State :=
  if plFs (s.pl p).rateTx ≠ some fs then s
  else modPl p (fun q => q.tx.foldl (fun q m => match m.2 with
    | .prism ch => { q with txBuf := assocSet q.txBuf m.1 (((assoc q.txBuf m.1).getD []) ++ [(b, sinkValue l (0x300 + 256 * p + ch))]) }
    | .forward _ _ => q) q) s

/-- Sinks reach the inputs of a Lens core, gathered for its block (R303). -/
def deliverLens (fs : Nat) (l : List (Nat × Word)) (s : State) (n : Nat) : State :=
  if sinkFs s (0x780 + 16 * n) ≠ some fs then s
  else
    let v := (List.range 16).map fun i => sinkValue l (0x780 + 16 * n + i)
    modLens n (fun c => { c with sinks := v, inBlk := (c.inBlk ++ [v]).drop (c.inBlk.length + 1 - c.block) }) s

/-- Buses put out the words formed at the boundary before. -/
def deliverBus (s : State) (b : Nat) : State := modBus b (fun q => { q with out := q.formed, outS := q.formedS }) s

/-- Every consumer at a rate takes its sinks at boundary b. -/
def deliverAll (fs : Nat) (b : Int) (l : List (Nat × Word)) (s : State) : State :=
  let s := (List.range 8).foldl (deliverPort fs l) s
  let s := (List.range 64).foldl (deliverTalker fs b l) s
  let s := (List.range 4).foldl (deliverLink fs b l) s
  (List.range 8).foldl (deliverLens fs l) s

/-- Prism runs: CORE is up, neither Prism nor Mirror is fenced (R20), and HOLDOVER has not stopped it. -/
def prismRuns (s : State) : Bool := prismUp s && !stoppedByHoldover s fencePrism

/-- The sources of a class at a rate that deliver nothing at this boundary: they carry zero through their filters and their change of class goes
on (R279). -/
def restingSources (fs : Nat) (raw : List (Nat × Int)) (s : State) : List (Nat × Int) :=
  (s.prism.classes.filter fun x => sourceFs s x.1 = some fs && !(raw.any fun y => y.1 = x.1)).map fun x => (x.1, 0)

/-- One boundary of Prism at rate fs: what was formed leaves, the boundary two before is mixed, this one is filtered and routed
(R274). While Prism is gated, sources are dropped and every consumer takes zeros (R387). -/
def prismBoundary (fs pipe : Nat) (s : State) : State :=
  let b := boundaryUpTo s fs s.now
  if s.prism.gated then
    let s := forwardLinks fs b (gatherPorts 8 fs s).2
    let s := modPrism (fun m => { m with pipes := updAt m.pipes pipe (fun _ => {}) }) s
    deliverAll fs b [] s
  else
    let (l, s) := (nth s.prism.pipes pipe).formed.foldl fadeSink ([], s)
    let s := (busesAt s fs).foldl deliverBus s
    let s := deliverAll fs b l s
    let s := mixStage fs pipe s
    let (raw, s) := gather fs b s
    let (vals, s) := (raw ++ restingSources fs raw s).foldl (filterStage fs) ([], s)
    let (e, s) := routeAll fs vals s
    modPrism (fun m => { m with pipes := updAt m.pipes pipe (fun q => { q with stages := q.stages ++ [e] }) }) s

/-- PRISM_SAMPLE: a sample boundary of a family (true: 48 kHz) and rate; while Prism does not run, the link forwards go on. -/
def execPrismSample (family : Bool) (rate : Fin 3) (s : State) : Out :=
  let fs := fsOf (bit family) rate.val
  if prismRuns s then fin (prismBoundary fs (3 * bit family + rate.val) s) else .next (forwardLinks fs (boundaryUpTo s fs s.now) s)

/-- BUS_RANGE_STEP_DOWN: after fs/2 samples below the threshold the bus forms words one range lower (R285). -/
def execBusRangeStepDown (bus : Fin 128) (s : State) : Out :=
  let q := s.bus bus.val
  if q.auto && 0 < q.range && fsOf q.family q.rate ≤ 2 * q.below then fin (setRange bus.val (q.range - 1) s) else .next s

/-! Fades of every sink, restore (R258, R301, R387). -/

/-- Every sink starts its fade-out: those of the ports on the reading side of their output FIFOs, the others over 64 samples (R258). -/
def fadeSinks (s : State) : State :=
  fadePortOutputs (modPrism (fun m => { m with sinkFades := m.routes.foldl (fun l x =>
    if x.sink < 0x100 || isInsert x.sink then l
    else assocSet l x.sink (fadeOut 64 ((assoc l x.sink).getD {}))) m.sinkFades }) s)

/-- Every sink's fade-out has ended. -/
def sinksFaded (s : State) : Bool := (s.prism.sinkFades.all fun x => x.2.st ≠ .out) && portOutputsFaded s

/-- Each tenant's state becomes the target of every ramp and cross-fade that had taken effect (R301); what a revoke fades out is freed, with event
0x0605 (R299). -/
def settlePrism (s : State) : State :=
  tellFreed ((s.prism.xps.filter fun x => x.dying.isSome).map (fun x => x.owner) ++
    (s.prism.routes.filter fun x => x.dying.isSome).map fun x => x.owner) <| modPrism (fun m => { m with
    xps := (m.xps.filter fun x => !x.clearing && x.dying.isNone).map fun x => { x with ramp := none }
    routes := (m.routes.filter fun x => x.source.isSome && x.dying.isNone).map fun x => { x with ramp := none, old := none }
    classes := m.classes.map fun x =>
      let (c, w) := x.2.change.getD (x.2.cls, x.2.wind)
      (x.1, { cls := c, wind := w, fs := x.2.fs }) }) s

/-- Prism with its filters and pipelines empty. -/
def emptyPrism (s : State) : State :=
  modPrism (fun m => { m with
    pipes := List.replicate 6 {}, buses := m.buses.map fun q => { q with formed := 0, out := 0, below := 0 }
    classes := m.classes.map fun x => (x.1, { x.2 with dc := (0, 0), hp := (0, 0, 0, 0) }) }) s

/-- Prism resumes: every sink ramps in (R387, R267). -/
def resumePrism (s : State) : State :=
  rampPortOutputs (modPrism (fun m => { m with
    gated := false
    sinkFades := m.routes.foldl (fun l x => if x.sink < 0x100 || isInsert x.sink then l else assocSet l x.sink (rampIn { st := .silent })) [] }) s)

/-- A fade that QUIET began is called off: every sink still fading ramps in after it. -/
def unfadeSinks (s : State) : State :=
  rampPortOutputs (modPrism (fun m => { m with sinkFades := m.sinkFades.map fun x => (x.1, rampIn x.2) }) s)

end Sys2Proof.Machine
end

