-- ==== Sys2Proof/Machine/Mirror.lean ====
section
/-! DEFINITION. The commands of groups 0x06 and 0x07 (10): crosspoints, routes, buses, scenes and the Mirror of a tenant. -/

namespace Sys2Proof.Machine

/-! The swap grid (R288, R289). -/

/-- The rate of a tenant's swap grid. -/
def swapFs (s : State) (t : Nat) : Nat := fsOf (s.tenant t).mirror.family (s.tenant t).mirror.rate

/-- The boundary index of the last swap grid point at or before now. -/
def swapPoint (s : State) (t : Nat) : Int :=
  let b : Int := (s.tenant t).mirror.block
  boundaryUpTo s (swapFs s t) s.now / b * b

/-- The boundary index of the first swap grid point at or after now. -/
def swapNext (s : State) (t : Nat) : Int :=
  let b : Int := (s.tenant t).mirror.block
  ceilDiv (boundaryFrom s (swapFs s t) s.now) b * b

/-- A commit of the tenant waits for its boundary. -/
def commitPending (n : Tenant) : Bool := n.pend.any (fun p => atSwap p.cmd) || n.groups.any (fun g => g.committing || g.armed)

/-- A ramp or a cross-fade of the tenant runs. -/
def ramping (s : State) (t : Nat) : Bool :=
  s.prism.xps.any (fun x => x.owner = t && x.ramp.isSome) || s.prism.routes.any (fun x => x.owner = t && x.ramp.isSome)

/-! Crosspoints. -/

/-- A fraction in lowest terms. -/
def reduced (num : Int) (den : Nat) : Int × Nat :=
  let g := max 1 (Nat.gcd num.natAbs den)
  (num / g, den / g)

/-- A ramp from the gain last in force to what the crosspoint moves to, over L boundaries (R291). -/
def rampFrom (len : Nat) (old new : Xp) : Xp :=
  let (num, den) := match old.ramp with
    | none => (xpTarget old, 1)
    | some r => (r.num * r.len + (xpTarget old * r.den - r.num) * (r.step : Nat), r.den * r.len)
  let (num, den) := reduced num den
  { new with ramp := some { num, den, step := 0, len } }

/-- A crosspoint that exists and is not being cleared. -/
def xpLive (s : State) (src bus : Nat) : Bool :=
  s.prism.xps.any fun x => x.source = src && x.bus = bus && !x.clearing && x.dying.isNone

/-- A crosspoint still counted (R280). -/
def xpCounted (s : State) (src bus : Nat) : Bool := s.prism.xps.any fun x => x.source = src && x.bus = bus

/-- Set a crosspoint for tenant t (Note 1 of Table 10.11, R291): a new one ramps from 0, a changed gain from the gain in force. -/
def setXp (t : Nat) (s : State) (i : XpItem) : State :=
  let src := i.source.toNat
  let bus := i.bus.toNat
  let len := rampLen s t
  let code := i.gain.toInt
  if xpCounted s src bus then
    modPrism (fun m => { m with xps := m.xps.map fun x =>
      if x.source = src && x.bus = bus then
        (if x.code = code && !x.clearing && x.dying.isNone then { x with owner := t }
         else rampFrom len x { x with code, clearing := false, dying := none, owner := t })
      else x }) s
  else modPrism (fun m => { m with
    xps := m.xps ++ [{ source := src, bus, code, ramp := some { num := 0, den := 1, step := 0, len }, owner := t }] }) s

/-- Clear a crosspoint: it ramps to 0 and is then freed (R291). -/
def clearXp (t src bus : Nat) (s : State) : State :=
  modPrism (fun m => { m with xps := m.xps.map fun x =>
    if x.source = src && x.bus = bus && !x.clearing then rampFrom (rampLen s t) x { x with clearing := true } else x }) s

/-- The edge among buses from a source to a bus it feeds, by crosspoint or insert route (R275). -/
def busEdge (source sink : Nat) : List (Nat × Nat) :=
  if isInsert source && isInsert sink then [(source - 0x700, sink - 0x700)] else []

/-- The entries of an image, 8 bytes each. -/
def entriesIn (body : List Byte) (n : Nat) : List (List Byte) := (List.range n).map fun i => slice body (8 * i) 8

/-- The crosspoints that a command sets, as source and bus, and the routes it sets, as source and sink; those of a recall stand in the entries it
copied (Table 10.10). -/
def xpsSet (i : Instr) (copied : List Byte) : List (Nat × Nat) :=
  match i with
  | .prismXpSet _ l => l.map fun x => (x.source.toNat, x.bus.toNat)
  | .sceneRecall _ _ => ((entriesIn copied (copied.length / 8)).filter fun e => peekLe e 0 1 = 2).map fun e => (peekLe e 2 2, peekLe e 1 1)
  | _ => []
def routesSet (i : Instr) (copied : List Byte) : List (Nat × Nat) :=
  match i with
  | .prismRoute _ sink src _ => if src = 0xFFFF then [] else [(src.toNat, sink.toNat)]
  | .sceneRecall _ _ => ((entriesIn copied (copied.length / 8)).filter fun e => peekLe e 0 1 = 3).map fun e => (peekLe e 4 2, peekLe e 2 2)
  | _ => []

/-- The bus edges that a command adds. -/
def edgesSet (i : Instr) (copied : List Byte) : List (Nat × Nat) :=
  ((xpsSet i copied).flatMap fun x => busEdge x.1 (0x700 + x.2)) ++ (routesSet i copied).flatMap fun x => busEdge x.1 x.2

/-- The staged commands, and the pending ones that wait for a swap, with the bytes they copied. -/
def waitingCmds (s : State) : List (Instr × List Byte) :=
  s.tenants.flatMap fun n =>
    (n.groups.flatMap fun g => g.staged.map fun x => (x.cmd, x.copied)) ++ n.pend.map fun p => (p.cmd, p.copied)

/-- The edges among buses: those in force, a crosspoint or route that ramps out among them, and those of staged and pending commands (R275, log
entry 130). -/
def busEdges (s : State) : List (Nat × Nat) :=
  (s.prism.xps.flatMap fun x => busEdge x.source (0x700 + x.bus)) ++
  (s.prism.routes.flatMap fun x => (x.source.toList ++ x.old.toList).flatMap fun id => busEdge id x.sink) ++
  (waitingCmds s).flatMap fun x => edgesSet x.1 x.2

/-- The nodes reached from some by up to k edges. -/
def reachGo (edges : List (Nat × Nat)) : Nat → List Nat → List Nat
  | 0, l => l
  | k + 1, l =>
    let new := ((edges.filter fun e => l.contains e.1 && !l.contains e.2).map fun e => e.2).eraseDups
    if new = [] then l else reachGo edges k (l ++ new)

/-- An edge from bus a to bus b would close a cycle. -/
def closesCycle (edges : List (Nat × Nat)) (a b : Nat) : Bool := (reachGo edges 128 [b]).contains a

/-- Edges, one after another, of which one closes a cycle. -/
def anyCycle : List (Nat × Nat) → List (Nat × Nat) → Bool
  | _, [] => false
  | edges, e :: l => closesCycle edges e.1 e.2 || anyCycle (e :: edges) l

/-- The new crosspoints that a command asks for. -/
def newXps (s : State) (i : Instr) (copied : List Byte) : List (Nat × Nat) :=
  ((xpsSet i copied).filter fun x => !xpCounted s x.1 x.2).eraseDups

/-- The buses that get an insert route from a command and have none. -/
def newInserts (s : State) (i : Instr) (copied : List Byte) : List Nat :=
  (((routesSet i copied).filter fun x => isInsert x.2 && !(s.prism.routes.any fun y => y.sink = x.2)).map fun x => x.2 - 0x700).eraseDups

/-- The crosspoints and the insert routes that staged and pending commands reserve, one list for each command (R280). -/
def reservedXps (s : State) : List (Nat × Nat) := (waitingCmds s).flatMap fun x => newXps s x.1 x.2
def reservedInserts (s : State) : List Nat := (waitingCmds s).flatMap fun x => newInserts s x.1 x.2

/-- Contributions of a bus: crosspoints plus the insert route (R280). -/
def contribs (s : State) (b : Nat) : Nat :=
  (s.prism.xps.filter fun x => x.bus = b).length + bit (s.prism.routes.any fun x => x.sink = 0x700 + b)

/-- What a command adds goes beyond 8,192 crosspoints in total or 256 contributions to a bus (R280). -/
def xpOverflow (s : State) (i : Instr) (copied : List Byte) : Bool :=
  let new := newXps s i copied
  let held := reservedXps s
  let ins := newInserts s i copied
  let buses := (held ++ new).map (fun x => x.2) ++ reservedInserts s ++ ins
  (new ≠ [] && decide (8192 < s.prism.xps.length + held.length + new.length)) ||
    (new.map (fun x => x.2) ++ ins).any fun b => 256 < contribs s b + buses.count b

def prismXpSetM (r : Req) (l : List XpItem) : Meaning where
  checks := fun s =>
    [(.range, l = [] || 64 < l.length || l.any (fun i => !gainValid i.gain) || anyCycle (busEdges s) (edgesSet (.prismXpSet r l) [])),
     (.noResource, xpOverflow s (.prismXpSet r l) [])]
  effect := fun _ s => (l.foldl (setXp r.tenant.val) s, .ok, [])

def execPrismXpSet (r : Req) (l : List XpItem) (s : State) : Out := fin (submit (.prismXpSet r l) (prismXpSetM r l) s)

def prismXpClearM (r : Req) (l : List XpKey) : Meaning where
  checks := fun s => [(.range, l = [] || 64 < l.length || l.any fun i => !xpLive s i.source.toNat i.bus.toNat)]
  effect := fun _ s => (l.foldl (fun s i => clearXp r.tenant.val i.source.toNat i.bus.toNat s) s, .ok, [])

def execPrismXpClear (r : Req) (l : List XpKey) (s : State) : Out :=
  fin (submit (.prismXpClear r l) (prismXpClearM r l) s)

def prismDirectGainM (src : Half) (bus : Byte) (gain : Half) : Meaning where
  checks := fun s => [(.range, !gainValid gain || !xpLive s src.toNat bus.toNat)]
  effect := fun _ s =>
    (modPrism (fun m => { m with xps := m.xps.map fun x =>
      if x.source = src.toNat && x.bus = bus.toNat then { x with code := gain.toInt, ramp := none } else x }) s, .ok, [])

def execPrismDirectGain (r : Req) (src : Half) (bus : Byte) (gain : Half) (s : State) : Out :=
  fin (submit (.prismDirectGain r src bus gain) (prismDirectGainM src bus gain) s)

/-! Input classes (R276, R279). -/

/-- CLASS and WIND of a source are out of range (Tables 10.3 and 10.12). -/
def badClass (src : Nat) (cls wind : Byte) : Bool :=
  0x77F < src || 2 < cls.toNat || (if cls = 2 then 4 < wind.toNat else wind ≠ 0) || (0x700 ≤ src && cls ≠ 0)

/-- A class change of a source begins its fade-out, from the present gain (R279, R259); a source that no unit carries has no samples to fade, and
takes its class at once (log entry 131). -/
def changeClass (src cls wind : Nat) (s : State) : State :=
  let q := (assoc s.prism.classes src).getD {}
  if (q.change.getD (q.cls, q.wind)) = (cls, wind) then s
  else if (sourceFs s src).isNone then modPrism (fun m => { m with classes := assocSet m.classes src { cls, wind } }) s
  else
    let fade := match q.fade with
      | none => 0
      | some i => if i < 64 then i else 127 - i
    modPrism (fun m => { m with classes := assocSet m.classes src { q with change := some (cls, wind), fade := some fade } }) s

def prismInputClassM (src : Half) (cls wind : Byte) : Meaning where
  checks := fun _ => [(.range, badClass src.toNat cls wind)]
  effect := fun _ s => (changeClass src.toNat cls.toNat wind.toNat s, .ok, [])

def execPrismInputClass (r : Req) (src : Half) (cls wind : Byte) (s : State) : Out :=
  fin (submit (.prismInputClass r src cls wind) (prismInputClassM src cls wind) s)

/-! Routes (R272, R292). -/

/-- Give a sink a source or none: a cross-fade from its present source, or with CUT the new source alone (R292). -/
def setRoute (t sink : Nat) (source : Option Nat) (cut : Bool) (s : State) : State :=
  let old := s.prism.routes.find? fun x => x.sink = sink
  let rest := s.prism.routes.filter fun x => x.sink ≠ sink
  let fresh : Route := match old with
    | some x =>
      if x.source = source && x.dying.isNone then { x with cut, owner := t }
      else { sink, source, cut, old := x.source, ramp := if cut then none else some (0, rampLen s t), owner := t }
    | none => { sink, source, cut, ramp := if cut then none else some (0, rampLen s t), owner := t }
  let gone := fresh.source.isNone && (fresh.ramp.isNone || old.isNone)
  modPrism (fun m => { m with routes := if gone then rest else rest ++ [fresh] }) s

def prismRouteM (r : Req) (sink source : Half) (flags : Byte) : Meaning where
  checks := fun s =>
    [(.range, anyCycle (busEdges s) (edgesSet (.prismRoute r sink source flags) [])),
     (.noResource, xpOverflow s (.prismRoute r sink source flags) [])]
  effect := fun _ s =>
    (setRoute r.tenant.val sink.toNat (if source = 0xFFFF then none else some source.toNat) (flags.getLsbD 0) s, .ok, [])

def execPrismRoute (r : Req) (sink source : Half) (flags : Byte) (s : State) : Out :=
  fin (submit (.prismRoute r sink source flags) (prismRouteM r sink source flags) s)

/-! Buses (R286, R297). -/

/-- A bus has a contribution or feeds a route or crosspoint (Note 2 of Table 10.11). -/
def busInUse (s : State) (b : Nat) : Bool :=
  0 < contribs s b || s.prism.xps.any (fun x => x.source = 0x700 + b) ||
    s.prism.routes.any (fun x => x.source = some (0x700 + b) || x.old = some (0x700 + b))

/-- A bus configured: in auto mode it keeps the range in force, STEPS restarts (R286, R297). -/
def configBus (b family rate mode range : Nat) (s : State) : State :=
  let s := if mode = 1 then s else setRange b range s
  modBus b (fun q => { q with family, rate, auto := mode = 1, below := 0, steps := 0 }) s

def prismBusConfigM (bus family rate mode range : Byte) : Meaning where
  checks := fun s =>
    let q := s.bus bus.toNat
    [(.range, 1 < family.toNat || 2 < rate.toNat || 1 < mode.toNat || 2 < range.toNat),
     (.busy, (family.toNat ≠ q.family || rate.toNat ≠ q.rate) && busInUse s bus.toNat)]
  effect := fun _ s => (configBus bus.toNat family.toNat rate.toNat mode.toNat range.toNat s, .ok, [])

def execPrismBusConfig (r : Req) (bus family rate mode range : Byte) (s : State) : Out :=
  fin (submit (.prismBusConfig r bus family rate mode range) (prismBusConfigM bus family rate mode range) s)

def prismBusRangeM (bus range : Byte) : Meaning where
  checks := fun s => [(.range, 2 < range.toNat), (.busy, (s.bus bus.toNat).auto)]
  effect := fun _ s => (setRange bus.toNat range.toNat s, .ok, [])

def execPrismBusRange (r : Req) (bus range : Byte) (s : State) : Out :=
  fin (submit (.prismBusRange r bus range) (prismBusRangeM bus range) s)

def prismStatusM (bus : Byte) : Meaning where
  effect := fun _ s =>
    let q := s.bus bus.toNat
    (s, .ok, le 1 q.family ++ le 1 q.rate ++ le 1 (bit q.auto) ++ le 1 q.range ++ le 2 (contribs s bus.toNat) ++
      le 2 (8192 - (s.prism.xps.length + (reservedXps s).length)) ++ leBits 4 q.steps ++ le 4 0)

def execPrismStatus (r : Req) (bus : Byte) (s : State) : Out := fin (submit (.prismStatus r bus) (prismStatusM bus) s)

/-! Lens parameters in the Mirror (R322). -/

/-- The base of the shadow bank of a slot. -/
def shadowBase (q : LensSlot) (h : Kernel) : Nat := h.prmBuf + (if q.bankB then 0 else h.params)

/-- A value of the shadow bank of a slot, kept for the bank after it. -/
def setParam (n slot word : Nat) (v : Word) (s : State) : State :=
  modLens n (fun c =>
    let q := nth c.slots slot
    match q.kernel with
    | some h =>
      if h.params ≤ word then c else
      { c with xm := localPut c.xm (shadowBase q h + word) v
               slots := updAt c.slots slot fun q => { q with staged := q.staged ++ [(word, v)] } }
    | none => c) s

/-- The parameter a slot has in force, the swap before the next block start included. -/
def paramOf (c : LensCore) (q : LensSlot) (h : Kernel) (w : Nat) : Word :=
  localGet c.xm ((if q.newBank then shadowBase q h else bankBase q h) + w)

/-! Scenes (R293 to R295). -/

/-- An entry of Table 10.10. -/
def entryClass (src : Nat) (q : SourceClass) : List Byte :=
  let (c, w) := q.change.getD (q.cls, q.wind)
  le 1 1 ++ le 1 c ++ le 2 src ++ le 1 w ++ le 3 0
def entryXp (x : Xp) : List Byte := le 1 2 ++ le 1 x.bus ++ le 2 x.source ++ leInt 2 x.code ++ le 2 0
def entryRoute (x : Route) (src : Nat) : List Byte := le 1 3 ++ le 1 (bit x.cut) ++ le 2 x.sink ++ le 2 src ++ le 2 0
def entryBus (b : Nat) (q : Bus) : List Byte :=
  le 1 4 ++ le 1 b ++ le 1 q.family ++ le 1 q.rate ++ le 1 (bit q.auto) ++ le 1 q.range ++ le 2 0
def entryParam (core index : Nat) (v : Word) : List Byte := le 1 5 ++ le 1 core ++ le 2 index ++ leBits 4 v

/-- The parameters of a core as entries (R322): INDEX = SLOT·1,024 + WORD. -/
def paramEntries (s : State) (n : Nat) : List (List Byte) :=
  let c := s.core n
  (List.range 4).flatMap fun k =>
    let q := nth c.slots k
    match q.kernel with
    | some h => (List.range h.params).map fun w => entryParam n (1024 * k + w) (paramOf c q h w)
    | none => []

/-- The active state of a tenant as entries (R293). -/
def sceneEntries (s : State) (t : Nat) : List (List Byte) :=
  let m := s.prism
  (m.classes.filterMap fun x =>
    if (x.2.change.getD (x.2.cls, x.2.wind)).1 ≠ 0 && ownerOf s 1 x.1 = t then some (entryClass x.1 x.2) else none) ++
  (m.xps.filterMap fun x => if !x.clearing && x.dying.isNone && ownerOf s 3 x.bus = t then some (entryXp x) else none) ++
  (m.routes.filterMap fun x => match x.source with
    | some id => if x.dying.isNone && ownerOf s 2 x.sink = t then some (entryRoute x id) else none
    | none => none) ++
  ((List.range 128).filterMap fun b => if ownerOf s 3 b = t then some (entryBus b (s.bus b)) else none) ++
  (List.range 8).flatMap fun n => if ownerOf s 4 n = t then paramEntries s n else []

/-- The scene image (Tables 10.9 and 10.10), and its header CRC. -/
def sceneImage (s : State) (t scene : Nat) : List Byte × BitVec 32 :=
  let es := sceneEntries s t
  let body := es.flatten
  let head := le 4 0x4E435350 ++ le 1 1 ++ le 1 scene ++ le 2 es.length ++ stampBytes (reportStamp s) ++
    leBits 4 (crc32c body) ++ le 32 0
  (withCrc head ++ body, crc32c head)

/-- The directory with a scene put in its place. -/
def putScene (x : Scene) (l : List Scene) : List Scene :=
  (l.filter fun y => y.scene < x.scene) ++ [x] ++ l.filter fun y => x.scene < y.scene

def sceneStoreM (r : Req) (scene : Byte) (page : Half) (offset : Word) : Meaning where
  checks := fun s =>
    let n := (sceneEntries s r.tenant.val).length
    [(.range, offset.toNat % 64 ≠ 0 || (n ≤ 4096 && 65536 < offset.toNat + 64 + 8 * n)),
     (.busy, commitPending (s.tenant r.tenant.val)), (.noResource, 4096 < n)]
  ready := fun s => !storeHeld s 0
  effect := fun _ s =>
    let t := r.tenant.val
    let n := (sceneEntries s t).length
    if 4096 < n then (s, .noResource, [])
    else if 65536 < offset.toNat + 64 + 8 * n then (s, .range, [])
    else
      let (img, crc) := sceneImage s t scene.toNat
      let s := storePoke (page.toNat * pageSize + offset.toNat) img s
      let x : Scene := { scene := scene.toNat, page := page.toNat, offset := offset.toNat, entries := n, bytes := img.length }
      (modTenant t (fun q => { q with scenes := putScene x q.scenes }) s, .ok, le 2 n ++ le 2 0 ++ leBits 4 crc)

def execSceneStore (r : Req) (scene : Byte) (page : Half) (offset : Word) (s : State) : Out :=
  fin (submit (.sceneStore r scene page offset) (sceneStoreM r scene page offset) s)

/-- A scene in a tenant's directory. -/
def sceneOf (s : State) (t scene : Nat) : Option Scene := (s.tenant t).scenes.find? fun x => x.scene = scene

/-- The image a directory entry names. -/
def imageOf (s : State) (x : Scene) : List Byte := storeBytes s (x.page * pageSize + x.offset) (64 + 8 * x.entries)

/-- The units an entry names (R294). -/
def entryUnits (e : List Byte) : List (Nat × Nat) :=
  match peekLe e 0 1 with
  | 1 => [(1, peekLe e 2 2)]
  | 2 => [(1, peekLe e 2 2), (3, peekLe e 1 1)]
  | 3 => [(2, peekLe e 2 2), (1, peekLe e 4 2)]
  | 4 => [(3, peekLe e 1 1)]
  | 5 => [(4, peekLe e 1 1)]
  | _ => []

/-- The first check of R294 that an image fails: MAGIC, VERSION, the header CRC, the data CRC, ownership. -/
def sceneFault (s : State) (t : Nat) (x : Scene) : Option Nat :=
  let img := imageOf s x
  let body := img.drop 64
  if ownerOf s 5 x.page ≠ t then some 4
  else if peekLe img 0 4 ≠ 0x4E435350 then some 0
  else if peekLe img 4 1 ≠ 1 then some 1
  else if peekLe img 60 4 ≠ (crc32c (img.take 60)).toNat then some 2
  else if peekLe img 24 4 ≠ (crc32c body).toNat || peekLe img 6 2 ≠ x.entries then some 3
  else if (entriesIn body x.entries).any fun e => (entryUnits e).any fun u => ownerOf s u.1 u.2 ≠ t then some 4
  else none

/-- An entry holds a value that the command of its kind refuses with S_RANGE (Table 10.12, R276, R281): so does a recall of it (log entry 132). -/
def badEntry (e : List Byte) : Bool :=
  match peekLe e 0 1 with
  | 1 => badClass (peekLe e 2 2) (BitVec.ofNat 8 (peekLe e 1 1)) (BitVec.ofNat 8 (peekLe e 4 1))
  | 2 => !gainValid (BitVec.ofNat 16 (peekLe e 4 2)) || 2048 ≤ peekLe e 2 2 || 128 ≤ peekLe e 1 1
  | 3 => 2048 ≤ peekLe e 2 2 || 2048 ≤ peekLe e 4 2
  | 4 => 128 ≤ peekLe e 1 1 || 1 < peekLe e 2 1 || 2 < peekLe e 3 1 || 1 < peekLe e 4 1 || 2 < peekLe e 5 1
  | 5 => 8 ≤ peekLe e 1 1
  | _ => false

/-- An entry names a Lens parameter that its core does not have (R322, Table 11.14). -/
def badParamEntry (s : State) (e : List Byte) : Bool :=
  peekLe e 0 1 = 5 && match (nth (s.core (peekLe e 1 1)).slots (peekLe e 2 2 / 1024)).kernel with
    | some h => decide (h.params ≤ peekLe e 2 2 % 1024)
    | none => true

/-- Apply one scene entry (R295). -/
def applyEntry (t : Nat) (s : State) (e : List Byte) : State :=
  if (entryUnits e).any fun u => ownerOf s u.1 u.2 ≠ t then s
  else match peekLe e 0 1 with
    | 1 => changeClass (peekLe e 2 2) (peekLe e 1 1) (peekLe e 4 1) s
    | 2 => setXp t s { source := BitVec.ofNat 16 (peekLe e 2 2), bus := BitVec.ofNat 8 (peekLe e 1 1), gain := BitVec.ofNat 16 (peekLe e 4 2) }
    | 3 => setRoute t (peekLe e 2 2) (some (peekLe e 4 2)) (peekLe e 1 1 % 2 = 1) s
    | 4 => configBus (peekLe e 1 1) (peekLe e 2 1) (peekLe e 3 1) (peekLe e 4 1) (peekLe e 5 1) s
    | 5 => setParam (peekLe e 1 1) (peekLe e 2 2 / 1024) (peekLe e 2 2 % 1024) (BitVec.ofNat 32 (peekLe e 4 4)) s
    | _ => s

/-- Make a tenant's state equal a scene (R295): what the scene lacks ramps out, takes no source, takes class data. -/
def recallScene (t scene : Nat) (es : List (List Byte)) (s : State) : State :=
  let has := fun (ty : Nat) (f : List Byte → Bool) => es.any fun e => peekLe e 0 1 = ty && f e
  let s := s.prism.xps.foldl (fun s x =>
    if ownerOf s 3 x.bus = t && !has 2 (fun e => peekLe e 1 1 = x.bus && peekLe e 2 2 = x.source) then clearXp t x.source x.bus s
    else s) s
  let s := s.prism.routes.foldl (fun s x =>
    if ownerOf s 2 x.sink = t && !has 3 (fun e => peekLe e 2 2 = x.sink) then setRoute t x.sink none false s else s) s
  let s := s.prism.classes.foldl (fun s x =>
    if ownerOf s 1 x.1 = t && !has 1 (fun e => peekLe e 2 2 = x.1) then changeClass x.1 0 0 s else s) s
  let s := es.foldl (applyEntry t) s
  let ns := boundaryNs s (swapFs s t) (swapPoint s t) 0 % 1000000000
  record 0x0704 t [(1, t), (1, scene), (4, ns.toNat)] s

def sceneRecallM (r : Req) (scene : Byte) : Meaning where
  checks := fun s =>
    match sceneOf s r.tenant.val scene.toNat with
    | none => [(.range, true)]
    | some x =>
      let f := sceneFault s r.tenant.val x
      let body := (imageOf s x).drop 64
      [(.notOwner, f = some 4),
       (.range, (f.any fun k => k < 4) || (entriesIn body x.entries).any (fun e => badEntry e || badParamEntry s e) || anyCycle (busEdges s) (edgesSet (.sceneRecall r scene) body)),
       (.noResource, xpOverflow s (.sceneRecall r scene) body)]
  onRefuse := fun st s =>
    match sceneOf s r.tenant.val scene.toNat with
    | some x => match sceneFault s r.tenant.val x with
      | some k =>
        if st = .range || st = .notOwner then
          record 0x0703 r.tenant.val [(1, r.tenant.val), (1, scene.toNat), (1, (Config.causeCode 2 k).toNat)] s
        else s
      | none => s
    | none => s
  copy := fun s =>
    match sceneOf s r.tenant.val scene.toNat with
    | some x => (imageOf s x).drop 64
    | none => []
  effect := fun body s =>
    (recallScene r.tenant.val scene.toNat (entriesIn body (body.length / 8)) s, .ok, le 2 (body.length / 8) ++ le 2 0)

def execSceneRecall (r : Req) (scene : Byte) (s : State) : Out := fin (submit (.sceneRecall r scene) (sceneRecallM r scene) s)

def sceneDeleteM (r : Req) (scene : Byte) : Meaning where
  checks := fun s => [(.range, (sceneOf s r.tenant.val scene.toNat).isNone)]
  effect := fun _ s =>
    (modTenant r.tenant.val (fun n => { n with scenes := n.scenes.filter fun x => x.scene ≠ scene.toNat }) s, .ok, [])

def execSceneDelete (r : Req) (scene : Byte) (s : State) : Out := fin (submit (.sceneDelete r scene) (sceneDeleteM r scene) s)

/-- MAP and the entries of SCENE_LIST; a remote caller gets those of scenes 0 to 55 (R221). -/
def sceneListM (r : Req) : Meaning where
  effect := fun _ s =>
    let l := (s.tenant r.tenant.val).scenes
    let one := fun (n : Nat) => match l.find? fun x => x.scene = n with
      | some x => le 1 x.page ++ le 1 0 ++ le 2 x.entries
      | none => le 4 0
    (s, .ok, le 8 (l.map fun x => 2 ^ x.scene).sum ++ (List.range (if r.origin.isSome then 56 else 64)).flatMap one)

def execSceneList (r : Req) (s : State) : Out := fin (submit (.sceneList r) (sceneListM r) s)

/-! MIRROR_CONFIG and MIRROR_STATUS. -/

def mirrorConfigM (r : Req) (family rate block : Byte) (len : Half) : Meaning where
  checks := fun s =>
    let n := s.tenant r.tenant.val
    [(.range, 1 < family.toNat || 2 < rate.toNat || !([8, 16, 32, 64].contains block.toNat) || len.toNat < 16 || 4096 < len.toNat),
     (.busy, 0 < stagedTotal n || commitPending n || ramping s r.tenant.val)]
  effect := fun _ s =>
    (modTenant r.tenant.val (fun n => { n with mirror := { n.mirror with
      family := family.toNat, rate := rate.toNat, block := block.toNat, rampLen := len.toNat, swaps := 0 } }) s, .ok, [])

def execMirrorConfig (r : Req) (family rate block : Byte) (len : Half) (s : State) : Out :=
  fin (submit (.mirrorConfig r family rate block len) (mirrorConfigM r family rate block len) s)

/-- The Mirror loader still fills the shadow bank (R289). -/
def mirrorLoading (n : Tenant) : Bool := n.pend.any fun p => atSwap p.cmd && !p.loaded

/-- Entries in Mirror staging: those of the epoch that waits for its boundary. -/
def mirrorStaged (s : State) (t : Nat) : Nat :=
  let n := s.tenant t
  match n.pend.find? fun p => atSwap p.cmd with
  | none => 0
  | some p => match p.cmd with
    | .groupCommit r => match groupOf n r.group.toNat with
      | some g => (((takeEpoch 0 g.staged).1).map fun x => x.entries).sum
      | none => 0
    | .sceneRecall _ _ => p.copied.length / 8
    | i => entriesOf s i

def mirrorStatusM (r : Req) : Meaning where
  effect := fun _ s =>
    let t := r.tenant.val
    let m := (s.tenant t).mirror
    (s, .ok, le 1 (bit m.bankB) ++ le 1 m.family ++ le 1 m.rate ++ le 1 m.block ++ le 2 m.rampLen ++
      le 2 (min 4096 (mirrorStaged s t)) ++ le 4 m.swaps ++ le 4 0 ++
      stampBytes (stampOf (boundaryTime s (swapFs s t) (swapNext s t))))

def execMirrorStatus (r : Req) (s : State) : Out := fin (submit (.mirrorStatus r) (mirrorStatusM r) s)

/-- The first commit whose entries the loader has not filled in is marked filled. -/
def markLoaded : List Pending → List Pending
  | [] => []
  | p :: l => if atSwap p.cmd && !p.loaded then { p with loaded := true } :: l else p :: markLoaded l

/-- MIRROR_LOADER_FILLED: the loader has filled the shadow bank with the entries of the commit accepted first among those it still had to fill
(R289). -/
def execMirrorLoaderFilled (t : Fin 16) (s : State) : Out :=
  .next (modTenant t.val (fun n => { n with pend := markLoaded n.pend }) s)

end Sys2Proof.Machine
end

