-- ==== Sys2Proof/Machine/LensCmd.lean ====
section
/-! DEFINITION. The commands of group 0x08, block starts, deadlines and the clearing of a core's memories (11). -/

namespace Sys2Proof.Machine

/-! Kernel images (Table 11.12, R321). -/

/-- The header of an image. -/
def kernelOf (h : List Byte) : Kernel where
  tri := peekLe h 5 1 = 1
  inCh := peekLe h 6 1
  outCh := peekLe h 7 1
  params := peekLe h 8 2
  init := peekLe h 10 2
  block := peekLe h 12 2
  pmBase := peekLe h 14 2
  pmWords := peekLe h 16 2
  xmBase := peekLe h 18 2
  xmWords := peekLe h 20 2
  ymBase := peekLe h 22 2
  ymWords := peekLe h 24 2
  inBuf := peekLe h 26 2
  outBuf := peekLe h 28 2
  prmBuf := peekLe h 30 2
  fix := peekLe h 32 2
  per := peekLe h 34 2
  crc := BitVec.ofNat 32 (peekLe h 36 4)

/-- The bytes of an image after its header. -/
def bodyBytes (k : Kernel) : Nat := 8 * k.pmWords + 4 * k.xmWords + 4 * k.ymWords

/-- A field of the header outside its range (Table 11.12). -/
def badHeader (h : List Byte) (k : Kernel) : Bool :=
  1 < peekLe h 5 1 || 16 < k.inCh || 16 < k.outCh || 1024 < k.params

/-- A region leaves its memory, or an entry lies outside the PM region. -/
def badRegion (k : Kernel) : Bool :=
  k.pmWords = 0 || 8192 < k.pmBase + k.pmWords || localWords < k.xmBase + k.xmWords || localWords < k.ymBase + k.ymWords ||
  k.init < k.pmBase || k.pmBase + k.pmWords ≤ k.init || k.block < k.pmBase || k.pmBase + k.pmWords ≤ k.block

/-- The parameter banks lie outside the XM region. -/
def badParams (k : Kernel) : Bool := k.prmBuf < k.xmBase || k.xmBase + k.xmWords < k.prmBuf + 2 * k.params

/-- The Store offset of an image. -/
def imageAt (page : Half) (offset : Word) : Nat := page.toNat * pageSize + offset.toNat

/-- The header and the body of an image in the Store. -/
def kernelImage (s : State) (page : Half) (offset : Word) : List Byte × List Byte :=
  let h := storeBytes s (imageAt page offset) 64
  (h, storeBytes s (imageAt page offset + 64) (bodyBytes (kernelOf h)))

/-- The first check of R321 that an image fails: MAGIC, VERSION, the header CRC, the image CRC, regions and entries, the
parameter banks. -/
def imageFault (s : State) (page : Half) (offset : Word) : Option Nat :=
  let (h, body) := kernelImage s page offset
  let k := kernelOf h
  if peekLe h 0 4 ≠ 0x4B4E454C then some 0
  else if peekLe h 4 1 ≠ 1 then some 1
  else if peekLe h 60 4 ≠ (crc32c (h.take 60)).toNat then some 2
  else if crc32c body ≠ k.crc then some 3
  else if badHeader h k || badRegion k then some 4
  else if badParams k then some 5
  else none

/-- Two regions overlap. -/
def spanMeets (a n b m : Nat) : Bool := a < b + m && b < a + n && 0 < n && 0 < m

/-- The regions of an image overlap those of another loaded slot (R321). -/
def regionTaken (c : LensCore) (slot : Nat) (k : Kernel) : Bool :=
  (List.range 4).any fun j => j ≠ slot && match (nth c.slots j).kernel with
    | some h => spanMeets k.pmBase k.pmWords h.pmBase h.pmWords || spanMeets k.xmBase k.xmWords h.xmBase h.xmWords ||
        spanMeets k.ymBase k.ymWords h.ymBase h.ymWords
    | none => false

/-- Words of 4 bytes. -/
def wordsIn (l : List Byte) (first n : Nat) : List Word := (List.range n).map fun i => BitVec.ofNat 32 (peekLe l (4 * (first + i)) 4)

/-- A good image copied in, bank B of the parameters a copy of bank A (R321). -/
def loadKernel (slot : Nat) (k : Kernel) (body : List Byte) (c : LensCore) : LensCore :=
  let pm := wordsIn body 0 (2 * k.pmWords)
  let xm := wordsIn body (2 * k.pmWords) k.xmWords
  let ym := wordsIn body (2 * k.pmWords + k.xmWords) k.ymWords
  let xm1 := localPoke c.xm k.xmBase xm
  let bankA := (List.range k.params).map fun w => localGet xm1 (k.prmBuf + w)
  { c with
    pm := localPoke c.pm (2 * k.pmBase) pm, xm := localPoke xm1 (k.prmBuf + k.params) bankA, ym := localPoke c.ym k.ymBase ym
    slots := updAt c.slots slot fun _ => { st := 1, kernel := some k } }

/-- The pages an image spans after its first. -/
def laterPages (s : State) (page : Half) (offset : Word) : List Nat :=
  let last := pageOf (imageAt page offset + 63 + bodyBytes (kernelOf (kernelImage s page offset).1))
  (List.range (last - page.toNat)).map fun i => page.toNat + 1 + i

/-- Checks of LENS_LOAD beside holding core and page. -/
def loadChecks (t : Nat) (core slot : Byte) (page : Half) (offset : Word) (s : State) : List (Status × Bool) :=
  let c := s.core core.toNat
  let q := nth c.slots slot.toNat
  let fault := imageFault s page offset
  [(.notOwner, fault.isNone && (laterPages s page offset).any fun p => ownerOf s 5 p ≠ t),
   (.range, offset.toNat % 64 ≠ 0 || pageSize ≤ offset.toNat || fault.isSome), (.busy, slotLive q || c.clearing),
   (.noResource, fault.isNone && regionTaken c slot.toNat (kernelOf (kernelImage s page offset).1))]

/-- Event 0x0805 for an image refused (R321). -/
def tellImage (core slot : Byte) (page : Half) (offset : Word) (s : State) : State :=
  match imageFault s page offset with
  | some k => record 0x0805 (ownerOf s 4 core.toNat) [(1, core.toNat), (1, slot.toNat), (1, (Config.causeCode 3 k).toNat)] s
  | none => s

def lensLoadM (r : Req) (core slot : Byte) (page : Half) (offset : Word) : Meaning where
  checks := loadChecks r.tenant.val core slot page offset
  onRefuse := fun st s =>
    if st = .range && offset.toNat % 64 = 0 && offset.toNat < pageSize && core.toNat < 8 && slot.toNat < 4 && page.toNat < 232 then
      tellImage core slot page offset s
    else s
  ready := fun s => !storeHeld s 0
  effect := fun _ s =>
    match firstFailed (loadChecks r.tenant.val core slot page offset s) with
    | some st => (if st = .range then tellImage core slot page offset s else s, st, [])
    | none =>
      let (h, body) := kernelImage s page offset
      let k := kernelOf h
      let s := modLens core.toNat (loadKernel slot.toNat k body) s
      let s := record 0x0801 (ownerOf s 4 core.toNat) [(1, core.toNat), (1, slot.toNat), (4, k.crc.toNat)] s
      (s, .ok, leBits 4 k.crc ++ le 4 (k.fix + k.per * 64))

def execLensLoad (r : Req) (core slot : Byte) (page : Half) (offset : Word) (s : State) : Out :=
  fin (submit (.lensLoad r core slot page offset) (lensLoadM r core slot page offset) s)

/-! LENS_CHAIN (R302 to R304, R309). -/

/-- The chain settings of a slot named 4·core + slot. -/
def chainOf (s : State) (k : Nat) : Option ChainCfg := (nth (s.core (k / 4)).slots (k % 4)).chain

/-- The slot upstream of a slot, its own settings first taken from `g` for the slot being chained. -/
def upstream (s : State) (self : Nat) (g : ChainCfg) (k : Nat) : Option Nat :=
  match (if k = self then some g else chainOf s k) with
  | some x => if x.inKind = 1 then some x.inFrom.toNat else none
  | none => none

/-- The slots upstream of a slot, nearest first, at most `fuel`. -/
def upstreamGo (s : State) (self : Nat) (g : ChainCfg) : Nat → Nat → List Nat
  | 0, _ => []
  | f + 1, k => match upstream s self g k with
    | some u => u :: upstreamGo s self g f u
    | none => []

/-- The slot fed by a slot. -/
def downstream (s : State) (k : Nat) : Option Nat :=
  (List.range 32).find? fun j => match chainOf s j with | some x => x.inKind = 1 && x.inFrom.toNat = k | none => false

/-- The slots downstream of a slot, at most `fuel`. -/
def downstreamGo (s : State) : Nat → Nat → List Nat
  | 0, _ => []
  | f + 1, k => match downstream s k with
    | some d => d :: downstreamGo s f d
    | none => []

/-- The chain through the slot closes a cycle or holds more than 4 stages. -/
def badChain (s : State) (self : Nat) (g : ChainCfg) : Bool :=
  let up := upstreamGo s self g 5 self
  up.contains self || 4 < up.length + 1 + (downstreamGo s 5 self).length

/-- Input and output IDs a slot's settings use on its core. -/
def inIds (g : ChainCfg) (k : Kernel) : Nat := if g.inKind = 0 then k.inCh else 0
def outIds (g : ChainCfg) (k : Kernel) : Nat := if g.outKind = 0 then k.outCh else 0

/-- IDs in use on a core by its other slots, by a measure. -/
def idsUsed (c : LensCore) (slot : Nat) (f : ChainCfg → Kernel → Nat) : Nat :=
  ((List.range 4).map fun j =>
    if j = slot then 0 else match (nth c.slots j).chain, (nth c.slots j).kernel with
      | some g, some k => f g k
      | _, _ => 0).sum

/-- A buffer of R309 leaves its region at this B. -/
def badBuffers (k : Kernel) (b : Nat) : Bool :=
  (0 < k.inCh && (k.inBuf < k.xmBase || k.xmBase + k.xmWords < k.inBuf + 2 * b * k.inCh)) ||
  (0 < k.outCh && (k.outBuf < k.ymBase || k.ymBase + k.ymWords < k.outBuf + 2 * b * k.outCh))

/-- The ranges of Table 11.14 and of Note 2. -/
def chainRange (s : State) (g : ChainCfg) : Bool :=
  let c := s.core g.core.toNat
  let q := nth c.slots g.slot.toNat
  1 < g.family.toNat || 2 < g.rate.toNat || !([8, 16, 32, 64].contains g.block.toNat) || 1 < g.inKind.toNat || 1 < g.outKind.toNat ||
  (if g.inKind = 0 then 15 < g.inFrom.toNat else 31 < g.inFrom.toNat) ||
  (if g.outKind = 0 then 15 < g.outFirst.toNat else g.outFirst ≠ 0) ||
  (q.st ≠ 1 && !slotLive q && q.st ≠ 2) ||
  (match q.kernel with
   | none => true
   | some k =>
     badBuffers k g.block.toNat ||
     (g.inKind = 0 && 16 < g.inFrom.toNat + k.inCh) || (g.outKind = 0 && 16 < g.outFirst.toNat + k.outCh) ||
     16 < inIds g k + idsUsed c g.slot.toNat inIds || 16 < outIds g k + idsUsed c g.slot.toNat outIds) ||
  badChain s (4 * g.core.toNat + g.slot.toNat) g ||
  (g.inKind = 1 && match chainOf s g.inFrom.toNat with
    | some u => u.family ≠ g.family || u.rate ≠ g.rate
    | none => true)

/-- The Lens IDs the slot would use are held by the tenant. -/
def chainOwned (s : State) (t : Nat) (g : ChainCfg) : Bool :=
  match (nth (s.core g.core.toNat).slots g.slot.toNat).kernel with
  | none => true
  | some k =>
    ((List.range (inIds g k)).all fun i => ownerOf s 2 (0x780 + 16 * g.core.toNat + g.inFrom.toNat + i) = t) &&
    ((List.range (outIds g k)).all fun i => ownerOf s 1 (0x780 + 16 * g.core.toNat + g.outFirst.toNat + i) = t)

def lensChainM (r : Req) (g : ChainCfg) : Meaning where
  checks := fun s =>
    let c := s.core g.core.toNat
    let q := nth c.slots g.slot.toNat
    [(.notOwner, !chainOwned s r.tenant.val g), (.range, chainRange s g),
     (.busy, slotLive q || (c.slots.any slotLive && (c.family ≠ g.family.toNat || c.rate ≠ g.rate.toNat || c.block ≠ g.block.toNat)) ||
        (g.inKind = 1 && match downstream s g.inFrom.toNat with
          | some d => d ≠ 4 * g.core.toNat + g.slot.toNat
          | none => false))]
  effect := fun _ s =>
    (modLens g.core.toNat (fun c => { c with
      family := g.family.toNat, rate := g.rate.toNat, block := g.block.toNat
      slots := updAt c.slots g.slot.toNat fun q => { q with st := 2, chain := some g } }) s, .ok, [])

def execLensChain (r : Req) (g : ChainCfg) (s : State) : Out := fin (submit (.lensChain r g) (lensChainM r g) s)

/-! Starting and stopping (R327 to R329). -/

/-- The slots of a mask. -/
def slotMask (m : Byte) : List Nat := (List.range 4).filter fun k => m.getLsbD k

/-- The rate of a core. -/
def coreFs (c : LensCore) : Nat := fsOf c.family c.rate

/-- The budget of R323 in CORE cycles. -/
def budgetOf (s : State) (c : LensCore) : Int := (s.sys.coreMhz * 1000000 * (c.block - 3) / coreFs c : Nat) - (c.guard_ : Int)

/-- The worst-case cycles of a slot's block. -/
def slotCost (c : LensCore) (q : LensSlot) : Nat := match q.kernel with | some k => k.fix + k.per * c.block | none => 0

def lensStartM (core slots : Byte) : Meaning where
  checks := fun s =>
    let c := s.core core.toNat
    let l := slotMask slots
    let cost := ((List.range 4).map fun k =>
      let q := nth c.slots k
      if slotLive q || q.startReq || l.contains k then slotCost c q else 0).sum
    [(.range, l = [] || 16 ≤ slots.toNat || l.any (fun k => decide ((nth c.slots k).st ≠ 2) && !slotLive (nth c.slots k))),
     (.busy, l.any (fun k => slotLive (nth c.slots k) || (nth c.slots k).startReq)), (.noResource, budgetOf s c < cost)]
  effect := fun _ s =>
    (modLens core.toNat (fun c => { c with
      overruns := 0, faults := 0, cyclesMax := 0, cyclesLast := 0
      slots := c.slots.mapIdx fun k q => if (slotMask slots).contains k then { q with startReq := true } else q }) s, .ok, [])

def execLensStart (r : Req) (core slots : Byte) (s : State) : Out := fin (submit (.lensStart r core slots) (lensStartM core slots) s)

/-- A running slot begins its fade-out at an output boundary (R329). -/
def fadeSlot (out : Int) (q : LensSlot) : LensSlot := { q with st := 4, stopReq := false, fadeAt := some out, rampAt := none }

/-- A slot that LENS_STOP names: at class 0 it fades from the next output boundary, at class 1 from the next block start (R326, R329); one not
started yet is not started. -/
def stopSlot (now : Bool) (out : Int) (q : LensSlot) : LensSlot :=
  let q := { q with startReq := false }
  if q.st ≠ 3 then q else if now then fadeSlot out q else { q with stopReq := true }

def lensStopM (r : Req) (core slots : Byte) : Meaning where
  checks := fun _ => [(.range, slotMask slots = [] || 16 ≤ slots.toNat)]
  effect := fun _ s =>
    (modLens core.toNat (fun c => { c with
      slots := c.slots.mapIdx fun k q =>
        if (slotMask slots).contains k then stopSlot (r.cls = 0) (boundaryFrom s (coreFs c) s.now) q else q }) s, .ok, [])

def execLensStop (r : Req) (core slots : Byte) (s : State) : Out := fin (submit (.lensStop r core slots) (lensStopM r core slots) s)

def lensParamM (l : List LensItem) : Meaning where
  checks := fun s =>
    [(.range, l = [] || 64 < l.length || l.any fun i =>
      match (nth (s.core i.core.toNat).slots i.slot.toNat).kernel with
      | some k => k.params ≤ i.word.toNat
      | none => true)]
  effect := fun _ s => (l.foldl (fun s i => setParam i.core.toNat i.slot.toNat i.word.toNat i.value s) s, .ok, [])

def execLensParam (r : Req) (l : List LensItem) (s : State) : Out := fin (submit (.lensParam r l) (lensParamM l) s)

def lensStatusM (core : Byte) : Meaning where
  effect := fun _ s =>
    let c := s.core core.toNat
    (s, .ok, ((List.range 4).flatMap fun k => le 1 (nth c.slots k).st) ++ leBits 4 c.overruns ++ leBits 4 c.faults ++ le 4 c.cyclesMax ++
      le 4 c.cyclesLast ++ le 4 (budgetOf s c).toNat)

def execLensStatus (r : Req) (core : Byte) (s : State) : Out := fin (submit (.lensStatus r core) (lensStatusM core) s)

def lensDeadlineM (core strikes : Byte) (guard : Half) : Meaning where
  checks := fun _ => [(.range, guard.toNat < 64 || 4096 < guard.toNat)]
  effect := fun _ s => (modLens core.toNat (fun c => { c with deadlineSet := some (strikes.toNat, guard.toNat) }) s, .ok, [])

def execLensDeadline (r : Req) (core strikes : Byte) (guard : Half) (s : State) : Out :=
  fin (submit (.lensDeadline r core strikes guard) (lensDeadlineM core strikes guard) s)

/-! Block starts (R302, R303, R308, R309, R322, R324, R329). -/

/-- Settings that take effect at a block start: LENS_DEADLINE (R327), and the new parameter banks, whose values go into the new
shadow bank as well (R322). -/
def takeSettings (c : LensCore) : LensCore :=
  let c := match c.deadlineSet with
    | some (st, g) => { c with strikesSet := st, guard_ := g, deadlineSet := none }
    | none => c
  (List.range 4).foldl (fun c k =>
    let q := nth c.slots k
    match q.kernel with
    | some h =>
      if q.newBank then
        let q1 := { q with bankB := !q.bankB, newBank := false, staged := [], pch := true }
        { c with xm := q.staged.foldl (fun m x => localPut m (shadowBase q1 h + x.1) x.2) c.xm
                 slots := updAt c.slots k fun _ => q1 }
      else { c with slots := updAt c.slots k fun q => { q with pch := false } }
    | none => c) c

/-- A slot at block start k: a fade-out that has ended leaves it CHAINED; a stop begins its fade; a start begins it (R329). -/
def slotAtStart (b k : Int) (q : LensSlot) : LensSlot :=
  if q.st = 4 && q.fadeAt.isNone && q.fades.all (fun f => f.st = .silent) then
    { q with st := 2, outq := [], rampAt := none, stopReq := false }
  else if q.stopReq && q.st = 3 then fadeSlot (k * b) q
  else if q.startReq && q.st = 2 then
    { q with st := 3, startReq := false, first := true, needInit := false, outq := [], fadeAt := none, rampAt := some ((k + 2) * b)
             fades := List.replicate 16 { st := .silent } }
  else q

/-- The input of block k - 1 of a slot goes into its buffer in XM (R309): its core's sinks, or its upstream stage's output, which
it takes boundary by boundary. -/
def fillInput (n slot : Nat) (k : Int) (s : State) : State :=
  let c := s.core n
  let q := nth c.slots slot
  match q.kernel, q.chain with
  | some h, some g =>
    let base := h.inBuf + bufHalf (k - 1) * c.block * h.inCh
    if g.inKind = 0 then
      let miss := c.block - c.inBlk.length
      let rows := (List.range c.block).map fun i =>
        (List.range h.inCh).map fun ch => if i < miss then 0 else nth (nth c.inBlk (i - miss)) (g.inFrom.toNat + ch)
      modLens n (fun c => { c with xm := localPoke c.xm base rows.flatten }) s
    else
      let (rows, s) := (List.range c.block).foldl (fun acc i =>
        let (l, s) := slotOutput (g.inFrom.toNat / 4) (g.inFrom.toNat % 4) ((k - 1) * c.block + (i : Int)) acc.2
        (acc.1 ++ (List.range h.inCh).map fun ch => nth l ch, s)) (([] : List Word), s)
      modLens n (fun c => { c with xm := localPoke c.xm base rows }) s
  | _, _ => s

/-- The outputs of slot j of core n pass: those of the block before that nothing takes, a stage output with no live stage behind it, go by, and its
fades with them (R324, R329). -/
def passOutput (n j : Nat) (k : Int) (s : State) : State :=
  let q := nth (s.core n).slots j
  let taken := match q.chain with
    | some g => g.outKind = 0 || (downstream s (4 * n + j)).any fun d => slotLive (nth (s.core (d / 4)).slots (d % 4))
    | none => true
  if taken || !slotLive q then s
  else (List.range (s.core n).block).foldl (fun s i => (slotOutput n j ((k - 1) * (s.core n).block + (i : Int)) s).2) s

/-- The entries of block k in ascending slot number: a slot started now runs INIT alone, one that restarts runs INIT and BLOCK. -/
def entriesAt (old : List LensSlot) (c : LensCore) : List (Nat × Bool) :=
  (List.range 4).flatMap fun k =>
    let q := nth c.slots k
    if !slotLive q then []
    else if !slotLive (nth old k) then [(k, true)]
    else if q.needInit then [(k, true), (k, false)]
    else [(k, false)]

/-- Begin the entries of a block. -/
def beginBlock (k : Int) (l : List (Nat × Bool)) (c : LensCore) : LensCore :=
  let c := { c with
    cycles := 0, slots := c.slots.map fun q => { q with needInit := false } }
  match l with
  | (slot, init) :: rest => enterKernel (k - 1) ((k + 1) * c.block) slot init rest c
  | [] => c

/-- A core takes part in block starts: CORE runs, Prism is not gated, and the core is neither fenced nor being cleared. -/
def lensBlocks (s : State) (n : Nat) : Bool :=
  prismUnitUp s (fenceLens n) && !s.prism.gated && !stoppedByHoldover s (fenceLens n) && !(s.core n).clearing

/-- The deadline of the block whose output begins at boundary `out` has passed: 3 samples before it, less GUARD CORE cycles (R323). -/
def deadlinePast (s : State) (c : LensCore) (out : Int) : Bool :=
  decide ((boundaryTime s (coreFs c) (out - 3) - s.now) * s.sys.coreMhz ≤ ofNs (1000 * c.guard_ : Nat))

/-- BLOCK_START: block k of a core begins. Kernels still running are a miss, unless the core is halted (R324, R445); then the
block before is run. -/
def blockStart (n : Nat) (s : State) : State :=
  let c := s.core n
  let b : Int := c.block
  let k := boundaryUpTo s (coreFs c) s.now / b
  if s.dbg.halted.getLsbD (1 + n) && c.run.isSome then modLens n (fun c => { c with inBlk := [] }) s
  else if c.run.isSome && !c.discard then
    let s := countMiss n s
    modLens n (fun c => { (if c.aborting || c.run.isNone then c else fadeOutputs ((k + 1) * c.block) { c with aborting := true }) with inBlk := [] }) s
  else if c.run.isSome then modLens n (fun c => { c with inBlk := [] }) s
  else
    let old := c.slots
    let s := (List.range 4).foldl (fun s j => passOutput n j k s) s
    let s := modLens n (fun c => takeSettings { c with slots := c.slots.map (slotAtStart b k) }) s
    let s := (List.range 4).foldl (fun s j => if slotLive (nth (s.core n).slots j) then fillInput n j k s else s) s
    modLens n (fun c => { beginBlock k (entriesAt old c) c with inBlk := [] }) s

def execBlockStart (core : Fin 8) (s : State) : Out :=
  if lensBlocks s core.val then fin (blockStart core.val s) else .next s

/-- DEADLINE_MISS: the deadline passes before every running slot has reached END (R323, R324): the outputs fade, and unless the core is
halted (R445) the miss is counted and the kernels abort at their next interruption point. -/
def execDeadlineMiss (core : Fin 8) (s : State) : Out :=
  let n := core.val
  match (s.core n).run with
  | none => .next s
  | some r =>
    if (s.core n).aborting || (s.core n).discard || !deadlinePast s (s.core n) r.out then .next s
    else
      let s := modLens n (fadeOutputs r.out) s
      if s.dbg.halted.getLsbD (1 + n) then fin (modLens n (fun c => { c with discard := true }) s)
      else
        let s := countMiss n s
        fin (modLens n (fun c => if c.run.isNone then c else if abortPoint c then abortKernels c else { c with aborting := true }) s)

/-! Changes of holder, restarts, loss of memories (R330, R331). -/

/-- A core given up: its slots stop at once and the clear of its memories begins (R330). -/
def clearCore (n : Nat) (s : State) : State :=
  modLens n (fun c => { c with
    run := none, aborting := false, discard := false, clearing := true, loops := [], calls := [], rep := none
    slots := c.slots.map fun q => { q with startReq := false, stopReq := false, outq := [], st := if slotLive q then 4 else q.st } }) s

/-- A core with nothing loaded and nothing in its memories; what LENS_DEADLINE set stays. -/
def emptyCore (c : LensCore) : LensCore :=
  { family := c.family, rate := c.rate, block := c.block, strikesSet := c.strikesSet, guard_ := c.guard_, deadlineSet := c.deadlineSet
    overruns := c.overruns, faults := c.faults, cyclesMax := c.cyclesMax, cyclesLast := c.cyclesLast }

/-- CORE_MEMORY_CLEAR_DONE: PM, XM and YM are zero and the slots EMPTY (R330). -/
def execCoreMemoryClearDone (core : Fin 8) (s : State) : Out :=
  if (s.core core.val).clearing then fin (modLens core.val emptyCore s) else .next s

/-- Every core loses its memories (R331). -/
def loseCores (s : State) : State := { s with lens := s.lens.map emptyCore }

/-- Running slots restart at the next block start (R331). -/
def restartCores (s : State) : State :=
  { s with lens := s.lens.map fun c =>
    let c := abortKernels { c with inBlk := [] }
    { c with slots := c.slots.map fun q =>
        { q with outq := [], fadeAt := none, rampAt := none, fades := List.replicate 16 { st := .silent } } } }

/-- The cores a tenant holds take their new parameter banks at the next block start (R322). -/
def flipBanks (t : Nat) (s : State) : State :=
  { s with lens := s.lens.mapIdx fun n c =>
    if ownerOf s 4 n = t then { c with slots := c.slots.map fun q => if q.kernel.isSome then { q with newBank := true } else q } else c }

end Sys2Proof.Machine
end

