-- ==== Sys2Proof/Machine/Pins.lean ====
section
/-! DEFINITION. Time pins, reflex paths and frame-sync generators (07): the commands of group 0x03 and the pin events. -/

namespace Sys2Proof.Machine

/-- Pins, paths and FSGs run: TIME is up, and neither the watchdog's expiry nor HOLDOVER has stopped them (R204, R374, R392). -/
def trigRuns (s : State) : Bool := timeUnitUp s fenceTrig && !s.wdog.grace && !stoppedByHoldover s fenceTrig

/-- TIME runs, so pins work (R204), and the watchdog does not hold pin p at high impedance (R374). -/
def pinsRun (s : State) (p : Nat) : Bool := trigRuns s && !(s.pin p).z

/-- A TPIN_CONFIG takes effect: pending actions and reports are discarded with event 0x0304 when there was an action (R199),
LOST restarts (R180), a grid starts at its first pulse at or after the time `t` it was applied at (R178). -/
def configurePin (c : TpinCfg) (t : Time) (s : State) : State :=
  let p := c.pin.toNat
  let old := s.pin p
  let fresh : Pin := {
    mode := c.mode.toNat, edge := BitVec.ofNat 2 c.edge.toNat, invert := c.flags.getLsbD 0, validOnly := c.flags.getLsbD 1
    fireLate := c.flags.getLsbD 2, source := c.source.toNat, width := c.width.toNat, period := c.period.toNat
    offset := c.offset.toNat, lastEdge := if 2 ≤ c.mode.toNat && 2 ≤ old.mode then old.lastEdge else none, z := old.z, handle := old.handle
    reflexEnd := old.reflexEnd }
  let fresh := { fresh with level := if 2 ≤ fresh.mode then pinLevel fresh false else old.level }
  let first := if fresh.mode = 3 || fresh.mode = 4 then some (gridFrom fresh.offset (pinPeriod fresh) t) else none
  let fresh := { fresh with next := first }
  let s1 := modPin p (fun _ => fresh) s
  if old.actions = [] then s1 else record 0x0304 (ownerOf s 0x06 p) [(1, p), (2, old.actions.length)] s1

/-- Width, period and offset of Table 7.4 for each mode. -/
def badTpin (c : TpinCfg) : Bool :=
  let m := c.mode.toNat
  let w := c.width.toNat
  let per := if m = 4 then 65536 * 1000000000 else c.period.toNat
  6 < m ||
  (if m = 1 then c.edge = 0 || 3 < c.edge.toNat else c.edge ≠ 0) ||
  (m ≠ 5 && c.source ≠ 0) ||
  (match m with
   | 2 => w < 16 || 4000000000 < w
   | 3 => w < 16 || c.period.toNat < w * 16384 + 4 * 65536
   | 4 => w < 16 || 3999999984 < w
   | _ => w ≠ 0) ||
  (if m = 3 then c.period.toNat < 8 * 65536 || 4000000000 * 65536 < c.period.toNat else c.period ≠ 0) ||
  (if m = 3 || m = 4 then per ≤ c.offset.toNat else c.offset ≠ 0)

/-- A configured reflex path names the pin. -/
def onPath (s : State) (p : Nat) : Bool := s.trig.paths.any fun x => x.mode ≠ 0 && (x.inPin = p || x.outPin = p)

/-- The time at which a command applies: its apply time when the present cycle is the first at or after it, else now (R178, R195). -/
def appliedAt (r : Req) (s : State) : Time :=
  let t := applyTime r.apply
  if r.cls = 1 && t ≤ s.now && s.now - t < ofNs 3 then t else s.now

def tpinConfigM (r : Req) (c : TpinCfg) : Meaning where
  checks := fun s => [(.range, badTpin c), (.busy, onPath s c.pin.toNat || s.last.src.toNat = 0x40 + c.pin.toNat)]
  effect := fun _ s =>
    if (s.pin c.pin.toNat).falls ≠ [] then
      (modPin c.pin.toNat (fun n => { n with pendingCfg := some (c, appliedAt r s) }) s, .ok, [])
    else (configurePin c (appliedAt r s) s, .ok, [])

def execTpinConfig (r : Req) (c : TpinCfg) (s : State) : Out := fin (submit (.tpinConfig r c) (tpinConfigM r c) s)

/-- The edges of an action of a SINGLE pin: its time, and the trailing edge of a pulse. -/
def actionEdges (width : Nat) (action : Nat) (t : Time) : List Time :=
  if action = 2 then [t, t + ofQuarter width] else [t]

/-- Two edges closer than 4.0 ns (R175). -/
def tooClose4 (a b : Time) : Bool := -(ofNs 4) < a - b && a - b < ofNs 4

/-- The time at the reference plane of an action of pin p: its own, or for a late one that of an edge of the next TIME cycle, in which it
fires (R197). -/
def actionAt (s : State) (p : Nat) (late : Bool) (t : Time) : Time := if late then planeOf s p (cycleEnd s) else t

/-- The edges already queued on pin p, and the trailing edge of a pulse in progress, as times at the reference plane. -/
def queuedEdges (s : State) (p : Nat) : List Time :=
  let n := s.pin p
  (n.actions.flatMap fun a => actionEdges n.width a.action (actionAt s p a.late a.time)) ++
  (n.falls.map fun e => planeOf s p (timeAt s e))

/-- The first handle from `h` on that no pending action of the pin has. -/
def freeHandle (acts : List PinAction) : Nat → Nat → Nat
  | 0, h => h
  | k + 1, h => if acts.any (fun a => a.handle = h) then freeHandle acts k ((h + 1) % 0xFFFF) else h

/-- An action that LATE_OK lets fire at once (R197). -/
def lateSchedule (r : Req) (time : Stamp) (s : State) : Bool := lateOk r && decide (timeOf time < s.now + ofNs 20000)

def tpinScheduleM (r : Req) (pin action policy : Byte) (time : Stamp) : Meaning where
  checks := fun s =>
    let n := s.pin pin.toNat
    let es := actionEdges n.width action.toNat (actionAt s pin.toNat (lateSchedule r time s) (timeOf time))
    [(.range, badNs time || 2 < action.toNat || 1 < policy.toNat ||
        es.any (fun a => (queuedEdges s pin.toNat).any (tooClose4 a))),
     (.busy, n.mode ≠ 2), (.noResource, 16 ≤ n.actions.length)]
  effect := fun _ s =>
    let n := s.pin pin.toNat
    let h := freeHandle n.actions 17 n.handle
    let t := timeOf time
    let late := lateSchedule r time s
    let a : PinAction := { handle := h, time := t, action := action.toNat, fireLate := policy = 1 || late, late }
    (modPin pin.toNat (fun n => { n with actions := n.actions ++ [a], handle := (h + 1) % 0xFFFF }) s, .ok,
      le 2 h ++ le 1 (n.actions.length + 1) ++ le 1 0)

def execTpinSchedule (r : Req) (pin action policy : Byte) (time : Stamp) (s : State) : Out :=
  fin (submit (.tpinSchedule r pin action policy time) (tpinScheduleM r pin action policy time) s)

def tpinCancelM (pin : Byte) (handle : Half) : Meaning where
  effect := fun _ s =>
    let n := s.pin pin.toNat
    let hit := fun (a : PinAction) => (handle = 0xFFFF || a.handle = handle.toNat) && s.now + ofNs 1000 < a.time
    (modPin pin.toNat (fun n => { n with actions := n.actions.filter (fun a => !hit a) }) s, .ok,
      le 2 (n.actions.filter hit).length ++ le 2 0)

def execTpinCancel (r : Req) (pin : Byte) (handle : Half) (s : State) : Out :=
  fin (submit (.tpinCancel r pin handle) (tpinCancelM pin handle) s)

/-- A report as TPIN_CAPTURE_READ returns it (Table 7.5). -/
def reportBytes (x : PinReport) : List Byte :=
  stampBytes (stampOf x.time) ++ le 1 x.kind ++ le 1 0 ++ le 2 x.handle

def tpinCaptureReadM (r : Req) (pin max_ : Byte) : Meaning where
  checks := fun _ => [(.range, max_ = 0 || 16 < max_.toNat)]
  effect := fun _ s =>
    let n := s.pin pin.toNat
    let k := min (if r.origin.isSome then min 11 max_.toNat else max_.toNat) n.reports.length
    (modPin pin.toNat (fun n => { n with reports := n.reports.drop k }) s, .ok,
      le 1 k ++ le 1 (n.reports.length - k) ++ le 2 0 ++ leBits 4 n.lost ++ (n.reports.take k).flatMap reportBytes)

def execTpinCaptureRead (r : Req) (pin max_ : Byte) (s : State) : Out :=
  fin (submit (.tpinCaptureRead r pin max_) (tpinCaptureReadM r pin max_) s)

def reflexConfigM (c : ReflexCfg) : Meaning where
  checks := fun s =>
    [(.range, 2 < c.mode.toNat || c.inPin = c.outPin || 4000 < c.delay.toNat || c.width.toNat < 16 ||
        4000000 < c.width.toNat || (s.pin c.inPin.toNat).mode ≠ 1 || (s.pin c.outPin.toNat).mode ≠ 6 ||
        decide (trimOf s.last.cal c.path.toNat c.delay.toNat c.inPin.toNat c.outPin.toNat < 0)),
     (.busy, c.mode ≠ 0 && (List.range 16).any fun m =>
        m ≠ c.path.toNat && (s.path m).mode ≠ 0 && (s.path m).outPin = c.outPin.toNat)]
  effect := fun _ s =>
    let t := trimOf s.last.cal c.path.toNat c.delay.toNat c.inPin.toNat c.outPin.toNat
    (modPath c.path.toNat (fun _ => { mode := c.mode.toNat, inPin := c.inPin.toNat, outPin := c.outPin.toNat,
                                      delay := c.delay.toNat, width := c.width.toNat, trim := t
                                      lat := latencyOf s.last.cal c.delay.toNat c.inPin.toNat c.outPin.toNat }) s,
      .ok, leInt 4 t)

def execReflexConfig (r : Req) (c : ReflexCfg) (s : State) : Out := fin (submit (.reflexConfig r c) (reflexConfigM c) s)

/-- The fields of REFLEX_WINDOW out of range (Table 7.4). -/
def badWindow (s : State) (c : WindowCfg) : Bool :=
  let open_ := c.openAt.toNat
  let len := c.length.toNat
  let per := c.period.toNat
  match c.base.toNat with
  | 0 | 1 => per ≠ 0 || c.fsg ≠ 0 || len < 4 * 65536
  | 2 => c.fsg ≠ 0 || per = 0 || 65536 * 4000000000 < per || per ≤ open_ || per ≤ len || len < 4 * 65536
  | 3 => per ≠ 0 || len < 4 * 65536 ||
    (match (s.fsg c.fsg.toNat).cfg with
     | some g => g.minFrame * 16384 < open_ + len
     | none => true)
  | _ => true

def reflexWindowM (c : WindowCfg) : Meaning where
  checks := fun s => [(.range, badWindow s c)]
  effect := fun _ s =>
    let set := fun (x : Path) => { x with
      base := c.base.toNat, fsg := c.fsg.toNat, openAt := c.openAt.toNat, length := c.length.toNat
      period := c.period.toNat, used := none }
    (modPath c.path.toNat (fun x => { set x with gate := (gateAt s (set x) s.now).1 }) s, .ok, [])

def execReflexWindow (r : Req) (c : WindowCfg) (s : State) : Out := fin (submit (.reflexWindow r c) (reflexWindowM c) s)

/-- The rules of R192 and the ranges of Table 7.4. -/
def badFsg (c : FsgCfg) : Bool :=
  let n := c.num.toNat
  let d := c.den.toNat
  n = 0 || d = 0 || 1000000 < n || 1000000 < d || n < d || 10000 * d < n || d * quarterPerS ≤ c.phase.toNat * n ||
  c.width.toNat < 16 || c.minFrame.toNat < c.width.toNat + 16 || d * quarterPerS < c.minFrame.toNat * n

/-- An FSG's settings, NUM/DEN reduced to lowest terms (R191). -/
def fsgSetOf (c : FsgCfg) : FsgSet :=
  let g := max 1 (Nat.gcd c.num.toNat c.den.toNat)
  { num := c.num.toNat / g, den := c.den.toNat / g, width := c.width.toNat, phase := c.phase.toNat, minFrame := c.minFrame.toNat }

def fsgConfigM (r : Req) (c : FsgCfg) : Meaning where
  checks := fun _ => [(.range, badFsg c)]
  effect := fun _ s =>
    let at_ := if r.cls = 0 then s.now + ofNs 20000 else appliedAt r s
    (modFsg c.fsg.toNat (fun f =>
      if f.running then { f with change := some (fsgSetOf c, at_) } else { f with cfg := some (fsgSetOf c), change := none }) s,
      .ok, [])

def execFsgConfig (r : Req) (c : FsgCfg) (s : State) : Out := fin (submit (.fsgConfig r c) (fsgConfigM r c) s)

def fsgStartM (r : Req) (k : Byte) : Meaning where
  checks := fun s => [(.range, (s.fsg k.toNat).cfg.isNone), (.busy, (s.fsg k.toNat).running)]
  effect := fun _ s =>
    (modFsg k.toNat (fun f => match f.cfg with
      | some c => { f with running := true, k := fsgFrom c (appliedAt r s), skip := none, frameBegan := none, launched := [] }
      | none => f) s, .ok, [])

def execFsgStart (r : Req) (k : Byte) (s : State) : Out := fin (submit (.fsgStart r k) (fsgStartM r k) s)

/-- An FSG stops: a change still pending becomes the configuration of the next start (R194). -/
def stopFsg (f : Fsg) : Fsg :=
  { f with running := false, change := none, cfg := (match f.change with | some (c, _) => some c | none => f.cfg) }

def fsgStopM (k : Byte) : Meaning where
  effect := fun _ s => (modFsg k.toNat stopFsg s, .ok, [])

def execFsgStop (r : Req) (k : Byte) (s : State) : Out := fin (submit (.fsgStop r k) (fsgStopM k) s)

/-- STATE of FSG_STATUS (Table 7.5). -/
def fsgCode (f : Fsg) : Nat := if !f.running then 0 else if f.change.isSome then 2 else 1

/-- The next frame start in 0.25 ns; a start that will be skipped is not one. -/
def fsgNext (f : Fsg) : Option Int :=
  match f.running, f.cfg with
  | true, some c => some (fsgStart c (if f.skip.isSome then f.k + 1 else f.k))
  | _, _ => none

def fsgStatusM (k : Byte) : Meaning where
  effect := fun _ s =>
    let f := s.fsg k.toNat
    let (next, s) := match fsgNext f with
      | some q => let (t, s) := reportable (ofQuarter q) s; (stampBytes (stampOf t), s)
      | none => (le 16 0, s)
    (s, .ok, le 1 (fsgCode f) ++ le 3 0 ++ leBits 4 f.frames ++ leBits 4 f.skips ++ next ++ le 4 0)

def execFsgStatus (r : Req) (k : Byte) (s : State) : Out := fin (submit (.fsgStatus r k) (fsgStatusM k) s)

/-! Events of the pins. -/

/-- Fire one action of a SINGLE pin at an elapsed position (R174). -/
def fireAction (p : Nat) (a : PinAction) (at_ : Nat) (s : State) : State :=
  let n := s.pin p
  let s := modPin p (fun n => { n with actions := n.actions.filter (fun b => b.handle ≠ a.handle) }) s
  match a.action with
  | 2 => startPulse p n.width at_ s
  | k => drive p (k = 1) at_ s

/-- The earliest of a list of actions, the first queued among equals. -/
def earliest : List PinAction → Option PinAction
  | [] => none
  | a :: l => match earliest l with
    | some b => if b.time < a.time then some b else some a
    | none => some a

/-- SCHEDULED_ACTION: a SINGLE pin fires its next action: a late one kept by FIRE_LATE, with its report (R53, R201), else the earliest whose
launch falls in this cycle (R174); at its position, or at the first one 4.0 ns after the pin's previous edge, when that lies in this cycle
(R53, R175). -/
def execScheduledAction (p : Fin 32) (s : State) : Out :=
  let n := s.pin p
  if n.mode ≠ 2 || !pinsRun s p then .next s
  else match earliest (n.actions.filter fun a => a.late) with
    | some a =>
      let at_ := edgePos n (elapsedQ s)
      if n.falls ≠ [] || !inCycle s at_ then .next s
      else fin (report p ⟨timeAt s at_, 3, a.handle⟩ (fireAction p a at_ s))
    | none => match earliest n.actions with
      | some a =>
        let at_ := edgePos n (elapsedAt s (launchOf s p a.time))
        if dueNow s (launchOf s p a.time) && inCycle s at_ then fin (fireAction p a at_ s) else .next s
      | none => .next s

/-- GRID_PULSE: a PERIODIC or PPS pin starts the pulse of its next grid time, unless VALID_ONLY holds it back (R176, R177). -/
def execGridPulse (p : Fin 32) (s : State) : Out :=
  let n := s.pin p
  match n.next with
  | none => .next s
  | some g =>
    let q := launchOf s p g
    let at_ := edgePos n (elapsedAt s q)
    if !pinsRun s p || !dueNow s q || n.falls ≠ [] || !inCycle s at_ then .next s
    else
      let s1 := modPin p (fun n => { n with next := some (g + ofFrac (pinPeriod n)) }) s
      if heldBack s n then .next s1 else .next (startPulse p n.width at_ s1)

/-- PULSE_TRAILING_EDGE: an output pulse ends WIDTH of elapsed time after it began, and a waiting configuration takes effect
(R173, R178, R202). -/
def execPulseTrailingEdge (p : Fin 32) (s : State) : Out :=
  let n := s.pin p
  match n.falls with
  | [] => .next s
  | e :: rest =>
    let e := edgePos n e
    if !inCycle s e then .next s
    else
      let s1 := modPin p (fun n => { n with falls := rest }) (drive p false e s)
      match n.pendingCfg with
      | some c => if rest = [] then fin (configurePin c.1 c.2 s1) else fin s1
      | none => fin s1

/-- The pins that pulse with FSG k. -/
def fsgPins (s : State) (k : Nat) : List Nat := (List.range 32).filter fun p => (s.pin p).mode = 5 && (s.pin p).source = k

/-- An FSG pin at the launch of a frame start (R177, R479). -/
def fsgPin (k : Nat) (c : FsgSet) (j : Int) (s : State) (p : Nat) : State :=
  let n := s.pin p
  let at_ := elapsedAt s (fsgLaunch s c j p)
  let s := modFsg k (fun f => { f with launched := p :: f.launched }) s
  if heldBack s n || n.z then s
  else if tooNear n at_ then modPin p (fun n => { n with lost := n.lost + 1 }) s
  else startPulse p c.width at_ s

/-- The pins whose edge of start j leaves the ball in this cycle, so as to reach its reference plane at the start (R40). -/
def launchEarly (k : Nat) (c : FsgSet) (j : Int) (s : State) : State :=
  ((fsgPins s k).filter fun p => !(s.fsg k).launched.contains p && dueNow s (fsgLaunch s c j p)).foldl (fsgPin k c j) s

/-- A frame of FSG k begins at start j of its settings (R191); the pins not launched yet launch at their positions. -/
def beginFrame (k : Nat) (c : FsgSet) (j : Int) (s : State) : State :=
  let q := fsgStart c j
  let at_ := elapsedAt s q
  let s := ((fsgPins s k).filter fun p => !(s.fsg k).launched.contains p).foldl (fsgPin k c j) s
  modFsg k (fun f => { f with
    frames := f.frames + 1, frameBegan := some at_, pulseEnd := some (at_ + c.width), launched := []
    starts := ((f.frames + 1).toNat, ofQuarter q) :: f.starts.take 1 }) s

/-- The settings of the frame that start k begins: the pulse at the start that a change takes has the new width (R200). -/
def startSet (f : Fsg) (c : FsgSet) : FsgSet :=
  match f.change with
  | some (c', t) => if fsgAtOrAfter c f.k t then { c with width := c'.width } else c
  | none => c

/-- FSG_FRAME_START: the next grid start of an FSG arrives: skipped with event 0x0303 (R200, R203), or a frame; a pending change
takes effect at the first old start at or after its time (R200). Before the start, the row launches the edges that leave their balls in
this cycle (R40). -/
def execFsgFrameStart (k : Fin 8) (s : State) : Out :=
  let f := s.fsg k
  match f.running, f.cfg with
  | true, some c =>
    if !trigRuns s then .next s
    else if !dueNow s (fsgStart c f.k) then .next (if f.skip.isSome then s else launchEarly k (startSet f c) f.k s)
    else match f.skip with
      | some cause =>
        .next (record 0x0303 (ownerOf s 0x07 k) [(1, k), (4, (nsOf (ofQuarter (fsgStart c f.k)) % 1000000000).toNat), (1, cause)]
          (modFsg k (fun f => { f with k := f.k + 1, skip := none, skips := f.skips + 1 }) s))
      | none =>
        match f.change with
        | some (c', t) =>
          if fsgAtOrAfter c f.k t then
            let n1 := fsgAfter c f.k c'
            let short := !fsgGapAtLeast c f.k c' n1 c'.minFrame
            let s1 := beginFrame k (startSet f c) f.k s
            .next (modFsg k (fun f => { f with
              cfg := some c', change := none, k := n1, skip := if short then some 0 else none }) s1)
          else .next (modFsg k (fun f => { f with k := f.k + 1 }) (beginFrame k c f.k s))
        | none => .next (modFsg k (fun f => { f with k := f.k + 1 }) (beginFrame k c f.k s))
  | _, _ => .next s

/-- The gate of a path brought to time t; a window that opens is not yet used (R186, R189). -/
def syncGate (s : State) (t : Time) (x : Path) : Path :=
  let g := gateAt s x t
  { x with gate := g.1, used := if g.1 && x.used ≠ some g.2.2 then none else x.used }

/-- GATE_BOUNDARY (R189, R190). -/
def execGateBoundary (m : Fin 16) (s : State) : Out :=
  if trigRuns s then .next (modPath m (syncGate s s.now) s) else .next s

/-- Whether a position comes less than 4.0 ns after an earlier one. -/
def tooSoon (earlier : Option Nat) (at_ : Nat) : Bool :=
  match earlier with
  | some e => decide (at_ < e + 16)
  | none => false

/-- A whole number of 0.25 ns within 0.5 ns of a latency in ps, any of them (R183). -/
def reflexShift (lat : Int) (v : Nat) : Int :=
  let lo := ceilDiv (lat - 500) 250
  lo + ((v : Int) % ((lat + 500) / 250 - lo + 1))

/-- A selected edge of an input pin at path m (R183, R186, R187, R190): `near` says whether an edge within 0.5 ns of a gate
boundary passes. The output pulse begins after the latency of R183, from ball to ball, to a free amount within 0.5 ns (log entry 68). -/
def reflexPass (pin : Nat) (t : Time) (at_ : Nat) (near : Bool) (s : State) (m : Nat) : State :=
  let x := syncGate s t (s.path m)
  if x.mode = 0 || x.inPin ≠ pin then s
  else
    let g := gateAt s x t
    let s := modPath m (fun _ => x) s
    let passes := if g.2.1 then near else x.gate
    let o := s.pin x.outPin
    if !passes || o.mode ≠ 6 || o.z then s
    else if tooSoon o.reflexEnd at_ then
      modPin x.outPin (fun n => { n with lost := n.lost + 1 }) s
    else if x.mode = 2 && x.used = some g.2.2 then s
    else
      let (v, s) := drawFree s
      let b := at_ + (reflexShift (trimAt x t).2 v.toNat).toNat
      modPath m (fun x => { x with used := some g.2.2 })
        (modPin x.outPin (fun n => { n with reflexEnd := some (b + x.width) }) (startPulse x.outPin x.width b s))

/-- Capture an edge at an elapsed position (R179, R180). -/
def capture (p : Nat) (falling : Bool) (t : Time) (at_ : Nat) (s : State) : State :=
  let n := s.pin p
  if tooSoon n.lastEdge at_ then
    record 0x0301 (ownerOf s 0x06 p) [(1, p), (2, sat16 (n.lost + 1).toNat)] (modPin p (fun n => { n with lost := n.lost + 1 }) s)
  else
    let s := report p ⟨t, bit falling, 0⟩ (modPin p (fun n => { n with lastEdge := some at_ }) s)
    if s.last.src.toNat = 0x40 + p && !falling then servoSample (foldPps t) s else s

/-- CAPTURE_EDGE: an edge at a capture pin drives its reflex paths, is captured, and gives the servo a PPS sample (R179 to R190,
R31). -/
def execCaptureEdge (p : Fin 32) (falling : Bool) (tap : Fin 8) (near : Bool) (s : State) : Out :=
  let n := s.pin p
  let s0 := if n.mode ≤ 1 then modPin p (fun n => { n with level := !falling }) s else s
  if n.mode ≠ 1 || !trigRuns s || n.z then .next s0
  else if !(if falling then n.edge.getLsbD 1 else n.edge.getLsbD 0) then .next s0
  else
    let (t, s1) := reportable (ofQuarter (captureOf s p tap)) s0
    let at_ := elapsedQ s + tap
    fin (capture p falling t at_ ((List.range 16).foldl (reflexPass p t at_ near) s1))

/-! What start-up, the watchdog and revoke do to the pins. -/

/-- A pin goes to high impedance and OFF, its queues dropped (R83, R172). -/
def pinOff (n : Pin) : Pin := { lastEdge := n.lastEdge, handle := n.handle }

/-- The pin a revoke takes: OFF, and its paths stop with their output pins at high impedance (07, revoked pin). -/
def stopPin (p : Nat) (s : State) : State :=
  let outs := (s.trig.paths.filter fun x => x.mode ≠ 0 && x.inPin = p).map fun x => x.outPin
  let s := { s with trig := { s.trig with paths := s.trig.paths.map fun x =>
    if x.inPin = p || x.outPin = p then { x with mode := 0 } else x } }
  (p :: outs).foldl (fun s o => modPin o pinOff s) s

/-- Pins, paths and FSGs restored (R204): configurations stay, reports start empty, actions whose time has passed are late under
R53, grids resume at their next start. -/
def resumePins (s : State) : State :=
  let now := s.now
  let s := (List.range 32).foldl (fun s p =>
    let n := s.pin p
    let s := modPin p (fun n => { n with reports := [], active := false, level := if 2 ≤ n.mode then pinLevel n false else n.level,
                                         falls := [], z := false, lastEdge := none, reflexEnd := none, next := (if n.mode = 3 || n.mode = 4 then some (gridFrom n.offset (pinPeriod n) now) else none) }) s
    if n.mode = 2 then stepPin now true s p else s) s
  { s with trig := { s.trig with
    stoppedAt := none
    paths := s.trig.paths.map fun x => { x with gate := x.base ≠ 3 && (gateAt s x now).1, used := none }
    fsgs := s.trig.fsgs.map fun f =>
      let f := { f with starts := [], launched := [], frameBegan := none, pulseEnd := none, skip := none }
      match f.running, f.cfg with
      | true, some c => { f with k := fsgFrom c now }
      | _, _ => f } }

/-- TIME restarts (R204), with event 0x0306. -/
def restorePins (us : Nat) (s : State) : State := record 0x0306 engineTag [(4, us)] (resumePins s)

/-- Pins to high impedance, FSG and reflex outputs stopped, by the watchdog's expiry or HOLDOVER (R374, R392). -/
def freezePins (s : State) : State :=
  { s with trig := { s.trig with
    pins := s.trig.pins.map fun n => { n with z := true, active := false, falls := [], reflexEnd := none }
    fsgs := s.trig.fsgs.map fun f => { f with pulseEnd := none } } }

end Sys2Proof.Machine
end

