-- ==== Sys2Proof/Machine/Plink.lean ====
section
/-! DEFINITION. The Prieth fabric (08): links, frames, enumeration, the fabric commit and the commands of Table 8.7. The express
cells that can end a command of class 2 stand in Cells.lean. -/

namespace Sys2Proof

/-! The fields of a directory entry (Table 8.4), and the packet or reply in the first LENGTH bytes of its cell (R217). -/

def CmdCell.kind (c : CmdCell) : Nat := (c.entry.extractLsb' 0 8).toNat
def CmdCell.len (c : CmdCell) : Nat := (c.entry.extractLsb' 16 16).toNat
def CmdCell.isReply (c : CmdCell) : Bool := c.kind = 2
def CmdCell.dest (c : CmdCell) : BitVec 12 := c.entry.extractLsb' 32 12
def CmdCell.origin (c : CmdCell) : BitVec 12 := c.entry.extractLsb' 48 12
def CmdCell.tenant (c : CmdCell) : Fin 16 := (c.entry.extractLsb' 60 4).toFin
def CmdCell.bytes (c : CmdCell) : List Byte := c.cell.take c.len

/-- The entry names a packet or a reply of a length that a cell can have; any other cell is empty (log entry 137). -/
def CmdCell.used (c : CmdCell) : Bool := (c.kind = 1 || c.kind = 2) && 20 ≤ c.len && c.len ≤ 256 && c.len % 4 = 0

end Sys2Proof

namespace Sys2Proof.Machine

/-- Prieth ports run from L2 on while TIME is up, unless fenced or stopped by HOLDOVER (R205, R393). -/
def plinkRuns (s : State) : Bool :=
  timeUnitUp s fencePlink && 2 ≤ levelOf s && !stoppedByHoldover s fencePlink

/-- The domain of port p runs. -/
def laneUp (s : State) (p : Nat) : Bool := domainUp s (20 + p)

/-- A frame period, 125 us. -/
def frameU : Time := ofNs 125000

/-- Channels C and samples M of a rate code (Table 8.6). -/
def slotsOf (rate : Nat) : Nat := nth [0, 1024, 1024, 512, 512, 256, 256] rate
def depthOf (rate : Nat) : Nat := nth [0, 6, 6, 12, 12, 24, 24] rate

def isUp (s : State) (p : Nat) : Bool := (s.pl p).st = 2

/-- The ports of a role. -/
def portsOf (s : State) (role : Nat) : List Nat := (List.range 4).filter fun p => (s.pl p).role = role

/-- Queue an express cell on a port (R222). -/
def sendExpress (p : Nat) (c : ExpressCell) (s : State) : State :=
  modPl p (fun q => { q with express := q.express ++ [(s.last.cycles, c)] }) s

/-- Queue an express cell on every downstream port. -/
def broadcast (c : ExpressCell) (s : State) : State := (portsOf s 2).foldl (fun s p => sendExpress p c s) s

/-- Event 0x0401 with the change of state. -/
def plinkState (p new cause : Nat) (s : State) : State :=
  record 0x0401 engineTag [(1, p), (1, (s.pl p).st), (1, new), (1, (Config.causeCode 4 cause).toNat)]
    (modPl p (fun q => { q with st := new }) s)

/-! The fabric commit at a node (R234 to R240). -/

/-- Disarm: the group is free of the commit again (R235). -/
def disarm (s : State) : State :=
  match s.plink.armed with
  | some a =>
    let s := modGroup a.tenant a.group (fun g => { g with armed := false }) s
    { s with plink := { s.plink with armed := none } }
  | none => s

/-- Event 0x0701 with FID and cause: 0 not armed, 1 APPLY late, 2 unrooted, 3 no APPLY in 1 s (R239). -/
def fabricMissed (fid cause : Nat) (s : State) : State :=
  record 0x0701 engineTag [(1, fid), (1, (Config.causeCode 5 cause).toNat)] (disarm s)

/-- An armed node whose group does not commit yet. -/
def armedWaiting (s : State) : Option Armed := s.plink.armed.filter fun a => a.due.isNone

/-- The judgement of R234: 0 READY, 1 IDLE, 2 FAILED. -/
def judge (tenant group : Nat) (s : State) : Nat :=
  let g := groupOf (s.tenant tenant) group
  if s.plink.armed.isSome || g.any (fun g => g.committing) then 2
  else if admitted s tenant .fabric && g.isSome then 0 else 1

/-- A node judges PREPARE, arms when it participates, and begins to count; it forwards the cell downstream (R234, R236). -/
def startPrepare (fid tenant group by_ : Nat) (s : State) : State :=
  let j := judge tenant group s
  let applied := s.plink.fabric.any fun f => f.fid = fid && f.applied
  let s := if j = 0 then
      record 0x0408 engineTag [(1, fid), (1, tenant), (2, group)]
        (modGroup tenant group (fun g => { g with armed := true })
          { s with plink := { s.plink with armed := some { fid, tenant, group } } })
    else s
  let s := { s with plink := { s.plink with
    fabric := some {
      fid, tenant, by_, group, applied, ready := bit (j = 0), idle := bit (j = 1), failed := bit (j = 2)
      firstFailed := if j = 2 then nodeAddr s else 0xFFFF }
    ports := s.plink.ports.map fun q => { q with acked := q.role ≠ 2 || q.st = 0 } } }
  broadcast (.prepare fid tenant group) s

/-- Every downstream port has answered or gone DOWN. -/
def allAcked (s : State) : Bool := s.plink.ports.all fun q => q.acked

/-- The counts complete at a node that is not the root: one PREPARE_ACK upstream (R236). -/
def settlePrepare (s : State) : State :=
  match s.plink.fabric with
  | some r =>
    if r.prepared || r.by_ ≠ 16 || !allAcked s then s
    else
      let s := { s with plink := { s.plink with fabric := some { r with prepared := true } } }
      (portsOf s 1).foldl (fun s p => sendExpress p (.prepareAck r.fid r.ready r.idle r.failed r.firstFailed) s) s
  | none => s

/-- The group of an armed node commits with apply time T, without a reply (R238). -/
def commitArmed (a : Armed) (w : Stamp) (s : State) : State :=
  let t := applyTime w
  let r : Req := { tenant := Fin.ofNat 16 a.tenant, via := .fabric, cls := 1, group := BitVec.ofNat 16 a.group, apply := w }
  let s := modGroup a.tenant a.group commitMark s
  let s := modTenant a.tenant (fun n => { n with
    pend := n.pend ++ [{ cmd := .groupCommit r, due := t, timed := true }] }) s
  { s with plink := { s.plink with armed := some { a with due := some t } } }

/-! Loss of the address (R232). -/

/-- The node clears its address, ROOTED and every range, and disarms; its servo loses the source (R232, R239, R478). -/
def unroot (s : State) : State :=
  if !s.plink.rooted then s
  else
    let old := s.plink.addr
    let s := { s with plink := { s.plink with
      rooted := false, addr := 0, depth := 0, lastAddr := 0, enumRun := none, fabric := none
      ports := s.plink.ports.map fun q => { q with first := 0xFFFF, last := 0xFFFF, reattach := false } } }
    let s := record 0x0404 engineTag [(2, old), (2, 0xFFFF), (2, s.plink.epoch.toNat)] s
    let s := match armedWaiting s with
      | some a => fabricMissed a.fid 2 s
      | none => s
    if s.last.src = 0x20 then sourceLostOp s else s

/-! Enumeration (R226 to R233). -/

/-- A port left blocked, with event 0x0402. -/
def blockPort (p reason : Nat) (s : State) : State :=
  let s := modPl p (fun q => { q with role := 3, first := 0xFFFF, last := 0xFFFF }) s
  let s := { s with plink := { s.plink with enumRun := s.plink.enumRun.map fun e => { e with blocked := e.blocked + 1 } } }
  record 0x0402 engineTag [(1, p), (1, reason)] s

/-- Blocked ports and depth of the other nodes, which no cell reports: free within their bounds (log entry 30). -/
def otherNodes (n : Nat) (s : State) : Nat × Nat × State :=
  if n ≤ 1 then (0, 0, s)
  else
    let (a, s) := drawFree s
    let (b, s) := drawFree s
    (a.toNat % (3 * (n - 1) + 1), 1 + b.toNat % min 16 (n - 1), s)

/-- Every port was tried: ENUM_DONE upstream, or the end of the enumeration at the root (R228). -/
def enumFinish (e : EnumRun) (s : State) : State :=
  if e.again then { s with plink := { s.plink with enumRun := none } }
  else if e.isRoot then
    let (b, d, s) := otherNodes e.next s
    let s := { s with plink := { s.plink with
      lastAddr := e.next - 1, nodes := e.next, maxDepth := d, blockedAll := e.blocked + b, enumRun := some { e with port := 4 } } }
    record 0x0403 engineTag [(2, s.plink.epoch.toNat), (2, e.next), (2, e.blocked + b)] s
  else
    let s := { s with plink := { s.plink with lastAddr := e.next - 1, enumRun := none } }
    (portsOf s 1).foldl (fun s p => sendExpress p (.enumDone e.next s.plink.epoch) s) s

/-- Go on with the enumeration from the port in turn (R228, R229). -/
def enumGo : Nat → State → State
  | 0, s => s
  | k + 1, s =>
    match s.plink.enumRun with
    | none => s
    | some e =>
      let skip := fun (s : State) =>
        { s with plink := { s.plink with enumRun := s.plink.enumRun.map fun e => { e with port := if e.again then 4 else e.port + 1 } } }
      if 4 ≤ e.port then enumFinish e s
      else if !isUp s e.port || (s.pl e.port).role = 1 then enumGo k (skip s)
      else if s.plink.depth = 16 then enumGo k (skip (blockPort e.port 2 s))
      else if e.limit < e.next then enumGo k (skip (blockPort e.port 3 s))
      else sendExpress e.port (.enum e.next (s.plink.depth + 1) e.setSource s.plink.epoch e.limit) s

/-- A waiting re-attachment begins when no enumeration runs (R233). -/
def reattachNext (s : State) : State :=
  if s.plink.enumRun.isSome || !s.plink.rooted then s
  else match (List.range 4).find? (fun p => (s.pl p).reattach && isUp s p && (s.pl p).role = 2 && (s.pl p).first ≠ 0xFFFF) with
    | some p =>
      let q := s.pl p
      let s := modPl p (fun q => { q with reattach := false }) s
      enumGo 6 { s with plink := { s.plink with enumRun := some {
        port := p, next := q.first, limit := q.last, setSource := false, isRoot := false, tenant := 0, blocked := 0, again := true } } }
    | none => s

/-- The port in turn has answered: go on. -/
def enumStep (f : EnumRun → EnumRun) (s : State) : State :=
  reattachNext (enumGo 6 { s with plink := { s.plink with
    enumRun := s.plink.enumRun.map fun e => { f e with port := if e.again then 4 else e.port + 1 } } })

/-- The enumeration waits for a port. -/
def enumWaits (s : State) (p : Nat) : Bool := s.plink.enumRun.any fun e => e.port = p

/-- ENUM_DONE on the port in turn (R228). -/
def enumDone (p next : Nat) (s : State) : State :=
  match s.plink.enumRun with
  | some e =>
    enumStep (fun e => { e with next })
      (modPl p (fun q => { q with role := 2, first := if e.next < next then e.next else 0xFFFF, last := if e.next < next then next - 1 else 0xFFFF }) s)
  | none => s

/-- The root's run begins (R226); ports that are not UP drop the ranges of the epoch before. -/
def startEnumerate (setSource : Bool) (tenant : Nat) (s : State) : State :=
  let old := nodeAddr s
  let s := { s with plink := { s.plink with
    root := true, rooted := true, addr := 0, depth := 0, epoch := s.plink.epoch + 1, fabric := none
    ports := s.plink.ports.map fun q =>
      if q.st = 2 then { q with reattach := false } else { q with role := 0, first := 0xFFFF, last := 0xFFFF, reattach := false }
    enumRun := some { port := 0, next := 1, limit := 0xFFF, setSource, isRoot := true, tenant, blocked := 0, again := false } } }
  let s := if old = 0 then s else record 0x0404 engineTag [(2, old), (2, 0), (2, s.plink.epoch.toNat)] s
  enumGo 6 s

/-- A node takes an address from an ENUM cell and offers addresses on its other UP ports (R227, R228, R230). -/
def takeAddress (p addr depth : Nat) (setSource : Bool) (epoch : Half) (limit : Nat) (s : State) : State :=
  let old := nodeAddr s
  let s := { s with plink := { s.plink with
    rooted := true, addr, depth, epoch, fabric := none
    ports := s.plink.ports.mapIdx fun k q =>
      let q := { q with reattach := false }
      if k = p then { q with role := 1, first := 0xFFFF, last := 0xFFFF }
      else if q.role = 1 || q.role = 3 || q.st ≠ 2 then { q with role := 0, first := 0xFFFF, last := 0xFFFF }
      else q
    enumRun := some { port := 0, next := addr + 1, limit, setSource, isRoot := false, tenant := 0, blocked := 0, again := false } } }
  let s := record 0x0404 engineTag [(2, old), (2, addr), (2, epoch.toNat)] s
  let s := if setSource && s.last.src = 0 && !s.last.rcFallback then selectSource engineTag 0x20 0 s else s
  enumGo 6 s

/-! Link state (R206, R232, R233). -/

/-- A port returns to DOWN (R206): its role by R232 and R233, a waiting enumeration goes on (R228), a waiting PREPARE counts the
port as answered (R236). Causes: 2 no valid time cell, 3 comma alignment lost. -/
def portDown (p cause : Nat) (s : State) : State :=
  if (s.pl p).st = 0 then s
  else
    let q := s.pl p
    let s := modPl p (fun q => { q with goodRun := 0, lastRx := none, rxFrame := none, acked := true, reattach := false, role := if q.role = 2 then 2 else 0 })
      (plinkState p 0 cause s)
    let s := if q.role = 1 then
        if s.plink.rooted then unroot s else if s.last.src = 0x20 then sourceLostOp s else s
      else s
    let s := if enumWaits s p then
        if s.plink.enumRun.any fun e => e.again then enumStep id s
        else enumStep id (blockPort p (Config.causeCode 6 0).toNat s)
      else s
    settlePrepare s

/-! Received frames (R206, R210 to R215, R223, R224). -/

/-- d_f: the mean of the delay values, as a time; none before the first. -/
def delayMean (q : PlPort) : Option Time :=
  if q.dMean = [] then none else some (ofFrac q.dMean.sum / q.dMean.length)

/-- alpha of R224, in ps: the effective asymmetry of the port. -/
def asymOf (s : State) (p : Nat) : Int := factoryTerm 3 p 0 + userTerm s.last.cal 3 p 0

/-- The delay value a time cell completes (R223): it carries the peer's stamp of one of this node's frames, and the frame before
gave the other half. In 2^-16 ns. -/
def delayValue (q : PlPort) (t : TimeCell) : Option Int :=
  match t.rxTime, q.lastRx, q.txLog.find? (fun x => x.1 = t.rxFrame.toNat) with
  | some r, some (_, ptx, st), some (_, tx) => some (8192 * ((st - ptx) + (quarterOf (timeOf r) - tx)))
  | _, _, _ => none

/-- The frame index of a launch (R211). -/
def frameIndex (t : Time) : Nat := (roundUp t (frameU.toNat) % 2 ^ 32).toNat

/-- A valid time cell: counters, peer, delay, the way to UP (R206, R223). -/
def timeCellRx (p : Nat) (t : TimeCell) (stamp : Int) (s : State) : State :=
  let q := s.pl p
  let means := match delayValue q t with
    | some d => (d :: q.dMean).take 64
    | none => q.dMean
  let tx := timeOf t.txTime
  let s := modPl p (fun q => { q with
    framesOk := q.framesOk + 1, goodRun := q.goodRun + 1, peer := t.node, peerDepth := t.depth, peerFlags := t.flags
    dMean := means, lastMean := if delayValue q t = none then q.lastMean else means.headD 0
    lastRx := some (frameIndex tx, quarterOf tx, stamp), rxFrame := some (roundUp tx frameU.toNat), rxRate := t.rate.toNat }) s
  if (s.pl p).st = 1 && 4 ≤ (s.pl p).goodRun && (delayMean (s.pl p)).any (fun d => d ≤ ofNs 5000) then
    let back := (s.pl p).role = 2 && (s.pl p).first ≠ 0xFFFF
    reattachNext (modPl p (fun q => { q with
      framesOk := 0, framesBad := 0, cellsDropped := 0, audioBad := 0, dMean := q.dMean.take 1, reattach := back }) (plinkState p 2 1 s))
  else s

/-- The upstream peer's time cell: a servo sample of the Prieth source (R224), and loss of the address with the peer's (R232). -/
def upstreamRx (p : Nat) (t : TimeCell) (stamp : Int) (s : State) : State :=
  let q := s.pl p
  if q.role ≠ 1 || q.st ≠ 2 || !s.plink.rooted then s
  else if !t.flags.getLsbD 2 then unroot s
  else match delayMean q with
    | some d =>
      let off := ofQuarter (stamp - quarterOf (timeOf t.txTime)) - d - ofPs (asymOf s p)
      let s := modPl p (fun q => { q with offset := fracOf off }) s
      if s.last.src = 0x20 then servoSample off s else s
    | none => s

/-- Samples of one slot taken into its buffer of 3M samples by release boundary; the rest are discarded and counted (R214, R215). -/
def fillSlot (room : Nat) (late : Int) (buf : List (Int × Word)) : List (Int × Word) → List (Int × Word) × Nat
  | [] => (buf, 0)
  | x :: l =>
    let ok := late ≤ x.1 && buf.length < room
    let (b, n) := fillSlot room late (if ok then buf ++ [x] else buf) l
    (b, if ok then n else n + 1)

/-- The audio of a frame (R210, R212 to R215): by slot, the samples whose AUDIO blocks are right, under the boundary they are released at. A frame whose
time cell failed is the one after the frame before it, with the same RATE (log entry 79). -/
def audioRx (p : Nat) (f : PlFrame) (s : State) : State :=
  let q := s.pl p
  match q.rxFrame with
  | none => s
  | some k =>
  if q.rxRate ≠ q.rateRx then record 0x0406 engineTag [(1, p), (1, q.rxRate)] s
  else match plFs q.rateRx with
    | none => s
    | some fs =>
      let m := depthOf q.rateRx
      let b0 := boundaryFrom s fs ((k - 1) * frameU)
      let n := min (min (f.time.elim m fun t => t.samples.toNat) m) (boundaryFrom s fs (k * frameU) - b0).toNat
      let late := boundaryFrom s fs s.now
      let rel := ceilDiv fs 4000
      let step := fun (acc : List (Nat × List (Int × Word)) × Nat) (slot : Nat) =>
        let l := (List.range n).filterMap fun j =>
          if f.audioOk.getLsbD ((m * slot + j) / 256) then some (b0 + (j : Int) + rel, nth (nth f.audio slot) j) else none
        let (b, d) := fillSlot (3 * m) late (((assoc q.rx slot).getD []).filter fun x => late ≤ x.1) l
        (assocSet acc.1 slot b, acc.2 + d)
      let (rx, d) := (List.range (min f.audio.length (slotsOf q.rateRx))).foldl step (q.rx, 0)
      let s := modPl p (fun q => { q with rx }) s
      if d = 0 then s else record 0x0407 engineTag [(1, p), (2, sat16 d)] s

/-- A frame received (R210): each part that is right is used. -/
def frameRx (p : Nat) (f : PlFrame) (s : State) : State :=
  let bad := ((List.range 24).filter fun b => !f.audioOk.getLsbD b).length
  let s := modPl p (fun q => { q with
    cellsDropped := q.cellsDropped + BitVec.ofNat 32 ((if f.dirOk then 0 else f.cells) + f.expBad), audioBad := q.audioBad + BitVec.ofNat 32 bad }) s
  match f.time with
  | none => audioRx p f (modPl p (fun q => { q with
      framesBad := q.framesBad + 1, goodRun := 0, lastRx := none, rxFrame := q.rxFrame.map (· + 1) }) s)
  | some t =>
    let stamp := quarterOf (s.now + ofQuarter f.tap.val)
    audioRx p f (upstreamRx p t stamp (timeCellRx p t stamp s))

/-! Frames sent (R208 to R213, R219, R222). -/

/-- The audio map of a command applied at a frame start (R242). A receive slot may feed a Prism source and a forward: each KIND replaces its own map of
the slot, and unmapping ends both (R216, log entry 138). -/
def applyMap (s : State) (c : MapCfg) : State :=
  let p := c.port.toNat
  let q := s.pl p
  let lo := c.slot.toNat
  let hi := lo + c.count.toNat
  let cut := fun (l : List (Nat × SlotMap)) => l.filter fun x => x.1 < lo || hi ≤ x.1
  let isFwd := fun (m : SlotMap) => match m with
    | .forward _ _ => true
    | .prism _ => false
  let cutRx := fun (l : List (Nat × SlotMap)) => l.filter fun x => x.1 < lo || hi ≤ x.1 || (if c.kind = 1 then isFwd x.2 else c.kind = 2 && !isFwd x.2)
  let idx := List.range c.count.toNat
  if c.dir = 0 then
    modPl p (fun q => { q with
      rateTx := if c.rate = 0xFF then q.rateTx else c.rate.toNat
      txBuf := if c.rate = 0xFF || c.rate.toNat = q.rateTx then q.txBuf else []
      tx := if c.kind = 1 then cut q.tx ++ idx.map fun i => (lo + i, SlotMap.prism (c.ch.toNat + i)) else cut q.tx }) s
  else
    let gone := q.rxMap.filterMap fun x => if x.1 < lo || hi ≤ x.1 || c.kind = 1 then none else match x.2 with
      | .forward f k => some (f, k)
      | .prism _ => none
    let s := gone.foldl (fun s g => modPl g.1 (fun q => { q with tx := q.tx.filter fun x => x.1 ≠ g.2 }) s) s
    let keep := c.rate = 0xFF || c.rate.toNat = q.rateRx
    let s := modPl p (fun q => { q with
      rateRx := if c.rate = 0xFF then q.rateRx else c.rate.toNat
      rx := if keep then q.rx else []
      rxFades := idx.foldl (fun l i => if q.rxMap.any (fun x => x.1 = lo + i) then l else assocSet l (lo + i) { st := .pass }) q.rxFades
      rxMap := match c.kind.toNat with
        | 1 => cutRx q.rxMap ++ idx.map fun i => (lo + i, SlotMap.prism (c.ch.toNat + i))
        | 2 => cutRx q.rxMap ++ idx.map fun i => (lo + i, SlotMap.forward c.fwdPort.toNat (c.fwdSlot.toNat + i))
        | _ => cutRx q.rxMap }) s
    if c.kind = 2 then
      let fl := c.fwdSlot.toNat
      modPl c.fwdPort.toNat (fun q => { q with
        tx := (q.tx.filter fun x => x.1 < fl || fl + c.count.toNat ≤ x.1) ++ idx.map fun i => (fl + i, SlotMap.forward p (lo + i)) }) s
    else s

/-- The time cell of frame k (Table 8.3). -/
def timeCellBytes (s : State) (p : Nat) (tx : Int) (samples : Nat) : List Byte :=
  let q := s.pl p
  let zero : List Byte := List.replicate 16 0
  let (rx, frame) := match q.lastRx with
    | some (k, _, st) => (stampBytes (stampOf (ofQuarter st)), k)
    | none => (zero, 0)
  let flags := bit s.last.valid + 2 * bit (s.last.servo = .locked) + 4 * bit s.plink.rooted + 8 * bit s.plink.root
  withCrc (le 1 1 ++ le 1 q.role ++ le 1 q.rateTx ++ le 1 samples ++ stampBytes (stampOf (ofQuarter tx)) ++ rx ++ le 2 (nodeAddr s) ++
    le 1 (if s.plink.rooted then s.plink.depth else 0xFF) ++ le 1 flags ++ le 4 frame ++ leBits 2 s.plink.epoch ++ List.replicate 14 0)

/-- Sample j of transmit slot c in the frame that carries the boundaries b0 to b0 + n - 1: zero where the slot is not mapped or nothing was formed
for it, and from SAMPLES on (R212, R216). -/
def slotSample (q : PlPort) (b0 : Int) (n c j : Nat) : Word :=
  if j < n && q.tx.any (fun m => m.1 = c) then
    (((assoc q.txBuf c).getD []).find? fun x => x.1 = b0 + (j : Int)).elim 0 fun x => x.2
  else 0

/-- The 24,576 bytes of AUDIO: slot c at 4·M·c, sample j in it at 4·j (R212). -/
def audioBytes (q : PlPort) (b0 : Int) (n : Nat) : List Byte :=
  let m := depthOf q.rateTx
  (List.range 6144).flatMap fun w => if m = 0 then le 4 0 else leBits 4 (slotSample q b0 n (w / m) (w % m))

/-- Bytes with zeros up to a length. -/
def padded (n : Nat) (l : List Byte) : List Byte := slice l 0 n

/-- A directory entry (Table 8.4), and DIR and CELLS of a frame (R217). -/
def dirEntry (c : QueuedCell) : List Byte :=
  le 1 (if c.isReply then 2 else 1) ++ le 1 0 ++ le 2 c.bytes.length ++ le 2 c.dest ++ le 2 (c.origin + 4096 * c.tenant)
def dirBytes (l : List QueuedCell) : List Byte := padded 256 (l.flatMap dirEntry)
def cellBytes (l : List QueuedCell) : List Byte := padded 8192 (l.flatMap fun c => padded 256 c.bytes)

/-- An express cell (Table 8.5), or an empty one. -/
def expressBytes (c : Option ExpressCell) : List Byte :=
  withCrc (padded 60 (match c with
    | none => []
    | some (.enum addr depth setSource epoch limit) =>
      le 4 0x01 ++ le 2 addr ++ le 1 depth ++ le 1 (bit setSource) ++ leBits 2 epoch ++ le 2 limit
    | some (.enumDone next epoch) => le 4 0x02 ++ le 2 next ++ le 2 0 ++ leBits 2 epoch
    | some (.enumReject reason epoch) => le 4 0x03 ++ le 4 reason ++ leBits 2 epoch
    | some (.prepare fid tenant group) => le 4 0x10 ++ le 1 fid ++ le 1 tenant ++ le 2 group
    | some (.prepareAck fid ready idle failed firstFailed) =>
      le 4 0x11 ++ le 2 fid ++ le 2 ready ++ le 2 idle ++ le 2 failed ++ le 2 firstFailed
    | some (.apply fid sHi sLo ns) => le 4 0x12 ++ le 4 fid ++ leBits 4 sHi ++ leBits 4 sLo ++ leBits 4 ns
    | some (.abort fid) => le 4 0x13 ++ le 1 fid))

/-- A frame from TIME to the reserved bytes before EXP1 (Table 8.2). -/
def frameBytes (time exp0 dir cells audio : List Byte) : List Byte :=
  time ++ exp0 ++ dir ++ cells ++ audio ++ leBits 4 (crc32c dir) ++
    ((List.range 24).flatMap fun b => leBits 4 (crc32c (slice audio (1024 * b) 1024))) ++ le 12 0

/-- The start-of-frame delimiter K28.5, K28.1, and the idle pair K28.5, D16.2 (R208). -/
def sfd : List LinkSymbol := [.k 0xBC, .k 0x3C]
def idlePair : List LinkSymbol := [.k 0xBC, .d 0x50]

/-- The express cell for a position that starts in a TIME cycle: the first of the queue, 20 us after it was queued (R222); and the rest. -/
def takeExpress (start : Nat) : List (Nat × ExpressCell) → Option ExpressCell × List (Nat × ExpressCell)
  | x :: l => if x.1 + 10000 ≤ start then (some x.2, l) else (none, x :: l)
  | [] => (none, [])

/-- The TIME cycle in which EXP1 of the frame in progress starts, 66,532 ns after its SFD (R222). -/
def exp1Start (q : PlPort) : Nat := (q.launched.getD 0) / 8 + 33266

/-- EXP1 of the frame in progress leaves, and idle pairs follow it (R208, R222). -/
def sendTail (p : Nat) (s : State) : State :=
  if !(s.pl p).tailDue then s
  else
    let (e, rest) := takeExpress (exp1Start (s.pl p)) (s.pl p).express
    emit (.plTail p ((expressBytes e).map .d) idlePair) (modPl p (fun q => { q with express := rest, tailDue := false }) s)

/-- EXP1 of every frame in progress whose position has come. -/
def serveTails (s : State) : State :=
  [0, 1, 2, 3].foldl (fun s p => if exp1Start (s.pl p) ≤ s.last.cycles then sendTail p s else s) s

/-- Up to 32 cells, replies first, then packets, each in queue order (R219). -/
def takeCells (l : List QueuedCell) : List QueuedCell × List QueuedCell :=
  let r := l.filter fun c => c.isReply
  let o := l.filter fun c => !c.isReply
  let all := r ++ o
  (all.take 32, all.drop 32)

/-- The index of the frame whose start lies before the end of this TIME cycle (R208). -/
def launchIndex (s : State) : Int := (cycleEnd s - 1) / frameU

/-- Frame k is launched (R208): what is left of the frame before it goes first, maps of R242 take effect at its start, and the launch lies within 1 ns of
k·125 us. -/
def launch (p : Nat) (s : State) : State :=
  let k := launchIndex s
  let maps := (s.pl p).pendingMap
  let s := sendTail p s
  let s := maps.foldl applyMap (modPl p (fun q => { q with pendingMap := [] }) s)
  let (v, s) := drawFree s
  let tx := quarterOf (k * frameU) + ((v.toNat % 9 : Nat) : Int) - 4
  let q := s.pl p
  let (b0, n) := match plFs q.rateTx with
    | some fs => let b := boundaryFrom s fs ((k - 1) * frameU); (b, (boundaryFrom s fs (k * frameU) - b).toNat)
    | none => (0, 0)
  let (cells, rest) := takeCells q.queue
  let (e0, ex) := takeExpress (s.last.cycles + 66) q.express
  let bytes := frameBytes (timeCellBytes s p tx n) (expressBytes e0) (dirBytes cells) (cellBytes cells) (audioBytes q b0 n)
  emit (.plFrame p (sfd ++ bytes.map .d)) (modPl p (fun q => { q with
    queue := rest, express := ex, tailDue := true, txLog := ((frameIndex (k * frameU), tx) :: q.txLog).take 4, launched := some (elapsedQ s)
    txBuf := q.txBuf.map fun x => (x.1, x.2.filter fun y => b0 + (n : Int) ≤ y.1) }) s)

/-- PLINK_FRAME_LAUNCH: one frame for each index, and after a step of the Last none until 67 us after the frame before (08). -/
def execPlinkFrameLaunch (port : Fin 4) (s : State) : Out :=
  if !plinkRuns s || !laneUp s port.val || (s.pl port.val).txLog.head?.any (fun x => x.1 = frameIndex (launchIndex s * frameU)) ||
      (s.pl port.val).launched.any (fun e => decide (elapsedQ s < e + 268000)) then .next s
  else fin (launch port.val s)

/-- COMMA_ALIGN: DOWN to SYNCING (R206). -/
def execCommaAlign (port : Fin 4) (s : State) : Out :=
  if !plinkRuns s || !laneUp s port.val || (s.pl port.val).st ≠ 0 then .next s
  else fin (modPl port.val (fun q => { q with goodRun := 0, dMean := [], lastRx := none, rxFrame := none }) (plinkState port.val 1 0 s))

/-! The commands of Table 8.7. -/

def plinkStatusM (port : Byte) : Meaning where
  effect := fun _ s =>
    let q := s.pl port.toNat
    (s, .ok, le 1 q.st ++ le 1 q.role ++ le 1 q.rateTx ++ le 1 q.rateRx ++ leBits 2 q.peer ++ leBits 1 q.peerDepth ++
      leBits 1 q.peerFlags ++ leBits 4 q.framesOk ++ leBits 4 q.framesBad ++ leBits 4 q.cellsDropped ++ leBits 4 q.audioBad ++ le 8 0)

def execPlinkStatus (r : Req) (port : Byte) (s : State) : Out := fin (submit (.plinkStatus r port) (plinkStatusM port) s)

/-- PLINK_ENUMERATE (R226, R231, Note 1 of Table 8.7). It ends when the root has tried every port. -/
def plinkEnumerateM (r : Req) (flags : Byte) : Meaning where
  checks := fun s => [(.busy, portsOf s 1 ≠ [] || s.plink.enumRun.isSome || s.plink.fabric.isSome)]
  start := startEnumerate (flags.getLsbD 0) r.tenant
  ready := fun s => s.plink.enumRun.all fun e => 4 ≤ e.port
  effect := fun _ s =>
    let k := s.plink
    (reattachNext { s with plink := { k with enumRun := none } }, .ok,
      le 2 k.nodes ++ le 2 k.blockedAll ++ le 1 k.maxDepth ++ le 1 0 ++ leBits 2 k.epoch)

def execPlinkEnumerate (r : Req) (flags : Byte) (s : State) : Out :=
  fin (submit (.plinkEnumerate r flags) (plinkEnumerateM r flags) s)

def plinkTopologyM : Meaning where
  effect := fun _ s =>
    let k := s.plink
    let one := fun (q : PlPort) =>
      let d := q.role = 2
      le 1 q.role ++ le 1 0 ++ le 2 (if d then q.first else 0xFFFF) ++ le 2 (if d then q.last else 0xFFFF) ++ le 2 0
    (s, .ok, le 2 (nodeAddr s) ++ le 1 (if k.rooted then k.depth else 0xFF) ++
      le 1 (bit k.root + 2 * bit k.rooted + 4 * bit k.armed.isSome) ++ leBits 2 k.epoch ++
      le 2 (if k.rooted then k.lastAddr else 0xFFFF) ++ (List.range 4).flatMap fun p => one (s.pl p))

def execPlinkTopology (r : Req) (s : State) : Out := fin (submit (.plinkTopology r) plinkTopologyM s)

/-- The state with the maps that wait for a frame start in place. -/
def mapsDone (s : State) : State := s.plink.ports.foldl (fun s q => q.pendingMap.foldl applyMap s) s

/-- R242: the checks are judged with the maps that wait for a frame start in place. -/
def plinkAudioMapM (c : MapCfg) : Meaning where
  checks := fun s0 =>
    let s := mapsDone s0
    let q := s.pl c.port.toNat
    let cur := if c.dir = 0 then q.rateTx else q.rateRx
    let new := if c.rate = 0xFF then cur else c.rate.toNat
    let room := if c.kind = 0 then max (slotsOf cur) (slotsOf new) else slotsOf new
    let f := s.pl c.fwdPort.toNat
    let fed := fun (q : PlPort) (lo : Nat) => q.tx.any fun x => lo ≤ x.1 && x.1 < lo + c.count.toNat &&
      (match x.2 with
       | .forward _ _ => true
       | .prism _ => false)
    [(.range, 2 ≤ c.dir.toNat || (c.rate ≠ 0xFF && 7 ≤ c.rate.toNat) || 3 ≤ c.kind.toNat || c.count = 0 ||
        room < c.slot.toNat + c.count.toNat || (c.kind = 1 && 256 < c.ch.toNat + c.count.toNat) ||
        (c.kind = 2 && (c.dir = 0 || c.fwdPort = c.port || f.rateTx ≠ new || slotsOf f.rateTx < c.fwdSlot.toNat + c.count.toNat))),
     (.busy, (new ≠ cur && (if c.dir = 0 then q.tx ≠ [] else q.rxMap ≠ [])) || (c.dir = 0 && fed q c.slot.toNat) ||
        (c.kind = 2 && fed f c.fwdSlot.toNat))]
  effect := fun _ s => (modPl c.port.toNat (fun q => { q with pendingMap := q.pendingMap ++ [c] }) s, .ok, [])

def execPlinkAudioMap (r : Req) (c : MapCfg) (s : State) : Out := fin (submit (.plinkAudioMap r c) (plinkAudioMapM c) s)

/-- The root's commit with an FID whose counts are complete. -/
def preparedRun (s : State) (fid : Byte) : Option FabricRun :=
  s.plink.fabric.filter fun f => f.prepared && f.by_ ≠ 16 && f.fid = fid.toNat

/-- FABRIC_PREPARE (R234, R236, Note 2 of Table 8.7). The root judges itself, arms and broadcasts PREPARE when it accepts the command. It ends when every port has answered, or at PREPARE_TIMEOUT. -/
def fabricPrepareM (r : Req) (fid tenant : Byte) (group : Half) : Meaning where
  checks := fun s => [(.range, !s.plink.root || fid = 0 || group = 0),
    (.busy, s.plink.enumRun.isSome || s.plink.fabric.any fun f => f.fid ≠ fid.toNat)]
  onAccept := fun s => (startPrepare fid.toNat tenant.toNat group.toNat r.tenant s, .pending, [])
  ready := fun s => s.plink.fabric.all fun f => f.prepared || allAcked s
  effect := fun _ s => match s.plink.fabric with
    | some f =>
      ({ s with plink := { s.plink with fabric := some { f with prepared := true } } }, .ok,
        le 2 f.ready ++ le 2 f.idle ++ le 2 f.failed ++ le 2 (s.plink.nodes - (f.ready + f.idle + f.failed)) ++ le 2 f.firstFailed ++ le 2 0)
    | none => (s, .range, [])

def execFabricPrepare (r : Req) (fid tenant : Byte) (group : Half) (s : State) : Out :=
  fin (submit (.fabricPrepare r fid tenant group) (fabricPrepareM r fid tenant group) s)

/-- FABRIC_APPLY (R237, R238): the root broadcasts APPLY at acceptance; it refuses a second one for the FID. -/
def fabricApplyM (r : Req) (fid : Byte) : Meaning where
  authority := fun s => (preparedRun s fid).all fun f => f.by_ = r.tenant.val
  checks := fun s =>
    let f := preparedRun s fid
    let again := (s.tenant r.tenant).pend.any fun p => match p.cmd with
      | .fabricApply _ _ => true
      | _ => false
    [(.range, f.isNone || again)]
  onAccept := fun s =>
    let s := { s with plink := { s.plink with fabric := s.plink.fabric.map fun f => { f with applied := true } } }
    let s := broadcast (.apply fid.toNat r.apply.sHi r.apply.sLo r.apply.ns) s
    match armedWaiting s with
    | some a => (if a.fid = fid.toNat then commitArmed a r.apply s else s, .pending, [])
    | none => (s, .pending, [])
  effect := fun _ s => ({ s with plink := { s.plink with fabric := none } }, .ok, [])

def execFabricApply (r : Req) (fid : Byte) (s : State) : Out := fin (submit (.fabricApply r fid) (fabricApplyM r fid) s)

/-- A node disarms on ABORT (R240). -/
def abortArmed (fid : Nat) (s : State) : State :=
  match armedWaiting s with
  | some a => if a.fid = fid then record 0x040A engineTag [(1, fid)] (disarm s) else s
  | none => s

def fabricAbortM (r : Req) (fid : Byte) : Meaning where
  authority := fun s => (preparedRun s fid).all fun f => f.by_ = r.tenant.val
  checks := fun s =>
    let f := preparedRun s fid
    [(.range, f.isNone), (.busy, f.any fun f => f.applied)]
  effect := fun _ s =>
    let s := abortArmed fid.toNat (broadcast (.abort fid.toNat) s)
    ({ s with plink := { s.plink with fabric := none } }, .ok, [])

def execFabricAbort (r : Req) (fid : Byte) (s : State) : Out := fin (submit (.fabricAbort r fid) (fabricAbortM r fid) s)

def plinkDelayGetM (port : Byte) : Meaning where
  effect := fun _ s =>
    let q := s.pl port.toNat
    let mean := match delayMean q with | some d => fracOf d | none => 0
    (s, .ok, leInt 8 mean ++ leInt 8 q.lastMean ++ leInt 4 (asymOf s port.toNat) ++
      leInt 8 (if q.role = 1 then q.offset else 0) ++ le 2 q.dMean.length ++ le 2 0)

def execPlinkDelayGet (r : Req) (port : Byte) (s : State) : Out :=
  fin (submit (.plinkDelayGet r port) (plinkDelayGetM port) s)

/-! Express cells that end no command of class 2. -/

/-- An express cell is heard while the link is aligned. -/
def hears (s : State) (p : Nat) : Bool := plinkRuns s && laneUp s p && (s.pl p).st ≠ 0

/-- ENUM (R227): rejected by a root, and by a node that holds an address of that epoch. -/
def execCellEnum (port : Fin 4) (addr : BitVec 12) (depth : Byte) (setSource : Bool) (epoch : Half) (limit : BitVec 12) (s : State) : Out :=
  if !hears s port.val then .next s
  else if s.plink.root || (s.plink.rooted && s.plink.epoch = epoch) then fin (sendExpress port.val (.enumReject 1 epoch) s)
  else fin (takeAddress port.val addr.toNat depth.toNat setSource epoch limit.toNat s)

/-- PREPARE from upstream (R234). -/
def execCellPrepare (port : Fin 4) (fid : Byte) (tenant : Fin 16) (group : Half) (s : State) : Out :=
  if !hears s port.val || (s.pl port.val).role ≠ 1 then .next s
  else fin (settlePrepare (startPrepare fid.toNat tenant.val group.toNat 16 s))

/-- APPLY from upstream (R237 to R239). -/
def execCellApply (port : Fin 4) (fid : Byte) (time : Stamp) (s0 : State) : Out :=
  if !hears s0 port.val || (s0.pl port.val).role ≠ 1 then .next s0
  else
    let s := broadcast (.apply fid.toNat time.sHi time.sLo time.ns) s0
    let known := s.plink.fabric.any fun f => f.fid = fid.toNat && (groupOf (s.tenant f.tenant) f.group).isSome
    match armedWaiting s with
    | some a =>
      if a.fid = fid.toNat then
        if s.now + ofNs 20000 ≤ applyTime time then fin (commitArmed a time s) else fin (fabricMissed fid.toNat 1 s)
      else if known then fin (fabricMissed fid.toNat 0 s) else fin s
    | none =>
      if known && s.plink.armed.all (fun a => a.fid ≠ fid.toNat) then fin (record 0x0701 engineTag [(1, fid.toNat), (1, (Config.causeCode 5 0).toNat)] s)
      else fin s

/-- ABORT from upstream (R240). -/
def execCellAbort (port : Fin 4) (fid : Byte) (s : State) : Out :=
  if !hears s port.val || (s.pl port.val).role ≠ 1 then .next s
  else fin (abortArmed fid.toNat (broadcast (.abort fid.toNat) s))

/-- ARM_TIMEOUT: 1 s after arming without APPLY (R239). -/
def execArmTimeout (s : State) : Out :=
  match armedWaiting s with
  | some a => fin (fabricMissed a.fid 3 s)
  | none => .next s

/-! Remote replies (R89). -/

/-- REMOTE_REPLY_TIMEOUT: no reply within 20 ms of forwarding: S_TIMEOUT, and a later reply is discarded. -/
def execRemoteReplyTimeout (t : Fin 16) (tag : Half) (s : State) : Out :=
  match (s.tenant t).remote.find? (fun x => x.2.1 = tag && x.2.2 = 0) with
  | some x =>
    fin (post t false { status := .timeout, opcode := x.1, tag, done := nowNs s }
      (modTenant t (fun n => { n with remote := n.remote.map fun y => if y = x then (y.1, y.2.1, 2) else y }) s))
  | none => .next s

end Sys2Proof.Machine
end

