-- ==== Sys2Proof/Machine/Wire.lean ====
section
/-! DEFINITION. The bytes of a packet (04, Table 4.4): its header, the command its opcode and parameters spell by the parameter
tables of the chapters, and checks 1 to 5 of R98. -/

namespace Sys2Proof.Machine

/-- `n` bytes of a packet at offset `i` as a bit vector; bytes the packet does not have read as zero. -/
def peekB (w : Nat) (b : List Byte) (i : Nat) : BitVec w := BitVec.ofNat w (peekLe b i ((w + 7) / 8))

/-- The four words of a stamp in parameters (Table 2.2). -/
def peekStamp (b : List Byte) (i : Nat) : Stamp :=
  { sHi := peekB 32 b i, sLo := peekB 32 b (i + 4), ns := peekB 32 b (i + 8), frac := peekB 32 b (i + 12) }

/-! The header (Table 4.4). -/

def pktOpcode (b : List Byte) : Half := peekB 16 b 0
def pktFlags (b : List Byte) : Byte := peekB 8 b 2
def pktClass (b : List Byte) : BitVec 4 := BitVec.ofNat 4 (peekLe b 3 1)
def pktVer (b : List Byte) : Nat := peekLe b 3 1 / 16
def pktPlen (b : List Byte) : Nat := peekLe b 4 2
def pktTag (b : List Byte) : Half := peekB 16 b 6
def pktGseq (b : List Byte) : Half := peekB 16 b 8
def pktGroup (b : List Byte) : Half := peekB 16 b 10
def pktRemote (b : List Byte) : Bool := peekLe b 12 4 / 32768 % 2 = 1
def pktDest (b : List Byte) : Nat := peekLe b 14 2 % 4096
def pktTenant (b : List Byte) : Fin 16 := Fin.ofNat 16 (peekLe b 15 1 / 16)

/-- The request of a packet that came by `r`'s tenant, transport and origin. -/
def pktReq (r : Req) (b : List Byte) : Req :=
  { r with
    cls := pktClass b, flags := pktFlags b, tag := pktTag b, group := pktGroup b, gseq := pktGseq b
    apply := if pktClass b = 1 then { peekStamp b 16 with frac := 0 } else {} }

/-- The parameter bytes, after the apply time of a class 1 packet. -/
def pktParams (b : List Byte) : List Byte := (b.take (16 + 4 * pktPlen b)).drop (if pktClass b = 1 then 28 else 16)

/-- A reply that echoes TAG and OPCODE as they were received (R98). -/
def rawReply (s : State) (r : Req) (b : List Byte) (st : Status) : Reply :=
  { status := st, opcode := pktOpcode b, tag := pktTag b, done := nowNs s, dest := r.origin }

/-! Parameters by opcode. `p` is the parameter bytes. -/

/-- `n` data bytes from an offset, as many as a count field says, whatever the packet holds. -/
def dataAt (p : List Byte) (i n : Nat) : List Byte := slice p i n

/-- Table 4.10, by the low byte of the opcode. -/
def parse00 (r : Req) (k : Nat) (p : List Byte) : Option Instr :=
  match k with
  | 0x01 => some (.sysInfo r)
  | 0x10 => some (.tenantOpen r (peekB 8 p 0) (peekB 8 p 1))
  | 0x11 => some (.tenantClose r (peekB 8 p 0))
  | 0x12 => some (.grant r (peekB 8 p 0) (peekB 8 p 1) (peekB 16 p 2) (peekB 16 p 4))
  | 0x13 => some (.revoke r (peekB 8 p 0) (peekB 8 p 1) (peekB 16 p 2) (peekB 16 p 4))
  | 0x20 => some (.groupCommit r)
  | 0x21 => some (.groupAbort r)
  | 0x22 => some (.groupStatus r)
  | 0x30 => some (.fuseRead r (peekB 16 p 0))
  | 0x31 => some (.fuseProgram r (peekB 16 p 0) (peekB 256 p 4))
  | 0x40 => some (.fwWrite r (peekB 32 p 0) (dataAt p 8 (peekLe p 4 2)))
  | 0x41 => some (.fwCommit r (peekB 32 p 0))
  | _ => none

/-- Table 2.7. -/
def parse01 (r : Req) (k : Nat) (p : List Byte) : Option Instr :=
  match k with
  | 0x01 => some (.timeGet r)
  | 0x02 => some (.timeSet r (peekStamp p 0) (peekB 16 p 16) (peekB 16 p 18))
  | 0x03 => some (.timeStep r (peekB 64 p 0))
  | 0x04 => some (.timeAdjust r (peekB 64 p 0) (peekB 32 p 8))
  | 0x05 => some (.rateSet r (peekB 32 p 0))
  | 0x10 => some (.sourceSet r (peekB 8 p 0) (peekB 8 p 1))
  | 0x11 => some (.servoConfig r (peekB 32 p 0) (peekB 32 p 4) (peekB 32 p 8) (peekB 32 p 12) (peekB 16 p 16) (peekB 16 p 18))
  | 0x12 => some (.lastStatus r)
  | _ => none

/-- CAL_SET and CAL_GET (Table 2.7). -/
def parse0D (r : Req) (k : Nat) (p : List Byte) : Option Instr :=
  match k with
  | 0x01 => some (.calSet r (peekB 8 p 0) (peekB 8 p 1) (peekB 8 p 2) (peekB 32 p 4))
  | 0x02 => some (.calGet r (peekB 8 p 0) (peekB 8 p 1) (peekB 8 p 2))
  | _ => none

/-- Parameters of GPTP_CONFIG (Table 6.4). -/
def gptpOf (p : List Byte) : GptpCfg where
  mode := peekB 8 p 0
  domain1 := peekB 8 p 1
  priority1 := peekB 8 p 2
  priority2 := peekB 8 p 3
  clockClass := peekB 8 p 4
  clockAccuracy := peekB 8 p 5
  logVariance := peekB 16 p 6
  logSync := peekB 8 p 8
  logPdelay := peekB 8 p 9
  logAnnounce := peekB 8 p 10
  syncTimeout := peekB 8 p 11
  announceTimeout := peekB 8 p 12
  flags := peekB 8 p 13
  timeSource := peekB 8 p 14
  pdelayThresh := peekB 32 p 16
  clockId := peekB 64 p 20

/-- Parameters of AVTP_TALKER_CONFIG and AVTP_LISTENER_CONFIG. -/
def avtpOf (p : List Byte) : AvtpCfg where
  stream := peekB 8 p 0
  port := peekB 8 p 1
  format := peekB 8 p 2
  nsr := peekB 8 p 3
  streamId := peekB 64 p 4
  destMac := peekB 48 p 12
  cls := peekB 8 p 18
  channels := peekB 8 p 19
  base := peekB 16 p 20
  presOffset := peekB 16 p 22

/-- Parameters of CRF_CONFIG. -/
def crfOf (p : List Byte) : CrfCfg where
  dir := peekB 8 p 0
  stream := peekB 8 p 1
  port := peekB 8 p 2
  cls := peekB 8 p 3
  streamId := peekB 64 p 4
  destMac := peekB 48 p 12
  mcg := peekB 8 p 18
  tsPerPdu := peekB 8 p 19
  baseFreq := peekB 32 p 20
  tsInterval := peekB 16 p 24

/-- Table 6.4. -/
def parse02 (r : Req) (k : Nat) (p : List Byte) : Option Instr :=
  match k with
  | 0x01 => some (.ethPortConfig r (peekB 8 p 0) (peekB 8 p 1) (peekB 16 p 2) (peekB 48 p 4))
  | 0x02 => some (.ethPortStatus r (peekB 8 p 0))
  | 0x10 => some (.gptpConfig r (gptpOf p))
  | 0x11 => some (.gptpPortRole r (peekB 8 p 0) (peekB 8 p 1) (peekB 8 p 2))
  | 0x12 => some (.gptpStatus r (peekB 8 p 0))
  | 0x20 => some (.avtpTalkerConfig r (avtpOf p))
  | 0x21 => some (.avtpListenerConfig r (avtpOf p))
  | 0x22 => some (.avtpStreamStart r (peekB 8 p 0) (peekB 8 p 1))
  | 0x23 => some (.avtpStreamStop r (peekB 8 p 0) (peekB 8 p 1))
  | 0x24 => some (.avtpStreamStatus r (peekB 8 p 0) (peekB 8 p 1))
  | 0x30 => some (.crfConfig r (crfOf p))
  | 0x40 => some (.cbsConfig r (peekB 8 p 0) (peekB 32 p 4) (peekB 32 p 8))
  | 0x50 => some (.ethRxFilter r (peekB 8 p 0) (peekB 8 p 1) (peekB 8 p 2) (peekB 64 p 4))
  | _ => none

/-- Parameters of TPIN_CONFIG (Table 7.4). -/
def tpinOf (p : List Byte) : TpinCfg where
  pin := peekB 8 p 0
  mode := peekB 8 p 1
  edge := peekB 8 p 2
  flags := peekB 8 p 3
  source := peekB 8 p 4
  width := peekB 32 p 8
  period := peekB 64 p 12
  offset := peekB 64 p 20

/-- Parameters of REFLEX_CONFIG. -/
def reflexOf (p : List Byte) : ReflexCfg where
  path := peekB 8 p 0
  inPin := peekB 8 p 1
  outPin := peekB 8 p 2
  mode := peekB 8 p 3
  delay := peekB 32 p 4
  width := peekB 32 p 8

/-- Parameters of REFLEX_WINDOW. -/
def windowOf (p : List Byte) : WindowCfg where
  path := peekB 8 p 0
  base := peekB 8 p 1
  fsg := peekB 8 p 2
  openAt := peekB 64 p 4
  length := peekB 64 p 12
  period := peekB 64 p 20

/-- Parameters of FSG_CONFIG. -/
def fsgOf (p : List Byte) : FsgCfg where
  fsg := peekB 8 p 0
  num := peekB 32 p 4
  den := peekB 32 p 8
  width := peekB 32 p 12
  phase := peekB 32 p 16
  minFrame := peekB 32 p 20

/-- Table 7.4. -/
def parse03 (r : Req) (k : Nat) (p : List Byte) : Option Instr :=
  match k with
  | 0x01 => some (.tpinConfig r (tpinOf p))
  | 0x02 => some (.tpinSchedule r (peekB 8 p 0) (peekB 8 p 1) (peekB 8 p 2) (peekStamp p 4))
  | 0x03 => some (.tpinCancel r (peekB 8 p 0) (peekB 16 p 2))
  | 0x04 => some (.tpinCaptureRead r (peekB 8 p 0) (peekB 8 p 1))
  | 0x10 => some (.reflexConfig r (reflexOf p))
  | 0x11 => some (.reflexWindow r (windowOf p))
  | 0x20 => some (.fsgConfig r (fsgOf p))
  | 0x21 => some (.fsgStart r (peekB 8 p 0))
  | 0x22 => some (.fsgStop r (peekB 8 p 0))
  | 0x23 => some (.fsgStatus r (peekB 8 p 0))
  | _ => none

/-- Parameters of PLINK_AUDIO_MAP (Table 8.8). -/
def mapOf (p : List Byte) : MapCfg where
  port := peekB 8 p 0
  dir := peekB 8 p 1
  rate := peekB 8 p 2
  kind := peekB 8 p 3
  slot := peekB 16 p 4
  count := peekB 16 p 6
  ch := peekB 16 p 8
  fwdPort := peekB 8 p 10
  fwdSlot := peekB 16 p 12

/-- Table 8.8. -/
def parse04 (r : Req) (k : Nat) (p : List Byte) : Option Instr :=
  match k with
  | 0x01 => some (.plinkStatus r (peekB 8 p 0))
  | 0x02 => some (.plinkEnumerate r (peekB 8 p 0))
  | 0x03 => some (.plinkTopology r)
  | 0x10 => some (.plinkAudioMap r (mapOf p))
  | 0x20 => some (.fabricPrepare r (peekB 8 p 0) (peekB 8 p 1) (peekB 16 p 2))
  | 0x21 => some (.fabricApply r (peekB 8 p 0))
  | 0x22 => some (.fabricAbort r (peekB 8 p 0))
  | 0x30 => some (.plinkDelayGet r (peekB 8 p 0))
  | _ => none

/-- Parameters of APORT_CONFIG (Table 9.7). -/
def aportOf (p : List Byte) : AportCfg where
  port := peekB 8 p 0
  format := peekB 8 p 1
  role := peekB 8 p 2
  mcg := peekB 8 p 3
  rate := peekB 8 p 4
  slots := peekB 8 p 5
  slotWidth := peekB 8 p 6
  word := peekB 8 p 7
  frameBits := peekB 16 p 8
  flags := peekB 8 p 10
  dIn := peekB 8 p 11
  dOut := peekB 8 p 12
  preroll := peekB 8 p 13
  postroll := peekB 8 p 14
  fadeLen := peekB 16 p 16

/-- Table 9.7. -/
def parse05 (r : Req) (k : Nat) (p : List Byte) : Option Instr :=
  match k with
  | 0x01 => some (.mcgConfig r (peekB 8 p 0) (peekB 8 p 1) (peekB 8 p 2) (peekB 8 p 3) (peekB 16 p 4))
  | 0x02 => some (.mcgMeasure r (peekB 8 p 0))
  | 0x10 => some (.aportConfig r (aportOf p))
  | 0x11 => some (.aportStart r (peekB 8 p 0))
  | 0x12 => some (.aportStop r (peekB 8 p 0))
  | 0x13 => some (.aportMask r (peekB 8 p 0) (peekB 32 p 4) (peekB 32 p 8))
  | 0x14 => some (.aportRate r (peekB 8 p 0) (peekB 8 p 1) (peekB 8 p 2))
  | 0x15 => some (.aportStatus r (peekB 8 p 0))
  | _ => none

/-- Item i of PRISM_XP_SET (Table 10.12). -/
def xpItemOf (p : List Byte) (i : Nat) : XpItem :=
  { source := peekB 16 p (4 + 8 * i), bus := peekB 8 p (6 + 8 * i), gain := peekB 16 p (8 + 8 * i) }

/-- Item i of PRISM_XP_CLEAR. -/
def xpKeyOf (p : List Byte) (i : Nat) : XpKey := { source := peekB 16 p (4 + 4 * i), bus := peekB 8 p (6 + 4 * i) }

/-- Table 10.12, group 0x06. -/
def parse06 (r : Req) (k : Nat) (p : List Byte) : Option Instr :=
  match k with
  | 0x01 => some (.prismInputClass r (peekB 16 p 0) (peekB 8 p 2) (peekB 8 p 3))
  | 0x02 => some (.prismXpSet r ((List.range (peekLe p 0 1)).map (xpItemOf p)))
  | 0x03 => some (.prismXpClear r ((List.range (peekLe p 0 1)).map (xpKeyOf p)))
  | 0x04 => some (.prismRoute r (peekB 16 p 0) (peekB 16 p 2) (peekB 8 p 4))
  | 0x10 => some (.prismBusConfig r (peekB 8 p 0) (peekB 8 p 1) (peekB 8 p 2) (peekB 8 p 3) (peekB 8 p 4))
  | 0x11 => some (.prismBusRange r (peekB 8 p 0) (peekB 8 p 1))
  | 0x20 => some (.prismDirectGain r (peekB 16 p 0) (peekB 8 p 2) (peekB 16 p 4))
  | 0x30 => some (.prismStatus r (peekB 8 p 0))
  | _ => none

/-- Table 10.12, group 0x07. -/
def parse07 (r : Req) (k : Nat) (p : List Byte) : Option Instr :=
  match k with
  | 0x01 => some (.sceneStore r (peekB 8 p 0) (peekB 16 p 2) (peekB 32 p 4))
  | 0x02 => some (.sceneRecall r (peekB 8 p 0))
  | 0x03 => some (.sceneDelete r (peekB 8 p 0))
  | 0x04 => some (.sceneList r)
  | 0x10 => some (.mirrorConfig r (peekB 8 p 0) (peekB 8 p 1) (peekB 8 p 2) (peekB 16 p 4))
  | 0x11 => some (.mirrorStatus r)
  | _ => none

/-- Parameters of LENS_CHAIN (Table 11.14). -/
def chainParams (p : List Byte) : ChainCfg where
  core := peekB 8 p 0
  slot := peekB 8 p 1
  family := peekB 8 p 2
  rate := peekB 8 p 3
  block := peekB 8 p 4
  inKind := peekB 8 p 5
  inFrom := peekB 8 p 6
  outKind := peekB 8 p 7
  outFirst := peekB 8 p 8

/-- Item i of LENS_PARAM. -/
def lensItemOf (p : List Byte) (i : Nat) : LensItem :=
  { core := peekB 8 p (4 + 8 * i), slot := peekB 8 p (5 + 8 * i), word := peekB 16 p (6 + 8 * i), value := peekB 32 p (8 + 8 * i) }

/-- Table 11.14. -/
def parse08 (r : Req) (k : Nat) (p : List Byte) : Option Instr :=
  match k with
  | 0x01 => some (.lensLoad r (peekB 8 p 0) (peekB 8 p 1) (peekB 16 p 2) (peekB 32 p 4))
  | 0x02 => some (.lensChain r (chainParams p))
  | 0x03 => some (.lensStart r (peekB 8 p 0) (peekB 8 p 1))
  | 0x04 => some (.lensStop r (peekB 8 p 0) (peekB 8 p 1))
  | 0x05 => some (.lensParam r ((List.range (peekLe p 0 1)).map (lensItemOf p)))
  | 0x06 => some (.lensStatus r (peekB 8 p 0))
  | 0x07 => some (.lensDeadline r (peekB 8 p 0) (peekB 8 p 1) (peekB 16 p 2))
  | _ => none

/-- Table 5.6. -/
def parse09 (r : Req) (k : Nat) (p : List Byte) : Option Instr :=
  match k with
  | 0x01 => some (.pageInfo r)
  | 0x02 => some (.pageRead r (peekB 16 p 0) (peekB 32 p 4) (peekB 16 p 8))
  | 0x03 => some (.pageWrite r (peekB 16 p 0) (peekB 32 p 4) (dataAt p 12 (peekLe p 8 2)))
  | 0x04 => some (.pageCopy r (peekB 16 p 0) (peekB 16 p 2))
  | _ => none

/-- Table 13.9. -/
def parse0A (r : Req) (k : Nat) (p : List Byte) : Option Instr :=
  match k with
  | 0x01 => some (.evrecConfig r (peekB 32 p 0) (peekB 32 p 4) (peekB 32 p 8) (peekB 16 p 12))
  | 0x02 => some (.evrecRead r (peekB 8 p 0) (peekB 8 p 1) (peekB 32 p 4))
  | 0x03 => some (.evrecStatus r)
  | 0x04 => some (.evrecRate r (peekB 16 p 0) (peekB 16 p 2) (peekB 8 p 4))
  | 0x05 => some (.evrecFlush r)
  | 0x06 => some (.evrecErase r (peekB 8 p 0))
  | _ => none

/-- Table 14.6. -/
def parse0B (r : Req) (k : Nat) (p : List Byte) : Option Instr :=
  match k with
  | 0x01 => some (.wdogConfig r (peekB 16 p 0))
  | 0x02 => some (.wdogStatus r)
  | 0x03 => some (.wdogCountClear r)
  | 0x10 => some (.superviseStatus r)
  | _ => none

/-- Parameters of HOLD_CONFIG (Table 15.6). -/
def holdOf (p : List Byte) : HoldCfg where
  en := peekB 8 p 0
  after := peekB 8 p 1
  keep := peekB 8 p 2
  holdTime := peekB 16 p 4
  vMin := peekB 16 p 6
  shunt := peekB 32 p 8

/-- Parameters of BALANCE_CONFIG. -/
def balanceOf (p : List Byte) : BalanceCfg where
  cells := peekB 8 p 0
  mode := peekB 8 p 1
  charge := peekB 8 p 2
  balTimeout := peekB 8 p 3
  balTarget := peekB 16 p 4
  balWindow := peekB 16 p 6
  vOv := peekB 16 p 8

/-- Table 15.6. -/
def parse0C (r : Req) (k : Nat) (p : List Byte) : Option Instr :=
  match k with
  | 0x01 => some (.powerMode r (peekB 8 p 0) (peekB 8 p 1) (peekStamp p 4))
  | 0x02 => some (.powerStatus r)
  | 0x03 => some (.coreClock r (peekB 16 p 0))
  | 0x10 => some (.holdConfig r (holdOf p))
  | 0x11 => some (.stackStatus r)
  | 0x12 => some (.balanceConfig r (balanceOf p))
  | _ => none

/-- Table 17.6. -/
def parse0E (r : Req) (k : Nat) (p : List Byte) : Option Instr :=
  match k with
  | 0x01 => some (.dbgOpen r (peekB 8 p 0) (peekB 16 p 2))
  | 0x02 => some (.dbgClose r)
  | 0x03 => some (.dbgStatus r)
  | _ => none

/-- The command an opcode and its parameters spell; none for an opcode that Table 4.16 does not list (R119). -/
def parseOp (r : Req) (op : Nat) (p : List Byte) : Option Instr :=
  let k := op % 256
  match op / 256 with
  | 0x00 => parse00 r k p
  | 0x01 => parse01 r k p
  | 0x02 => parse02 r k p
  | 0x03 => parse03 r k p
  | 0x04 => parse04 r k p
  | 0x05 => parse05 r k p
  | 0x06 => parse06 r k p
  | 0x07 => parse07 r k p
  | 0x08 => parse08 r k p
  | 0x09 => parse09 r k p
  | 0x0A => parse0A r k p
  | 0x0B => parse0B r k p
  | 0x0C => parse0C r k p
  | 0x0D => parse0D r k p
  | 0x0E => parse0E r k p
  | _ => none

/-- The parameter bytes an opcode's tables give it, count fields taken as received (R98 check 5). -/
def paramBytes : Instr → Nat
  | .tenantOpen .. | .tenantClose .. | .fuseRead .. | .fwCommit .. | .rateSet .. | .sourceSet .. | .calGet ..
  | .ethPortStatus .. | .gptpPortRole .. | .gptpStatus .. | .avtpStreamStart .. | .avtpStreamStop .. | .avtpStreamStatus ..
  | .tpinCancel .. | .tpinCaptureRead .. | .fsgStart .. | .fsgStop .. | .fsgStatus ..
  | .plinkStatus .. | .plinkEnumerate .. | .fabricApply .. | .fabricAbort .. | .plinkDelayGet ..
  | .mcgMeasure .. | .aportStart .. | .aportStop .. | .aportRate .. | .aportStatus ..
  | .prismInputClass .. | .prismBusRange .. | .prismStatus .. | .sceneRecall .. | .sceneDelete ..
  | .lensStart .. | .lensStop .. | .lensStatus .. | .lensDeadline .. | .pageCopy .. | .evrecErase .. | .wdogConfig ..
  | .coreClock .. | .dbgOpen .. => 4
  | .grant .. | .revoke .. | .timeStep .. | .calSet .. | .fabricPrepare .. | .mcgConfig .. | .prismRoute .. | .prismBusConfig ..
  | .prismDirectGain .. | .sceneStore .. | .mirrorConfig .. | .lensLoad .. | .evrecRead .. | .evrecRate .. => 8
  | .timeAdjust .. | .cbsConfig .. | .aportMask .. | .lensChain .. | .pageRead .. | .holdConfig .. | .balanceConfig .. => 12
  | .ethPortConfig .. | .ethRxFilter .. | .reflexConfig .. | .plinkAudioMap .. | .evrecConfig .. => 16
  | .timeSet .. | .servoConfig .. | .tpinSchedule .. | .aportConfig .. | .powerMode .. => 20
  | .avtpTalkerConfig .. | .avtpListenerConfig .. | .fsgConfig .. => 24
  | .gptpConfig .. | .crfConfig .. | .tpinConfig .. | .reflexWindow .. => 28
  | .fuseProgram .. => 36
  | .fwWrite _ _ d => 8 + d.length
  | .pageWrite _ _ _ d => 12 + d.length
  | .prismXpSet _ l => 4 + 8 * l.length
  | .prismXpClear _ l => 4 + 4 * l.length
  | .lensParam _ l => 4 + 8 * l.length
  | _ => 0

/-- Checks 1 to 5 of R98 on the bytes of a transfer: the status of the first that fails, or the command. -/
def readPacket (r : Req) (b : List Byte) : Status ⊕ Instr :=
  let n := pktPlen b
  if b.length ≠ 4 * (5 + n) || (if pktRemote b then 256 else 1024) < b.length then .inl .badLength
  else if leBits 4 (crc32c (b.take (16 + 4 * n))) ≠ b.drop (16 + 4 * n) then .inl .badCrc
  else if pktVer b ≠ 1 then .inl .badVersion
  else match parseOp (pktReq r b) (pktOpcode b).toNat (pktParams b) with
    | none => .inl .badOpcode
    | some i =>
      if !(opInfo i).classes.contains (pktClass b).toNat then .inl .badOpcode
      else if 4 * n ≠ paramBytes i + (if pktClass b = 1 then 12 else 0) then .inl .badLength
      else .inr i

end Sys2Proof.Machine
end

