-- ==== Sys2Proof/Machine/Revoke.lean ====
section
/-! DEFINITION. Debug sessions opened and closed (17), and what a revoke and the close of a tenant do (04, R83, R117, R118). -/

namespace Sys2Proof.Machine

/-! Debug sessions (R436, R437). -/

/-- A debug access in flight ends with an error: no session gives it a tag. -/
def endDebugAccess (s : State) : State :=
  let s := s.sys.held.foldl (fun s h => if h.who = .debug then answer h.who true h.write 0 s else s) s
  let s := modSys (fun y => { y with held := y.held.filter fun h => h.who ≠ .debug }) s
  match s.dbg.apWait with
  | some (_, w) => modDbg (fun d => { d with apWait := none }) (apAnswer true (if w.isSome then none else some 0) s)
  | none => s

/-- A session opened, with event 0x0E01. -/
def openSession (source scope : Nat) (duration : Option Nat) (s : State) : State :=
  record 0x0E01 engineTag [(1, source), (1, scope), (4, duration.getD 0xFFFF)]
    (modDbg (fun d => { d with session := some { source, scope, left := duration, since := s.sys.aonTicks } }) s)

/-- The session closes: every halted core resumes, DBG_WDFREEZE is 1, event 0x0E02. Causes: 0 command, 1 time, 2 reset, 3 tenant
closed. A debug access in flight ends with an error. -/
def closeSession (cause : Nat) (s : State) : State :=
  if s.dbg.session.isNone then s
  else
    let s := (List.range 9).foldl (fun s k => if s.dbg.halted.getLsbD k then setHalted k false s else s) (endDebugAccess s)
    record 0x0E02 engineTag [(1, cause)]
      (modDbg (fun d => { d with session := none, haltReq := 0, wdFreeze := true }) s)

/-! Work that names a revoked unit (R83). -/

/-- The resource type whose holding an opcode's authority is. -/
def authType : Auth → Option Nat
  | .steer => some 0x08
  | .power => some 0x10
  | .fabric => some 0x11
  | _ => none

/-- A command names one of the units. -/
def namesUnit (ty : Nat) (us : List Nat) (i : Instr) : Bool :=
  (unitsOf i).any (fun u => u.ty = ty && us.contains u.unit) || authType (opInfo i).auth = some ty

/-- A staged command without the entries that name a revoked unit; none when nothing is left. -/
def dropUnits (ty : Nat) (us : List Nat) (x : Staged) : Option Staged :=
  let hit := fun (t u : Nat) => t = ty && us.contains u
  let keep := fun (n : Nat) (i : Instr) => if n = 0 then none else some { x with entries := n, cmd := i }
  match x.cmd with
  | .prismXpSet r l =>
    let l := l.filter fun y => !hit 1 y.source.toNat && !hit 3 y.bus.toNat
    keep l.length (.prismXpSet r l)
  | .prismXpClear r l =>
    let l := l.filter fun y => !hit 1 y.source.toNat && !hit 3 y.bus.toNat
    keep l.length (.prismXpClear r l)
  | .lensParam r l =>
    let l := l.filter fun y => !hit 4 y.core.toNat
    keep l.length (.lensParam r l)
  | .sceneRecall _ _ =>
    let es := (entriesIn x.copied (x.copied.length / 8)).filter fun e => !(entryUnits e).any fun u => hit u.1 u.2
    if x.entries ≤ es.length then some x else some { x with entries := es.length, copied := es.flatten }
  | i => if namesUnit ty us i then none else some x

/-- A tenant's groups without the entries that name a revoked unit; a group left empty closes, unless it commits. -/
def dropStaged (ty : Nat) (us : List Nat) (n : Tenant) : Tenant :=
  { n with groups := (n.groups.map fun g => { g with staged := g.staged.filterMap (dropUnits ty us) }).filter fun g =>
      g.staged ≠ [] || g.committing || g.armed }

/-- The final S_DENIED reply of a cancelled command; a commit of the fabric has none (R238). -/
def denyReply (timed : Bool) (s : State) (i : Instr) : State :=
  match reqOf i with
  | some r => post r.tenant timed (mkReply r (opInfo i).op .denied (nowNs s) []) s
  | none => s

/-- The S_DENIED reply of a packet that was taken and not yet executed (R117). -/
def denyTaken (s : State) (a : Arrival) : State :=
  match a with
  | .cmd i => denyReply false s i
  | .raw r b => post r.tenant false (rawReply s r b .denied) s

/-- A pending commit that the fabric made (R238). -/
def fabricCommit (s : State) (t : Nat) (i : Instr) : Bool :=
  match i with
  | .groupCommit r => s.plink.armed.any fun a => a.due.isSome && a.tenant = t && a.group = r.group.toNat
  | _ => false

/-- Cancel the pending commands of a tenant that a test picks. -/
def cancelPending (t : Nat) (pick : Instr → Bool) (s : State) : State :=
  let out := (s.tenant t).pend.filter fun p => pick p.cmd
  let s1 := modTenant t (fun n => { n with pend := n.pend.filter fun p => !pick p.cmd }) s
  out.foldl (fun s p => if fabricCommit s t p.cmd then disarm s else denyReply p.timed s p.cmd) s1

/-! Units stopped (R83), by resource type. -/

/-- An ID of Prism names a unit of a type in a list: a source or a sink by itself, a bus by its output and its insert (Table 10.2). -/
def idNames (ty kind : Nat) (us : List Nat) (id : Nat) : Bool :=
  (ty = kind && us.contains id) || (ty = 3 && isInsert id && us.contains (id - 0x700))

/-- Crosspoints and routes that name a source, sink or bus begin their fade-out; a route whose sink has no rate is freed at once
(R299). -/
def fadeOutUnits (ty : Nat) (us : List Nat) (s : State) : State :=
  let gone := fun (x : Route) => (x.source.any (idNames ty 1 us) || idNames ty 2 us x.sink) && x.dying.isNone
  let cut := s.prism.routes.filter fun x => gone x && (sinkFs s x.sink).isNone
  let s1 := modPrism (fun m => { m with
    xps := m.xps.map fun x =>
      if (idNames ty 1 us x.source || (ty = 3 && us.contains x.bus)) && x.dying.isNone then { x with dying := some 0 } else x
    routes := (m.routes.filter fun x => !(gone x && (sinkFs s x.sink).isNone)).map fun x => if gone x then { x with dying := some 0 } else x }) s
  tellFreed (cut.map fun x => x.owner) s1

/-- A revoked core: an unfinished locked sequence of it ends without its write (R143), it resumes when halted, then its slots stop and its memories clear (R330, R447). -/
def revokeCore (s : State) (n : Nat) : State :=
  let s := if s.store.lock.any fun l => l.master = 6 + n then releaseLock s else s
  clearCore n (if s.dbg.halted.getLsbD (1 + n) then setHalted (1 + n) false s else s)

/-- Units of a type stop as their chapters set out. -/
def stopUnits (ty : Nat) (us : List Nat) (s : State) : State :=
  match ty with
  | 0x01 | 0x02 | 0x03 => fadeOutUnits ty us s
  | 0x04 => us.foldl revokeCore s
  | 0x06 => us.foldl (fun s p => stopPin p s) s
  | 0x07 => us.foldl (fun s k => modFsg k stopFsg s) s
  | 0x09 => us.foldl (fun s p => modAport p requestStop s) s
  | 0x0A => us.foldl (fun s m => stopMcg m s) s
  | 0x0C => us.foldl (fun s k => modStream true k stopStream s) s
  | 0x0D => us.foldl (fun s k => modStream false k stopStream s) s
  | 0x0E => us.foldl (fun s m =>
      let x := s.path m
      modPath m (fun _ => {}) (if x.mode = 0 then s else modPin x.outPin pinOff s)) s
  | _ => s

/-- Units a tenant holds return to Root (R83): its work that names them is cancelled or discarded, a running copy of a page stops at a line
boundary first (R142), they stop. -/
def revokeUnits (t ty : Nat) (us : List Nat) (s : State) : State :=
  let s := cancelPending t (namesUnit ty us) s
  let s := if (s.tenant t).class2.head?.any fun c => namesUnit ty us c.cmd then advanceCopy t s else s
  let s := modTenant t (fun n =>
    { dropStaged ty us n with class2 := n.class2.map fun c => if namesUnit ty us c.cmd then { c with denied := true } else c }) s
  let s := stopUnits ty us s
  us.foldl (fun s u => setOwner ty u 0 s) s

/-- The entries a tenant has staged. -/
def stagedBy (s : State) (t : Nat) : Nat := stagedTotal (s.tenant t)

/-- The pending commands of a tenant that name a unit. -/
def pendingOn (s : State) (t ty : Nat) (us : List Nat) : Nat :=
  ((s.tenant t).pend.filter fun p => namesUnit ty us p.cmd).length

/-- REVOKE: the units of the range that the tenant holds return to Root; the others are left. -/
def revokeM (tenant type : Byte) (first count : Half) : Meaning where
  checks := fun s => [(.range, badUnits type first count || (s.tenant tenant.toNat).st ≠ .open)]
  effect := fun _ s =>
    let t := tenant.toNat
    let ty := type.toNat
    let us := (unitList first count).filter fun u => ownerOf s ty u = t
    let c := pendingOn s t ty us
    let d := stagedBy s t
    let s := record 0x0004 t [(1, t), (1, ty), (2, first.toNat), (2, count.toNat)] (revokeUnits t ty us s)
    (s, .ok, leSat 2 c ++ leSat 2 (d - stagedBy s t))

def execRevoke (r : Req) (tenant type : Byte) (first count : Half) (s : State) : Out :=
  fin (submit (.revoke r tenant type first count) (revokeM tenant type first count) s)

/-! TENANT_CLOSE. -/

/-- Runs of consecutive numbers of a rising list: first and length. -/
def runsOf : List Nat → List (Nat × Nat)
  | [] => []
  | x :: l => match runsOf l with
    | (y, n) :: rest => if y = x + 1 then (x, n + 1) :: rest else (x, 1) :: (y, n) :: rest
    | [] => [(x, 1)]

/-- The units of a type that a tenant holds. -/
def heldUnits (s : State) (t ty : Nat) : List Nat := (List.range (unitCount ty)).filter fun u => ownerOf s ty u = t

/-- Every grant of a tenant revoked, with one event 0x0004 for each run of consecutive units. -/
def revokeAll (t : Nat) (s : State) : State :=
  (List.range 18).foldl (fun s ty =>
    let us := heldUnits s t ty
    if us = [] then s
    else (runsOf us).foldl (fun s x => record 0x0004 t [(1, t), (1, ty), (2, x.1), (2, x.2)] s) (revokeUnits t ty us s)) s

/-- What closing takes from a tenant beside its replies: groups, grants, key, scenes, Mirror settings, a session of its scope. -/
def stripTenant (t : Nat) (s : State) : State :=
  let s := if s.plink.armed.any fun a => a.tenant = t then disarm s else s
  let s := modTenant t (fun n => { n with groups := [], scenes := [], mirror := {} }) s
  let s := zeroiseKey t (revokeAll t s)
  if s.dbg.session.any fun x => x.scope = t then closeSession 3 s else s

/-- An open tenant closes (R117): every taken, pending or running command is cancelled with S_DENIED; a running one ends at its
stopping point. Answers the counts of Table 4.11. -/
def closeTenant (t : Nat) (s : State) : State × Nat × Nat :=
  let n := s.tenant t
  let own := n.pend.filter fun p => !fabricCommit s t p.cmd
  let cancelled := n.taken.length + own.length + n.class2.length
  let discarded := stagedBy s t
  let s := advanceCopy t s
  let s := modTenant t (fun n => { n with
    st := .closing, inboxBusy := false, taken := [], cancelled, discarded
    class2 := (n.class2.take 1).map fun c => { c with denied := true } }) s
  let s := n.taken.foldl (fun s x => denyTaken s x.2) s
  let s := cancelPending t (fun _ => true) s
  let s := (n.class2.drop 1).foldl (fun s c => denyReply false s c.cmd) s
  (finishClose t (stripTenant t s), cancelled, discarded)

/-- TENANT_CLOSE of a closing tenant: its undelivered replies are discarded, and it is CLOSED at once (R118). -/
def forceClosed (t : Nat) (s : State) : State :=
  record 0x0002 t [(1, t), (2, sat16 (s.tenant t).cancelled), (2, sat16 (s.tenant t).discarded)]
    (modTenant t (fun n => { n with st := .closed, replyQ := [], waiting := [], outFull := false, class2 := [] }) s)

def tenantCloseM (tenant : Byte) : Meaning where
  checks := fun s => [(.range, (s.tenant tenant.toNat).st = .closed)]
  effect := fun _ s =>
    if (s.tenant tenant.toNat).st = .closing then (forceClosed tenant.toNat s, .ok, le 4 0)
    else
      let (s, c, d) := closeTenant tenant.toNat s
      (s, .ok, leSat 2 c ++ leSat 2 d)

def execTenantClose (r : Req) (tenant : Byte) (s : State) : Out := fin (submit (.tenantClose r tenant) (tenantCloseM tenant) s)

/-- A tenant closed at a start (R427): the effects of TENANT_CLOSE and no replies. -/
def closeQuietly (t : Nat) (s : State) : State :=
  let s := modTenant t (fun n => { n with pend := [], class2 := [], taken := [], groups := [] }) (advanceCopy t s)
  modTenant t (fun _ => {}) (stripTenant t s)

end Sys2Proof.Machine
end

