-- ==== Sys2Proof/Machine/Watchdog.lean ====
section
/-! DEFINITION. The watchdog and supervision (14). -/

namespace Sys2Proof.Machine

/-- WD_SRC, WD_WINFRAC and WD_GRACE of the AON shadow (Table 14.2). -/
def wdSrc (s : State) : Bool := shadowOf s 2 % 2 = 1
def wdFrac (s : State) : Nat := shadowOf s 3 % 8
def wdGrace (s : State) : Nat := nth [1, 2, 5, 10] (shadowOf s 4 % 4)

/-- P and W of R367. -/
def wdP (s : State) : Nat := 16000 * s.wdog.period
def wdW (s : State) : Nat := 2000 * wdFrac s * s.wdog.period

/-- c holds its value (R379). -/
def wdFrozen (s : State) : Bool := ctlHalted s && s.dbg.wdFreeze

/-- The firmware's NMI handler (R375); packets taken and not yet replied to get no reply. -/
def nmiHandler (s : State) : State :=
  let s := modWdog (fun w => { w with nmi := false }) (fadeAllPorts s)
  let s := startDump 1 false (record 0x0B01 engineTag [(1, s.wdog.cause), (4, s.wdog.cRetained)] s)
  { s with tenants := s.tenants.map fun n => { n with taken := [] } }

/-- Expiry on this edge (R374): the interrupt, FAULT_N low, pins and outputs off, the grace timer, cause and c retained. A control
core held halted takes the interrupt when it resumes. -/
def expire (cause : Nat) (s : State) : State :=
  let s := freezePins (modWdog (fun w => { w with grace := true, nmi := true, cause, cRetained := w.c }) s)
  if ctlHalted s then s else nmiHandler s

/-- A period begins: c at 0, disarmed. -/
def wdRestart (s : State) : State := modWdog (fun w => { w with c := 0, armed := false, periods := w.periods + 1 }) s

/-- The watchdog at the first L1 after a start (R368, R369). -/
def wdStart (s : State) : State := wdRestart (modWdog (fun w => { w with period := 4096, locked := false, running := true }) s)

/-- The watchdog stopped and its key state cleared (R368). -/
def wdStop (s : State) : State := modWdog (fun w => { w with c := 0, armed := false, running := false }) s

/-- A write to the watchdog lands (Table 14.3, R372). -/
def wdJudge (value : Word) (s : State) : State :=
  if !s.wdog.running || s.wdog.grace then s
  else if value = 0xA7E1 then modWdog (fun w => { w with armed := true }) s
  else if value = 0x5C0B then
    if !s.wdog.armed then expire 2 s
    else if s.wdog.c < wdW s then expire 1 s
    else wdRestart s
  else expire 3 s

/-- WDOG_SERVE: a write to Root's Eyelet, ignored while WD_SRC is 1 (R370). -/
def execWdogServe (value : Word) (s : State) : Out :=
  if wdSrc s then .next s else fin (wdJudge value s)

/-! The firmware serves while WD_SRC is 1 (R373). -/

/-- The firmware serves the watchdog: it runs, and the control core is not halted. -/
def fwServes (s : State) : Bool := wdSrc s && s.sys.running && !ctlHalted s

/-- The edges of a period from W + (P - W)/4 to W + (P - W)/2 on which KEY2 lands, and the one on which it does, which the rule leaves open
within them (log entry 139). -/
def fwFirst (s : State) : Nat := wdW s + (wdP s - wdW s) / 4
def fwLast (s : State) : Nat := wdW s + (wdP s - wdW s) / 2
def fwEdge (s : State) : Nat := fwFirst s + Config.fwServe s.wdog.periods % (fwLast s - fwFirst s + 1)

/-- The keys of the firmware on this edge: KEY1 on the edge before KEY2's (R371). -/
def fwKey (s : State) : State :=
  let c := s.wdog.c
  if !fwServes s then s
  else if s.wdog.armed then (if fwEdge s ≤ c && c ≤ fwLast s then wdJudge 0x5C0B s else s)
  else if fwEdge s ≤ c + 1 && c < fwLast s then wdJudge 0xA7E1 s else s

/-- WATCHDOG_EXPIRY: c reaches P (R367), which it does not while the firmware still serves in this period. -/
def execWatchdogExpiry (s : State) : Out :=
  if !s.wdog.running || s.wdog.grace || wdFrozen s || (fwServes s && s.wdog.c < fwLast s) then .next s
  else fin (expire 0 (modWdog (fun w => { w with c := wdP s }) s))

/-- One edge of AON_FAST for the watchdog. -/
def wdTick (s : State) : State :=
  if !s.wdog.running || s.wdog.grace || wdFrozen s then s
  else
    let s := modWdog (fun w => { w with c := w.c + 1 }) s
    if s.wdog.c < wdP s then fwKey s else expire 0 s

/-! The commands of Table 14.5. -/

/-- WDOG_CONFIG once per boot (R109, R369); a second one records event 0x0005. During the grace the engine takes no packet. -/
def wdogConfigM (r : Req) (period : Half) : Meaning where
  checks := fun s => [(.locked, s.wdog.locked), (.range, period = 0 || 4096 < period.toNat)]
  onRefuse := fun st s => if st = .locked then record 0x0005 r.tenant [(1, r.tenant), (2, 0x0B01), (4, period.toNat)] s else s
  effect := fun _ s => (wdRestart (modWdog (fun w => { w with period := period.toNat, locked := true }) s), .ok, [])

def execWdogConfig (r : Req) (period : Half) (s : State) : Out := fin (submit (.wdogConfig r period) (wdogConfigM r period) s)

/-- The window is open (R367). -/
def wdInWindow (s : State) : Bool := wdW s ≤ s.wdog.c && s.wdog.c < wdP s

def wdogStatusM : Meaning where
  effect := fun _ s =>
    let w := s.wdog
    (s, .ok, le 1 (bit (wdSrc s) + 2 * bit w.locked + 4 * bit w.armed + 8 * bit (wdInWindow s) + 16 * bit (wdFrozen s)) ++
      le 1 (wdFrac s) ++ le 1 (wdGrace s) ++ le 1 w.count ++ le 2 w.period ++ le 2 0 ++ le 4 w.c ++ le 4 (wdW s))

def execWdogStatus (r : Req) (s : State) : Out := fin (submit (.wdogStatus r) wdogStatusM s)

def wdogCountClearM : Meaning where
  effect := fun _ s =>
    (record 0x0B03 engineTag [(2, sat16 s.wdog.count)] (modWdog (fun w => { w with count := 0 }) s), .ok, le 1 s.wdog.count ++ le 3 0)

def execWdogCountClear (r : Req) (s : State) : Out := fin (submit (.wdogCountClear r) wdogCountClearM s)

/-- SYS_PLL_STATE (Table 3.4). -/
def pllBits (s : State) : Nat :=
  s.sys.pllLock.toNat + 32 * bit s.sys.refOk + 64 * bit s.sys.frozen + 128 * bit s.last.rcFallback + 256 * bit s.sys.slowRc

def superviseStatusM : Meaning where
  effect := fun _ s =>
    let bits := fun (f : LensCore → Bool) => ((List.range 8).map fun n => if f (s.core n) then 2 ^ n else 0).sum
    (s, .ok, leBits 4 (clkWord s) ++ le 2 (pllBits s) ++ le 1 (bits fun c => c.slots.any fun q => q.st = 5) ++
      le 1 (bits fun c => c.missed) ++ le 8 0)

def execSuperviseStatus (r : Req) (s : State) : Out := fin (submit (.superviseStatus r) superviseStatusM s)

end Sys2Proof.Machine
end

