-- ==== Sys2Proof/Machine/Startup.lean ====
section
/-! DEFINITION. Start-up, reset and the service floor (16): domains into reset, the steps of Table 16.2, what survives (Table
16.8), self-tests and fences. -/

namespace Sys2Proof.Machine

/-! Domains into reset. -/

/-- A tenant's Eyelet at reset values; what Table 16.8 keeps stays. -/
def resetEyelet (n : Tenant) : Tenant :=
  { st := n.st, transports := n.transports, scenes := n.scenes, mirror := n.mirror
    openC := n.openC, openB := n.openB, markDue := n.markDue, cancelled := n.cancelled, discarded := n.discarded
    pend := n.pend, groups := n.groups, class2 := n.class2, taken := n.taken }

/-- A PTP Port with its configuration and its role, which a static port keeps (R152), and without what it received. -/
def freshRole (d : PtpRole) : PtpRole := { d with best := none, lastAnn := none, logAnn := none, waiting := none }

/-- An Ethernet port with only its configuration and its roles. -/
def freshEthPort (q : EthPort) : EthPort :=
  { mode := q.mode, vid := q.vid, mac := q.mac, idleA := q.idleA, idleB := q.idleB, d0 := freshRole q.d0, d1 := freshRole q.d1 }

/-- The media units in reset: ports and streams stopped, configurations kept, Lens memories lost, Prism empty (Table 16.8). -/
def resetMedia (s : State) : State :=
  let s := stopAllPorts (loseCores (emptyPrism (settlePrism s)))
  { s with
    eth := { s.eth with
      ports := s.eth.ports.map freshEthPort, talkers := s.eth.talkers.map stopStream, listeners := s.eth.listeners.map stopStream
      dom0 := { gm := s.eth.dom0.gm, steps := s.eth.dom0.steps }, dom1 := { gm := s.eth.dom1.gm, steps := s.eth.dom1.steps } }
    plink := { epoch := s.plink.epoch }
    audio := { s.audio with mcgs := s.audio.mcgs.map fun m => { m with clockOk := false } }
    prism := { s.prism with sinkFades := [], srcFades := [], gated := false } }

/-- The balls of the NVM bank as their domain leaves them: off in reset (R469), NVM_CS_N high with NVM_CK and NVM_DQ0 to NVM_DQ7 low from start-up step 5
(R471, Table 19.7), under the boundary register during EXTEST (R435). -/
def nvmOff (s : State) : State := modSys (fun y => { y with nvmBalls := {} }) s
def nvmDrive (s : State) : State := modSys (fun y => { y with nvmBalls := { csN := .high, ck := .low, dq := .low } }) s
def nvmBoundary (s : State) : State := modSys (fun y => { y with nvmBalls := { csN := .boundary, ck := .boundary, dq := .boundary } }) s

/-- The debug block at its reset values (R437, Table 17.8). -/
def resetDbg (s : State) : State :=
  modDbg (fun d => { d with
    halted := 0, haltReq := 0, seenHalt := 0, nonce := none, chal := 0, refusals := 0, respDone := false, respAccepted := false, wdFreeze := true
    apDone := false, apError := false, apRdata := 0, sel := List.replicate 8 0 }) s

/-- Every domain except AON into reset (R73, R376, R430, R435): the session closes, the recorder and the watchdog stop, the coarse
counter carries the Last. -/
def resetDomains (s : State) : State :=
  let s := wdStop (evrecStop (closeSession 2 (endAccesses (advanceCopies (cutCommit s)))))
  let s := resetMedia (modWdog (fun w => { w with nmi := false }) s)
  let s := modSys (fun y => { y with
    rst := 0x1FFFFFFE, running := false, hostBoot := false, reqFence := 0, pllLock := 0, frozen := false, coreMhz := 200
    spiWord := [] }) s
  let s := nvmOff (resetDbg s)
  let s := modLast (fun l => { l with coarse := true }) s
  { s with tenants := s.tenants.map resetEyelet, trig := { s.trig with
      stoppedAt := s.trig.stoppedAt.orElse fun _ => some s.sys.aonTicks
      pins := s.trig.pins.map fun n => { n with active := false, falls := [], reports := [] } } }

/-! What a start keeps (R427, R429). -/

/-- A tenant's work not in effect is discarded, with event 0x0014 when there was any (R429, R407). -/
def discardWork (s : State) (t : Nat) : State :=
  let n := s.tenant t
  let own := n.pend.filter fun p => !fabricCommit s t p.cmd
  let commands := own.length + n.class2.length
  let groups := (n.groups.filter fun g => !g.committing).length
  let s := modTenant t (fun n => { n with pend := [], class2 := [], taken := [], groups := [] }) s
  let s := if n.pend = [] && n.class2 = [] && n.groups = [] then s
    else record 0x0014 t [(1, t), (2, sat16 commands), (2, sat16 groups)] s
  finishClose t s

/-- Every tenant other than Root closed, and Root's scenes and work gone, with event 0x0013 (R427). -/
def closeAll (s : State) : State :=
  let l := (List.range 15).filter fun k => (s.tenant (k + 1)).st ≠ .closed
  let s := l.foldl (fun s k => closeQuietly (k + 1) s) s
  let s := modTenant 0 (fun _ => rootAtReset) s
  if l = [] then s else record 0x0013 engineTag [(2, l.length)] s

/-- The units at their defaults (Table 16.8, cold start; a Store lost has no restore images). -/
def unitDefaults (s : State) : State := { s with eth := {}, trig := {}, plink := {}, audio := { grid := s.audio.grid }, prism := {}, lens := List.replicate 8 {} }

/-! The boot ROM (R417 to R421). -/

/-- The first check of R418 an image fails; 0 when it passes all. -/
def bootFault (s : State) (x : FwSlot) : Nat :=
  if x.failing ≠ 0 then x.failing else if x.rollback < rollbackCount (shadowOf s 8) then 5 else 0

/-- Try one slot: event 0x0012 when it is rejected. -/
def trySlot (s : State) (b : Bool) : Option FwSlot × State :=
  match (if b then s.sys.imageB else s.sys.imageA) with
  | none => (none, record 0x0012 engineTag [(1, bit b), (1, 6)] s)
  | some x =>
    let k := bootFault s x
    if k = 0 then (some x, s) else (none, record 0x0012 engineTag [(1, bit b), (1, k)] s)

/-- Slot B is tried first: it is not empty, and slot A is empty or older (R419). -/
def slotBFirst (y : Sys) : Bool :=
  match y.imageA, y.imageB with
  | _, none => false
  | none, some _ => true
  | some a, some b => newer b.seq a.seq

/-- The image that runs. -/
def runImage (x : FwSlot) (slotB fallback : Bool) (s : State) : State :=
  modSys (fun y => { y with slotB, fallback, fwVersion := x.version, fwRollback := x.rollback, bootSeq := x.seq, hostBoot := false }) s

/-- Flash boot: whether an image runs, and the state (R419). -/
def flashBoot (s : State) : Bool × State :=
  let b := slotBFirst s.sys
  match trySlot s b with
  | (some x, s) => (true, runImage x b false s)
  | (none, s) => match trySlot s !b with
    | (some x, s) => (true, runImage x (!b) true s)
    | (none, s) => (false, s)

/-- The boot ROM waits for an image from a host, unless BOOT_LOCK forbids it (R414, R421). -/
def waitHost (s : State) : State := if shadowOf s 7 % 2 = 1 then s else modSys (fun y => { y with hostBoot := true }) s

/-- Step 5: whether firmware starts now. -/
def bootStep (s : State) : Bool × State :=
  let src := s.sys.bootsel.toNat / 2
  if 2 ≤ src then (false, waitHost s)
  else match flashBoot s with
    | (true, s) => (true, s)
    | (false, s) => (false, if src = 1 then waitHost s else s)

/-! Step 6: L1. -/

/-- SYS_MATRIX.CORE_MAX in MHz (R122). -/
def coreMax (s : State) : Nat := if shadowOf s 1 % 2 = 1 then 800 else 500

/-- The CORE frequency a request gives (R78, R122). -/
def coreFor (s : State) (req : Nat) : Nat :=
  let m := min req (coreMax s)
  if s.last.rcFallback && m = 800 then 700 else m

/-- A cell's reading in mV, its fraction dropped. -/
def cellMv (s : State) (i : Nat) : Nat := nth s.pwr.volts i / 10

/-- Event 0x0C08 for a cell, at most once an hour (R401). -/
def tellLowCell (s : State) (i : Nat) : State :=
  let due := match nth s.pwr.lowSeen i with
    | some h => decide (h + 3600 ≤ s.evrec.hours)
    | none => true
  if due then
    record 0x0C08 engineTag [(1, i), (4, cellMv s i)]
      (modPwr (fun p => { p with lowSeen := updAt p.lowSeen i fun _ => some s.evrec.hours }) s)
  else s

/-- Event 0x0C08 for the cells found low while it could not be recorded (15, worked case). -/
def tellLow (s : State) : State :=
  let s := (List.range 12).foldl (fun s i => if s.pwr.lowDue.getLsbD i then tellLowCell s i else s) s
  modPwr (fun p => { p with lowDue := 0 }) s

/-- How long TIME has been in reset, in us (Table 7.10). -/
def timeDown (s : State) : Nat := match s.trig.stoppedAt with | some t => (s.sys.aonTicks - t) / 16 | none => 0

/-- The firmware starts: domains with a clock leave reset (R73), the recorder enters service, pins, gPTP roles and Prism are restored, the watchdog starts, an
unlocked debug port opens a session (R368, R412, R422, R436). -/
def reachL1 (s : State) : State :=
  let first := s.sys.fresh
  let s := modSys (fun y => { y with
    running := true, hostBoot := false, fresh := false, rst := y.lost ||| (if y.perstN then 0 else BitVec.ofNat 29 (2 ^ 24))
    clkOk := (y.clkOk ||| 0x03FFFFFF) &&& ~~~y.lost
    coreMhz := coreFor s (if s.pwr.mode = .holdover then 200 else y.coreReq) }) s
  let s := if !domainUp s 3 then s
    else if first then modLast (fun l => { l with coarse := false }) s else loadCounter s
  let s := evrecStart s
  let s := if first || !s.sys.retained || !domainUp s 3 then s else restorePins (timeDown s) s
  let s := if domainUp s 3 then bothRoles s else s
  let s := modPrism (fun m => { m with gated := s.pwr.mode = .quiet }) s
  let s := wdStart s
  let s := if s.wdog.report then
      record 0x0B02 engineTag [(1, s.wdog.cause), (4, s.wdog.cRetained), (2, s.wdog.count)] (modWdog (fun w => { w with report := false }) s)
    else s
  let s := tellLow s
  if shadowOf s 5 % 2 = 0 then openSession 1 0x10 none s else s

/-! The sequence (R409). -/

/-- Step 2: fuse load, straps, and what stands in the firmware area. -/
def stepTwo (env : StartEnv) (s : State) : State :=
  modSys (fun y => { y with
    shadow := y.fuses, bootsel := env.straps, imageA := env.progA.getD y.imageA, imageB := env.progB.getD y.imageB }) s

/-- The nominal frequency of Table 18.7 whose ratio to a measured one lies nearest to 1 (R458): of two neighbours the upper one when the square of
the measured frequency exceeds their product. -/
def nominalRefclk (hz : Nat) : Nat :=
  ([19200000, 20000000, 25000000, 40000000] : List Nat).foldl (fun low high => if low * high < hz * hz then high else low) 10000000

/-- Step 3: the PLLs lock to REFCLK, identified by its frequency, or to the RC (R34, R411, R458). -/
def stepThree (env : StartEnv) (s : State) : State :=
  let s := modSys (fun y => { y with
    pllLock := 0x0F, frozen := false, refOk := env.refclk.isSome, refclkHz := (env.refclk.map nominalRefclk).getD y.refclkHz }) s
  if env.refclk.isSome then modLast (fun l => { l with rcFallback := false }) s else enterRcFallback s

/-- CHG_EN follows the conditions of R399. -/
def chgUpdate (s : State) : State :=
  modPwr (fun p => { p with chgEn := p.charge && p.mainOk && !isFenced s fenceShank && !p.ovLatch && p.mode ≠ .off }) s

/-- A unit is fenced by its self-test, with event 0x0011; its own domains stay in reset (R73, R422). -/
def fenceUnit (b : Nat) (cause : Nat) (s : State) : State :=
  let doms := match b with
    | 2 => [4, 5, 6, 7]
    | 3 => [8, 9, 10, 11, 12, 13, 14, 15]
    | 4 => [16, 17, 18, 19]
    | 5 => [20, 21, 22, 23]
    | 18 => [24]
    | 19 => [27]
    | _ => []
  record 0x0011 engineTag [(1, b), (1, cause)]
    (modSys (fun y => { y with fenced := setBit y.fenced b true, rst := doms.foldl (fun r d => setBit r d true) y.rst }) s)

/-- Step 4: the Store test and the keys, and what survives (R136, R427, R429, Table 16.8). -/
def stepFour (env : StartEnv) (s : State) : State :=
  let lost := s.store.lost
  let defaults := lost || s.sys.fresh
  let s := modSys (fun y => { y with retained := !lost, tested := setBit y.tested 20 true }) s
  let s := if env.entropyOk then s else fenceUnit 20 0 s
  let s := if defaults then closeAll s else (List.range 16).foldl discardWork s
  let s := if lost then
      evrecStoreLost (modLast (fun l => { l with cal := {}, calOld := [] }) (storePowerUp env.entropyOk s))
    else s
  if defaults then unitDefaults s else s

/-- A start of a kind from its first step to L1 or to where it stays at L0 (Table 16.2, R416, R423). -/
def start (kind : StartKind) (env : StartEnv) (s0 : State) : State :=
  let s := modSys (fun y => { y with kind, begun := true, tested := 0, fenced := 0, running := false, hostBoot := false }) s0
  let s := modDbg (fun d => { d with extestStart := false }) s
  let s := if kind = .wake then s else stepTwo env s
  if kind ≠ .wake && !env.fuseCrcOk then s
  else
    let s := stepThree env s
    if !env.floorOk then s
    else
      match bootStep (nvmDrive (stepFour env s)) with
      | (true, s) => reachL1 s
      | (false, s) => s

/-- The kind of a start by RESET_N: cold for the first one since AON powered up, else warm, also when RESET_N fell during the first (R430). -/
def startKind (s : State) : StartKind := if s.sys.begun then .warm else .cold

/-! Self-tests (R422, R424). -/

/-- A unit's self-test ends at step 7: it is fenced, or the level may rise; event 0x0010 when the last one ends. -/
def execSelfTestDone (unit : Fin 21) (pass : Bool) (cause : Byte) (s : State) : Out :=
  if !s.sys.running || s.sys.tested.getLsbD unit.val then .next s
  else
    let s := modSys (fun y => { y with
      tested := setBit y.tested unit.val true, pllLock := if unit.val = 18 then setBit y.pllLock 4 pass else y.pllLock }) s
    let s := if pass then s
      else
        let s := fenceUnit unit.val cause.toNat s
        if unit.val = 16 then evrecFenced s else s
    let s := if unit.val = 17 then chgUpdate s else s
    let k := match s.sys.kind with
      | .cold => 0
      | .warm => 1
      | .watchdog => 2
      | .wake => 3
    fin (if s.sys.tested = 0x1FFFFF then record 0x0010 engineTag [(1, k), (1, levelOf s), (4, s.sys.fenced.toNat)] s else s)

/-- RESET_N_ASSERT: every domain except AON into reset (R430). -/
def execResetNAssert (s : State) : Out :=
  if s.pwr.mode = .off || !s.sys.resetN then .next s
  else fin (resetDomains (modSys (fun y => { y with resetN := false }) s))

/-- EXTEST: as a fall of RESET_N (R435). -/
def execExtest (s : State) : Out :=
  if s.pwr.mode = .off || s.dbg.extest then .next s
  else
    let s := modDbg (fun d => { d with extest := true }) (tapLoad 0 s)
    fin (nvmBoundary (resetDomains s))

end Sys2Proof.Machine
end

