-- ==== Sys2Proof/Machine/Power.lean ====
section
/-! DEFINITION. Power modes, holdover and the cell stack (15), the starts that other chapters begin, loss of power, and
FW_COMMIT (16). -/

namespace Sys2Proof.Machine

/-! The stack (R390, R397, R399, R400). -/

/-- The stack voltage in mV: the sum of the reported cells, its fraction dropped (R397). -/
def stackMv (s : State) : Nat := (s.pwr.volts.take s.pwr.cells).sum / 10

/-- The Shank measures: cells are set, it is not fenced, and the engine is powered (R404). -/
def shankRuns (s : State) : Bool := s.pwr.cells ≠ 0 && !isFenced s fenceShank && s.pwr.mode ≠ .off

/-- Holdover is armed (R390). -/
def holdArmed (s : State) : Bool :=
  s.pwr.en && s.pwr.cells ≠ 0 && !isFenced s fenceShank && s.pwr.measured && s.pwr.vMin ≤ stackMv s

/-- Event 0x0C04. -/
def tellMode (who old new trigger : Nat) (s : State) : State := record 0x0C04 who [(1, old), (1, new), (1, trigger)] s

/-- Every balance switch open, and none counted as closed before. -/
def openSwitches (p : Pwr) : Pwr := { p with sw := 0, prevSw := 0 }

/-- CORE at the frequency asked for (R78, R406). -/
def setCore (mhz : Nat) (s : State) : State := modSys (fun y => { y with coreMhz := mhz }) s

/-! Units stopped and restarted by a lost clock or by HOLDOVER (Table 3.6, R392, R396). -/

/-- Domains put into reset; bursts of masters and targets there end (R143, R144). -/
def holdDomains (l : List Nat) (s : State) : State :=
  settleBursts (modSys (fun y => { y with rst := l.foldl (fun r d => setBit r d true) y.rst }) s)

/-- A domain that TIME clocks or serves (Table 1.3, Table 3.6): MCLK, Ethernet and Prieth, and the ports in master role. -/
def needsTime (s : State) (d : Nat) : Bool :=
  (4 ≤ d && d < 8) || (16 ≤ d && d < 24) ||
    (8 ≤ d && d < 16 && (match (s.aport (d - 8)).cfg with | some c => isMaster c | none => false))

/-- Domains out of reset, but for those without a clock (R73), those that need TIME while it is in reset, of fenced units and a PCIe function held by its reset ball; with PCIe back, the replies that
wait for a reply ring go on (R93). -/
def freeDomains (l : List Nat) (s : State) : State :=
  let time := s.sys.clkOk.getLsbD 3 && (l.contains 3 || !s.sys.rst.getLsbD 3)
  let stay := fun d =>
    !s.sys.clkOk.getLsbD d || (needsTime s d && !time) || (d = 24 && (isFenced s 18 || !s.sys.perstN)) || (16 ≤ d && d < 20 && isFenced s fenceEth) ||
      (20 ≤ d && d < 24 && isFenced s fencePlink) || (8 ≤ d && d < 16 && isFenced s fenceAport) || (4 ≤ d && d < 8 && isFenced s fenceMcg)
  let s := modSys (fun y => { y with rst := (l.filter fun d => !stay d).foldl (fun r d => setBit r d false) y.rst }) s
  if l.contains 24 then (List.range 16).foldl (fun s t => deliver t s) s else s

/-- The port a stream uses. -/
def streamPort (q : Stream) : Option Nat :=
  match q.cfg with
  | some (.aaf c) => some c.port.toNat
  | some (.crf c) => some c.port.toNat
  | none => none

/-- Ethernet port p held in reset: its link goes down with event 0x0201 of a cause the manual does not code (R171, log entry 3), its streams stop
(Table 3.6), and BMCA runs without it. -/
def ethLost (p : Nat) (s : State) : State :=
  let stop := fun (q : Stream) => if streamPort q = some p then stopStream q else q
  let s := if (s.ethPort p).link then
      let (v, s) := drawFree s
      setLink p false (v.toNat % 256) s
    else s
  let s := holdDomains [16 + p] (modEthPort p freshEthPort
    { s with eth := { s.eth with talkers := s.eth.talkers.map stop, listeners := s.eth.listeners.map stop } })
  if s.eth.gptp.mode = 2 then bothRoles s else s

/-- Prieth port p loses its clock: handled as link loss. -/
def plLost (p : Nat) (s : State) : State := holdDomains [20 + p] (modPl p (fun q => { q with tailDue := false }) (portDown p 3 s))

/-! HOLDOVER (R392, R395, R396). -/

/-- Step 3 of R392: ports, Prism and Lens cores stop, and every unit not named in KEEP; CORE runs at 200 MHz. -/
def holdStopUnits (s : State) : State :=
  let s := modPwr (fun p => { p with entering := .none }) (stopAllPorts (loseCores (emptyPrism (settlePrism s))))
  let s := modPrism (fun m => { m with sinkFades := [], srcFades := [] }) s
  let s := if s.pwr.keep.getLsbD 0 then s else freezePins s
  let s := if s.pwr.keep.getLsbD 1 then s else (List.range 4).foldl (fun s p => ethLost p s) s
  let s := if s.pwr.keep.getLsbD 2 then s else (List.range 4).foldl (fun s p => plLost p s) s
  setCore 200 (holdDomains [24] s)

/-- Step 2 of R392: event 0x0C01, the fades, the dump unless one is incomplete; step 3 at once when nothing fades, as in QUIET, where every sink
reads zero already. -/
def holdBegin (s : State) : State :=
  let s := record 0x0C01 engineTag [(4, stackMv s)] (modPwr (fun p => { p with entering := .holdoverFades }) s)
  let s := if s.prism.gated then s else fadeSinks s
  let s := if s.evrec.dump.isSome then s else startDump 2 false s
  if sinksFaded s then holdStopUnits s else s

/-- Holdover ends at V_MIN or with a silent Shank (R395, R408). -/
def holdFail (cause trigger : Nat) (s : State) : State :=
  if s.pwr.ending then s
  else
    tellMode engineTag 2 4 trigger (record 0x0C03 engineTag [(1, cause), (4, stackMv s)]
      (modPwr (fun p => { p with ending := true, entering := if p.entering = .sleep then .none else p.entering }) s))

/-- HOLD_TIME has ended and no dump runs: what AFTER says (R394). -/
def holdTimeAct (s : State) : State :=
  if s.pwr.mode ≠ .holdover || !s.pwr.timeEnded || s.pwr.ending || s.pwr.entering = .sleep || s.evrec.dump.isSome || !s.sys.running then s
  else
    let s := record 0x0C03 engineTag [(1, 0), (4, stackMv s)] s
    if s.pwr.after = 0 then tellMode engineTag 2 3 3 (modPwr (fun p => { p with entering := .sleep }) s)
    else tellMode engineTag 2 4 3 (modPwr (fun p => { p with ending := true }) s)

/-- The engine is OFF: nothing runs, what the flash had begun is cut (R364, R385), and the Store loses what it holds (R139). -/
def modeOff (s : State) : State :=
  modStore (fun m => { m with lost := true }) <| modPwr (fun p => { openSwitches p with
    mode := .off, entering := .none, holdEn := false, chgEn := false, pwrSleep := false, ending := false, timeEnded := false
    released := false, wakeAt := none, modeEvent := none }) (resetDomains (flashCut s))

/-! Starts (Table 16.2, R392, R386). -/

/-- The event of a wake, once channel C is in service, or at L1 when it is not in use (R386). -/
def tellWake (s : State) : State :=
  match s.pwr.modeEvent with
  | some (o, n, t) =>
    if s.sys.running && s.evrec.cState ≠ 1 then tellMode engineTag o n t (modPwr (fun p => { p with modeEvent := none }) s) else s
  | none => s

/-- What HOLDOVER does when the engine reaches L1: from step 2, or after a wake steps 3 and 4 at once (R392, R394, R431). -/
def holdAtL1 (s : State) : State :=
  if s.pwr.mode ≠ .holdover || !s.sys.running then s
  else holdTimeAct (if s.sys.kind = .wake then holdStopUnits s else holdBegin s)

/-- A start of the engine and what its power mode does at L1. -/
def boot (kind : StartKind) (env : StartEnv) (s : State) : State := tellWake (holdAtL1 (start kind env s))

/-- AON_FAST runs, and no clock of CTL or NVM is declared lost (R73, Table 3.6). -/
def clocksFor (s : State) : Bool := s.sys.clkOk.getLsbD 0 && !s.sys.lost.getLsbD 1 && !s.sys.lost.getLsbD 25

/-- Nothing holds the domains in reset. -/
def canStart (s : State) : Bool :=
  s.sys.resetN && !s.dbg.extest && clocksFor s && s.pwr.mode ≠ .off && s.pwr.mode ≠ .sleep

/-- RESET_N_RELEASE: the start sequence from step 2 (R409, R430). -/
def execResetNRelease (env : StartEnv) (s : State) : Out :=
  if s.pwr.mode = .off || s.sys.resetN then .next s
  else
    let s := modSys (fun y => { y with resetN := true }) s
    fin (if canStart s then boot (startKind s) env s else s)

/-- GRACE_END: every domain except AON resets, the count rises, and a watchdog start follows (R376, R377). -/
def execGraceEnd (env : StartEnv) (s : State) : Out :=
  if !s.wdog.grace then .next s
  else
    let s := modWdog (fun w => { w with grace := false, count := min 255 (w.count + 1), report := true }) s
    let s := resetDomains s
    fin (if canStart s then boot .watchdog env s else s)

/-- EXTEST_EXIT: another instruction replaces EXTEST, and a warm start follows (R435). EXTEST loaded again replaces nothing. -/
def execExtestExit (load : TapLoad) (s : State) : Out :=
  if !s.dbg.extest || load.ir = 0 then .next s
  else
    let s := nvmOff (modDbg (fun d => { d with extest := false }) (tapLoad load.ir s))
    fin (if canStart s then modDbg (fun d => { d with extestStart := true }) (boot .warm load.env s) else s)

/-! Power fail and return. -/

/-- The entry into HOLDOVER: steps 1 and 2 of R392; step 2 waits for L1 while the engine starts (R431). -/
def enterHoldover (old : Nat) (s : State) : State :=
  let s := tellMode engineTag old 2 1 (modPwr (fun p => { openSwitches p with mode := .holdover, entering := .none }) s)
  if s.sys.running && !s.wdog.grace then holdBegin s else s

/-- POWER_FAIL_TRIP: the comparator trips (R389 to R392). Not armed, the rails fall and OFF follows with the loss of AON power. -/
def execPowerFailTrip (s : State) : Out :=
  if s.pwr.mode = .off || s.pwr.tripped then .next s
  else
    let on := holdArmed s
    let old := s.pwr.mode
    let s := chgUpdate (modPwr (fun p => { p with
      mainOk := false, tripped := true, released := false, tripTicks := s.sys.aonTicks, timeEnded := false, holdEn := p.holdEn || on }) s)
    if old = .run || old = .quiet then
      fin (if on then enterHoldover old.code s else tellMode engineTag old.code 4 1 s)
    else fin s

/-- MAIN_POWER_RETURN: main power counts as returned (R389, R396). -/
def execMainPowerReturn (s : State) : Out :=
  if s.pwr.mode = .off || s.pwr.mainOk then .next s
  else fin (chgUpdate (modPwr (fun p => { p with
    mainOk := true, tripped := p.tripped && p.mode = .sleep, released := p.mode = .holdover }) s))

/-- HOLD_EN_RELEASE: 1 ms after the return HOLD_EN falls, and HOLDOVER ends (R396). -/
def execHoldEnRelease (s : State) : Out :=
  if !s.pwr.mainOk || !s.pwr.holdEn then .next s
  else if s.pwr.mode ≠ .holdover then fin (modPwr (fun p => { p with holdEn := false }) s)
  else if !s.pwr.released then .next s
  else
    let ms := (s.sys.aonTicks - s.pwr.tripTicks) / 16000
    let stopped := s.pwr.entering ≠ .holdoverFades
    let s := record 0x0C02 engineTag [(4, ms)] s
    let s := tellMode engineTag 2 0 2 (modPwr (fun p => { p with
      mode := .run, entering := .none, holdEn := false, released := false, timeEnded := false, ending := false }) s)
    if !s.sys.running then fin s
    else
      let s := if stopped then s else stopAllPorts (loseCores s)
      let s := resumePrism (emptyPrism (settlePrism s))
      let s := if stopped && !s.pwr.keep.getLsbD 0 then resumePins s else s
      fin (setCore (coreFor s s.sys.coreReq) (freeDomains [16, 17, 18, 19, 20, 21, 22, 23, 24] s))

/-- HOLD_TIME_END (R394). -/
def execHoldTimeEnd (s : State) : Out :=
  if s.pwr.holdTime = 0 || s.pwr.mode ≠ .holdover || s.pwr.timeEnded then .next s
  else fin (holdTimeAct (modPwr (fun p => { p with timeEnded := true }) s))

/-- HOLDOVER_END: HOLD_EN falls when channel C is written or 12 ms have passed (R395). -/
def execHoldoverEnd (s : State) : Out := if s.pwr.mode = .holdover && s.pwr.ending then fin (modeOff s) else .next s

/-- SHANK_SILENT: no stack measurement for 100 ms in HOLDOVER (R408). -/
def execShankSilent (s : State) : Out := if s.pwr.mode = .holdover then fin (holdFail 2 8 s) else .next s

/-! SLEEP (R388, R391, R407). -/

/-- SLEEP_ENTRY: fades, channel C and dumps have ended (R407). A HOLD_TIME that has ended stays so over SLEEP: no wake restarts it (R394). -/
def execSleepEntry (s : State) : Out :=
  if s.pwr.entering ≠ .sleep || s.evrec.queue ≠ [] || s.evrec.dump.isSome || !sinksFaded s then .next s
  else fin (modPwr (fun p => { p with mode := .sleep, entering := .none, pwrSleep := true }) (resetDomains s))

/-- WAKE: a wake source ends SLEEP and PWR_SLEEP falls (R384, R388). MAIN_SENSE wakes when main power has returned after a trip. -/
def execWake (source : WakeSource) (s : State) : Out :=
  let mine := match source with
    | .wakeAt => s.pwr.wakeAt.any fun t => decide (t ≤ s.now)
    | .mainSense => s.pwr.tripped
    | .resetN => true
  if s.pwr.mode ≠ .sleep || !s.pwr.pwrSleep || !mine then .next s
  else
    let trigger := match source with
      | .wakeAt => 5
      | .mainSense => 6
      | .resetN => 7
    fin (chgUpdate (modPwr (fun p => { p with
      pwrSleep := false, wakeAt := none, modeEvent := some (3, 0, trigger), mainOk := p.mainOk || source = .mainSense
      tripped := p.tripped && source ≠ .mainSense }) s))

/-- WAKE_RELEASE: 5 ms later the start runs from the PLL lock step, into RUN with main power, else into HOLDOVER (Table 15.4). -/
def execWakeRelease (env : StartEnv) (s : State) : Out :=
  if s.pwr.mode ≠ .sleep || s.pwr.pwrSleep || !s.sys.resetN || s.dbg.extest || !clocksFor s then .next s
  else
    let new := if s.pwr.mainOk then PowerMode.run else .holdover
    let s := modPwr (fun p => { p with mode := new, modeEvent := p.modeEvent.map fun x => (3, new.code, x.2.2) }) s
    fin (boot .wake env s)

/-! The Shank's events (R397 to R403). -/

/-- The reading of a cell in 0.1 mV: the factory-corrected value with the user offset of item 0x05 in uV (R397, Table 15.8). -/
def cellReading (s : State) (i : Nat) (x : Half) : Nat :=
  (clampInt 0 0x7FFF ((x.toNat : Int) + roundAway (userTerm s.last.cal 5 i 0) 100)).toNat

/-- A cell below the window: event 0x0C08 at most once an hour, or when the engine next runs at L1 (R401). -/
def lowCell (s : State) (i : Nat) : State :=
  if !s.pwr.low.getLsbD i then s
  else if !s.sys.running then modPwr (fun p => { p with lowDue := setBit p.lowDue i true }) s
  else tellLowCell s i

/-- The bits of the cells that a test picks. -/
def cellBits (n : Nat) (f : Nat → Bool) : BitVec 12 := BitVec.ofNat 12 (((List.range n).map fun i => if f i then 2 ^ i else 0).sum)

/-- The current of a shunt voltage in nV, in mA; one that 16 bits do not hold is open. -/
def shuntCurrent (nv : BitVec 32) (s : State) : Int × State :=
  if s.pwr.shunt = 0 then (0, s)
  else
    let ma := roundAway nv.toInt s.pwr.shunt
    if -(2 ^ 15) ≤ ma && ma < 2 ^ 15 then (ma, s)
    else
      let (v, s) := drawFree s
      ((v.setWidth 16).toInt, s)

/-- The stack lies below 4.0 V, where the Shank takes no measurement (R461), by the factory-corrected cells in 0.1 mV. -/
def belowShank (s : State) (cells : List Half) : Bool :=
  ((List.range s.pwr.cells).map fun i => (nth cells i).toNat).sum < 40000

/-- CELL_MEASUREMENT (R395, R397, R398, R401). Below 4.0 V none is taken: holdover cannot arm, and the overvoltage path does not hold CHG_EN low
(R461). -/
def execCellMeasurement (cells : List Half) (shuntNv : BitVec 32) (s : State) : Out :=
  if !shankRuns s then .next s
  else if belowShank s cells then fin (chgUpdate (modPwr (fun p => { p with measured := false, ovLatch := false }) s))
  else
    let p := s.pwr
    let v := (List.range 12).map fun i => if i < p.cells then cellReading s i (nth cells i) else 0
    let (ma, s) := shuntCurrent shuntNv s
    let s := modPwr (fun q => { q with
      volts := v, current := ma, measured := true
      low := cellBits p.cells fun i => nth v i < 10 * (p.balTarget - p.balWindow)
      high := cellBits p.cells fun i => 10 * p.vOv < nth v i }) s
    let s := (List.range p.cells).foldl lowCell s
    if p.vMin ≤ stackMv s then fin s
    else if p.mode = .holdover then fin (holdFail 1 4 s)
    else if p.mode = .sleep && p.holdEn then fin (modeOff (tellMode engineTag 3 4 4 s))
    else fin s

/-- Balancing runs (R401, R403). -/
def balances (s : State) : Bool :=
  shankRuns s && s.pwr.balMode && s.pwr.hbOk && s.pwr.measured && s.pwr.mode ≠ .holdover

/-- BALANCE_TICK: the switches of this tick's parity by R400; every other switch is open. -/
def execBalanceTick (s : State) : Out :=
  let p := s.pwr
  let mine := fun i => decide (i % 2 = bit p.tickOdd)
  let closed := fun i => 10 * (p.balTarget + p.balWindow) < nth p.volts i || (p.prevSw.getLsbD i && decide (10 * p.balTarget < nth p.volts i))
  let new := cellBits p.cells fun i => mine i && closed i
  let kept := cellBits p.cells fun i => !mine i && p.prevSw.getLsbD i
  fin (modPwr (fun p =>
    let p := { p with tickOdd := !p.tickOdd }
    if balances s then { p with sw := new, prevSw := new ||| kept } else openSwitches p) s)

/-- HEARTBEAT (R403); the Shank then reports a stop for want of one. -/
def execHeartbeat (s : State) : Out :=
  if s.pwr.mode = .off then .next s
  else
    let lost := s.pwr.hbLost
    let s := modPwr (fun p => { p with hbOk := true, hbLost := false }) s
    fin (if lost then record 0x0C07 engineTag [] s else s)

/-- HEARTBEAT_TIMEOUT: none for BAL_TIMEOUT (R403). -/
def execHeartbeatTimeout (s : State) : Out :=
  if !s.pwr.hbOk || isFenced s fenceShank then .next s
  else fin (modPwr (fun p => { openSwitches p with hbOk := false, hbLost := true }) s)

/-- CELL_OVERVOLTAGE: the Shank's comparator pulls CHG_EN low (R399). -/
def execCellOvervoltage (cell : Fin 12) (mv : Half) (s : State) : Out :=
  if s.pwr.cells ≤ cell.val || mv.toNat ≤ s.pwr.vOv then .next s
  else
    let s := chgUpdate (modPwr (fun p => { p with ovLatch := true }) s)
    fin (if s.pwr.mode = .off then s else record 0x0C05 engineTag [(1, cell.val), (4, mv.toNat)] s)

/-- CHG_EN_RECOVERY: every cell stayed below V_OV − 50 mV for 1 s (R399). -/
def execChgEnRecovery (s : State) : Out := fin (chgUpdate (modPwr (fun p => { p with ovLatch := false }) s))

/-- THETA_HIGH and THETA_LOW, in 0.01 degC (R450). -/
def execThetaHigh (theta : Half) (s : State) : Out :=
  if s.last.hot || decide (theta.toInt ≤ 12000) then .next s
  else fin (record 0x0C0A engineTag [(4, theta.toInt.toNat)] (modLast (fun l => { l with hot := true }) s))

def execThetaLow (theta : Half) (s : State) : Out :=
  if !s.last.hot || decide (11500 ≤ theta.toInt) then .next s
  else fin (record 0x0C0B engineTag [(4, (theta.toInt % 2 ^ 32).toNat)] (modLast (fun l => { l with hot := false }) s))

/-! Loss of power. -/

/-- Loss of AON power (R404, R451, Table 16.8): AON's state and all that runs from it is gone; fuses, flash and images stay, and
what the Store holds stays with it, until a start finds the loss. -/
def aonLost (s : State) : State :=
  let s := resetDomains (cutCommit (flashCut s))
  let s := modEvrec (fun e => { e with
    buckets := e.buckets.map fun x => (x.1, bucketNow s x.1, 0), global := (globalNow s, 0) }) (evrecAonLost s)
  let y := State.reset
  { y with
    pending := s.pending, free := s.free, out := s.out, tenants := s.tenants, owners := s.owners, store := s.store, evrec := s.evrec
    last := { y.last with cal := s.last.cal }
    sys := { y.sys with fuses := s.sys.fuses, shadow := s.sys.shadow, imageA := s.sys.imageA, imageB := s.sys.imageB, perstN := s.sys.perstN, clkOk := 0 }
    dbg := { y.dbg with extest := s.dbg.extest, tapIr := s.dbg.tapIr }
    pwr := { y.pwr with mode := .off } }

/-- AON_POWER_LOSS (R451). -/
def execAonPowerLoss (s : State) : Out := fin (aonLost s)

/-- STORE_RETENTION_TRIP: counts as a loss of the Store, which the next start acts on (R452). -/
def execStoreRetentionTrip (s : State) : Out := fin (modStore (fun m => { m with lost := true }) s)

/-- POWER_ON_RESET: AON is released after a loss of its power (R409). -/
def execPowerOnReset (s : State) : Out :=
  if s.pwr.mode ≠ .off then .next s
  else fin (modPwr (fun p => { p with mode := .run }) (modSys (fun y => { y with clkOk := 1 }) (aonLost s)))

/-- PCIE_PERST: PCIE_PERST_N low holds the PCIE domain in reset (R459). -/
def execPciePerst (low : Bool) (s : State) : Out :=
  let s := modSys (fun y => { y with perstN := !low }) s
  fin (if low then holdDomains [24] s
    else if s.sys.running && s.pwr.mode ≠ .holdover then freeDomains [24] s else s)

/-! Fades, scans and dumps that a change of mode waits for. -/

/-- What waits for every sink's fade-out: QUIET's gating, HOLDOVER's step 3 (R387, R392). -/
def fadesOver (s : State) : State :=
  if !sinksFaded s then s
  else match s.pwr.entering with
    | .quiet => modPrism (fun m => { m with gated := true }) (modPwr (fun p => { p with entering := .none }) s)
    | .holdoverFades => holdStopUnits s
    | _ => s

/-- FADE_COMPLETE: the work that waits for a fade-out goes on (R259). -/
def execFadeComplete (port : Fin 8) (tx : Bool) (s : State) : Out := fin (fadesOver (portFadeDone port.val tx s))

/-- CHANNEL_C_SCAN_DONE: channel C enters service (R360); the event of a wake follows (R386). -/
def execChannelCScanDone (s : State) : Out := fin (tellWake (scanDone s))

/-- DUMP_PAGE_DONE: a dump goes on or ends (R357); HOLD_TIME may have waited for it (R394). -/
def execDumpPageDone (ok : Bool) (s : State) : Out := fin (holdTimeAct (dumpPage ok s))

/-! The commands of Table 15.5. -/

/-- A mode change runs, or HOLDOVER (Note 1 of Table 15.5). -/
def powerBusy (s : State) : Bool := s.pwr.mode = .holdover || s.pwr.entering ≠ .none

/-- What a class 2 command leaves when it is stopped at a stopping point: part of a PAGE_COPY, a slot that FW_COMMIT left empty
(R142, R420). -/
def stopClass2 (c : Instr) (s : State) : State :=
  match c with
  | .pageCopy r _ _ => advanceCopy r.tenant s
  | .fwCommit _ _ => cutCommit s
  | _ => s

/-- R407 for one tenant, before the reply to POWER_MODE SLEEP. -/
def denyWork (s : State) (t : Nat) : State :=
  let n := s.tenant t
  let commands := (n.pend.filter fun p => !fabricCommit s t p.cmd).length + n.class2.length
  let groups := (n.groups.filter fun g => !g.committing).length
  let s := match n.class2 with
    | c :: _ => stopClass2 c.cmd s
    | [] => s
  let s := cancelPending t (fun _ => true) s
  let s := n.class2.foldl (fun s c => denyReply false s c.cmd) s
  let s := if s.plink.armed.any fun a => a.tenant = t then disarm s else s
  let s := modTenant t (fun n => { n with class2 := [], groups := [] }) s
  if commands = 0 && groups = 0 then s else record 0x0014 t [(1, t), (2, sat16 commands), (2, sat16 groups)] s

/-- The effect of POWER_MODE (R387, R407); the mode in force already changes nothing. -/
def setMode (r : Req) (mode : Nat) (wake : Option Time) (s : State) : State :=
  let old := s.pwr.mode.code
  match mode with
  | 0 =>
    if s.pwr.mode ≠ .quiet then s
    else restartCores (resumePrism (tellMode r.tenant 1 0 0 (modPwr (fun p => { p with mode := .run }) s)))
  | 1 =>
    if s.pwr.mode ≠ .run then s
    else fadesOver (fadeSinks (tellMode r.tenant 0 1 0 (modPwr (fun p => { p with mode := .quiet, entering := .quiet }) s)))
  | _ =>
    let s := (List.range 16).foldl denyWork s
    let s := tellMode r.tenant old 3 0 (modPwr (fun p => { p with entering := .sleep, wakeAt := wake }) s)
    if s.prism.gated then s else fadeSinks s

/-- The time at which a command takes effect. -/
def effectTime (r : Req) (s : State) : Time := if r.cls = 1 then max s.now (applyTime r.apply) else s.now

def powerModeM (r : Req) (mode flags : Byte) (wakeAt : Stamp) : Meaning where
  checks := fun s =>
    let en := flags.getLsbD 0
    [(.range, 2 < mode.toNat || badNs wakeAt || (en && (mode ≠ 2 || decide (timeOf wakeAt < effectTime r s + secondU)))), (.busy, powerBusy s)]
  effect := fun _ s => (setMode r mode.toNat (if flags.getLsbD 0 then some (timeOf wakeAt) else none) s, .ok, [])

def execPowerMode (r : Req) (mode flags : Byte) (wakeAt : Stamp) (s : State) : Out :=
  fin (submit (.powerMode r mode flags wakeAt) (powerModeM r mode flags wakeAt) s)

/-- HOLD_LEFT in s; all of HOLD_TIME outside HOLDOVER. -/
def holdLeft (s : State) : Nat :=
  if s.pwr.holdTime = 0 then 0xFFFFFFFF
  else if s.pwr.mode = .holdover then (16000000 * s.pwr.holdTime - (s.sys.aonTicks - s.pwr.tripTicks)) / 16000000 else s.pwr.holdTime

def powerStatusM : Meaning where
  effect := fun _ s =>
    let p := s.pwr
    let ms := if p.mode = .holdover then (s.sys.aonTicks - p.tripTicks) / 16000 else 0
    (s, .ok, le 1 p.mode.code ++ le 1 (bit p.mainOk + 2 * bit p.holdEn + 4 * bit p.chgEn + 8 * bit (holdArmed s)) ++ le 2 s.sys.coreMhz ++
      leSat 4 ms ++ le 4 (holdLeft s) ++ leSat 2 (stackMv s) ++ leBits 1 p.keep ++ le 1 0)

def execPowerStatus (r : Req) (s : State) : Out := fin (submit (.powerStatus r) powerStatusM s)

/-- CORE_CLOCK (R406); the relock is over when it has its effect (Notes 1 and 2 of Table 15.5). -/
def coreClockM (r : Req) (mhz : Half) : Meaning where
  checks := fun s =>
    [(.range, mhz.toNat % 100 ≠ 0 || mhz.toNat < 200 || 800 < mhz.toNat || decide (coreMax s < mhz.toNat)), (.busy, powerBusy s)]
  effect := fun _ s =>
    let old := s.sys.coreMhz
    let new := coreFor s mhz.toNat
    let s := modSys (fun y => { y with coreReq := mhz.toNat, coreMhz := new }) s
    (record 0x0C09 r.tenant [(4, old), (4, new)] s, .ok, le 2 old ++ le 2 new)

def execCoreClock (r : Req) (mhz : Half) (s : State) : Out := fin (submit (.coreClock r mhz) (coreClockM r mhz) s)

/-- HOLD_CONFIG (Table 15.6). -/
def holdConfigM (c : HoldCfg) : Meaning where
  checks := fun s =>
    [(.range, 1 < c.en.toNat || 1 < c.after.toNat || 7 < c.keep.toNat || c.vMin.toNat < 4000 || 36000 < c.vMin.toNat ||
        (c.shunt ≠ 0 && (decide (c.shunt.toNat < 100) || decide (100000 < c.shunt.toNat)))), (.busy, powerBusy s)]
  effect := fun _ s => (modPwr (fun p => { p with
    en := c.en = 1, after := c.after.toNat, keep := c.keep.setWidth 3, holdTime := c.holdTime.toNat, vMin := c.vMin.toNat
    shunt := c.shunt.toNat, current := if c.shunt = 0 then 0 else p.current }) s, .ok, [])

def execHoldConfig (r : Req) (c : HoldCfg) (s : State) : Out := fin (submit (.holdConfig r c) (holdConfigM c) s)

def stackStatusM : Meaning where
  effect := fun _ s =>
    let p := s.pwr
    (s, .ok, le 1 p.cells ++
      le 1 (bit (holdArmed s) + 2 * bit p.chgEn + 4 * bit p.hbOk + 8 * bit (p.sw ≠ 0) + 16 * bit (p.shunt = 0)) ++ leBits 2 p.sw ++
      leSat 2 (stackMv s) ++ leInt 2 p.current ++ (List.range 12).flatMap (fun i => le 2 (if i < p.cells then nth p.volts i else 0)) ++
      leBits 2 p.low ++ leBits 2 p.high ++ le 4 0)

def execStackStatus (r : Req) (s : State) : Out := fin (submit (.stackStatus r) stackStatusM s)

/-- BALANCE_CONFIG (Table 15.6, Note 1 of Table 15.5). -/
def balanceConfigM (c : BalanceCfg) : Meaning where
  checks := fun s =>
    [(.range, c.cells.toNat < 4 || 12 < c.cells.toNat || 1 < c.mode.toNat || 1 < c.charge.toNat || c.balTimeout = 0 || 16 < c.balTimeout.toNat ||
        decide (c.balTarget.toNat < 1000) || decide (2850 < c.balTarget.toNat) || decide (c.balWindow.toNat < 5) || decide (500 < c.balWindow.toNat) ||
        decide (c.vOv.toNat < 2400) || decide (2850 < c.vOv.toNat) || c.vOv.toNat % 10 ≠ 0 || decide (c.vOv.toNat ≤ c.balTarget.toNat + c.balWindow.toNat)),
     (.busy, s.pwr.en && s.pwr.cells ≠ c.cells.toNat)]
  effect := fun _ s =>
    let fresh := s.pwr.cells ≠ c.cells.toNat
    let s := modPwr (fun p => { p with
      cells := c.cells.toNat, balMode := c.mode = 1, charge := c.charge = 1, balTimeout := c.balTimeout.toNat
      balTarget := c.balTarget.toNat, balWindow := c.balWindow.toNat, vOv := c.vOv.toNat }) s
    let s := if fresh then modPwr (fun p => { openSwitches p with volts := List.replicate 12 0, measured := false, low := 0, high := 0, lowDue := 0 }) s else s
    let s := if c.mode = 1 then s else modPwr openSwitches s
    (chgUpdate s, .ok, [])

def execBalanceConfig (r : Req) (c : BalanceCfg) (s : State) : Out := fin (submit (.balanceConfig r c) (balanceConfigM c) s)

/-! FW_COMMIT (R114, R420, R421). -/

/-- The image runs from here in host boot; the SEQ it booted with is open. -/
def hostStart (img : List Byte) (s : State) : State :=
  let (v, s) := drawFree s
  let s := runImage (imageSlot img (v.setWidth 32)) false (s.sys.bootsel.toNat / 2 = 1) s
  tellWake (holdAtL1 (reachL1 s))

/-- FW_COMMIT: in host boot it boots the staged image, else it writes the slot that did not boot (R114, R420, R421). -/
def fwCommitM (r : Req) (size : Word) : Meaning where
  checks := fun _ => [(.range, decide (size.toNat < 513) || decide (262128 < size.toNat))]
  ready := fun s => !storeHeld s 0
  effect := fun got s =>
    let img := stagedImage s size.toNat
    let version := (img.drop 4).take 4
    match commitFault s size.toNat with
    | .ok =>
      if s.sys.hostBoot then (hostStart img s, .ok, version)
      else if doneOk got then (setOtherSlot (some (imageSlot img (nextSeq s.sys.bootSeq))) img s, .ok, version)
      else (record 0x0009 r.tenant [(2, 0x0041), (1, 0)] (setOtherSlot none [] s), .internal, [])
    | st => (s, st, [])

def execFwCommit (r : Req) (size : Word) (s : State) : Out := fin (submit (.fwCommit r size) (fwCommitM r size) s)

end Sys2Proof.Machine
end

