-- ==== Sys2Proof/Machine/Debug.lean ====
section
/-! DEFINITION. Debug access (17): the commands of Table 17.5, challenge and response, halts, steps and the Lens registers a
debugger reads and writes. What follows the resumption of the control core stands in Apply.lean. -/

namespace Sys2Proof.Machine

/-! The commands of Table 17.5. -/

/-- Seconds left of the session, 0xFFFF without limit. -/
def sessionLeft (s : State) : Nat :=
  match s.dbg.session with
  | some x => match x.left with
    | some n => (16000000 * n - (s.sys.aonTicks - x.since)) / 16000000
    | none => 0xFFFF
  | none => 0

/-- DBG_OPEN (Note 1 of Table 17.5). -/
def dbgOpenM (scope : Byte) (duration : Half) : Meaning where
  checks := fun s =>
    [(.range, 16 < scope.toNat || duration = 0 || (scope.toNat < 16 && (s.tenant scope.toNat).st ≠ .open)), (.busy, s.dbg.session.isSome)]
  effect := fun _ s => (openSession 3 scope.toNat (some duration.toNat) s, .ok, [])

def execDbgOpen (r : Req) (scope : Byte) (duration : Half) (s : State) : Out :=
  fin (submit (.dbgOpen r scope duration) (dbgOpenM scope duration) s)

/-- DBG_CLOSE; with no session open it does nothing. -/
def dbgCloseM : Meaning where
  effect := fun _ s => (closeSession 0 s, .ok, [])

def execDbgClose (r : Req) (s : State) : Out := fin (submit (.dbgClose r) dbgCloseM s)

/-- RESPONSES_LOCKED: three responses were refused since the start (R438). -/
def responsesLocked (s : State) : Bool := decide (3 ≤ s.dbg.refusals)

def dbgStatusM : Meaning where
  effect := fun _ s =>
    let src := match s.dbg.session with | some x => x.source | none => 0
    let scope := match s.dbg.session with | some x => x.scope | none => 0xFF
    (s, .ok, le 1 (bit s.dbg.session.isSome + 2 * src + 8 * bit s.dbg.wdFreeze + 16 * bit (responsesLocked s)) ++ le 1 scope ++
      le 2 (sessionLeft s) ++ leBits 2 s.dbg.halted ++ le 2 0)

def execDbgStatus (r : Req) (s : State) : Out := fin (submit (.dbgStatus r) dbgStatusM s)

/-! Challenge and response (R438). -/

/-- DBG_CHAL: a Capture-DR draws a nonce; it captures zero while the entropy source is fenced. -/
def execDbgChal (s : State) : Out :=
  if s.dbg.extest then .next s
  else
  let s := tapLoad 9 s
  if !s.sys.running then .next s
  else if isFenced s fenceEntropy then fin (modDbg (fun d => { d with nonce := none, chal := 0 }) s)
  else
    let v := Config.entropy (s.store.draws + 1)
    fin (modStore (fun m => { m with draws := m.draws + 1 }) (modDbg (fun d => { d with nonce := some s.sys.aonTicks, chal := v }) s))

/-- The bytes that a response signs. -/
def signedBytes (s : State) (scope : Byte) (duration : Half) : List Byte :=
  leBits 32 s.dbg.chal ++ [0x16, 0x74, Config.revision, scope] ++ leBits 2 duration

/-- A response is accepted. -/
def responseOk (s : State) (scope : Byte) (duration : Half) (x y r v : Nat) : Bool :=
  !isFenced s fenceEntropy && !responsesLocked s && s.dbg.session.isNone &&
    s.dbg.nonce.any (fun t => decide (s.sys.aonTicks ≤ t + 60 * 16000000)) &&
    decide (sha256 (beBytes 32 x ++ beBytes 32 y) = fuseBytes (BitVec.ofNat 256 (shadowOf s 6))) &&
    ecdsaOk (signedBytes s scope duration) x y r v

/-- DBG_RESP: a response opens a session, or is refused with event 0x0E03; its nonce is used up. -/
def execDbgResp (scope _reserved : Byte) (duration : Half) (pubX pubY sigR sigS : BitVec 256) (s : State) : Out :=
  if s.dbg.extest then .next s
  else
  let s := tapLoad 10 s
  if !s.sys.running then .next s
  else
    let ok := responseOk s scope duration pubX.toNat pubY.toNat sigR.toNat sigS.toNat
    let s := modDbg (fun d => { d with nonce := none, respDone := true, respAccepted := ok }) s
    fin (if ok then openSession 2 scope.toNat (some duration.toNat) s
      else
        let n := s.dbg.refusals + 1
        record 0x0E03 engineTag [(2, sat16 n)] (modDbg (fun d => { d with refusals := n }) s))

/-! Halts and steps (R444). -/

/-- The cores of a mask that the session's scope covers. -/
def coveredCores (s : State) (cores : BitVec 9) : List Nat :=
  (List.range 9).filter fun k => cores.getLsbD k && scopeCovers s k

/-- A write of DBG_HALT: each core named halts at its next interruption point. -/
def requestHalt (cores : BitVec 9) (s : State) : State :=
  (coveredCores s cores).foldl (fun s k =>
    if s.dbg.halted.getLsbD k then s else modDbg (fun d => { d with haltReq := setBit d.haltReq k true }) s) s

def execDbgHalt (cores : BitVec 9) (s : State) : Out := fin (requestHalt cores s)

/-- The program counter of the control core is the firmware's, which the spec leaves open. -/
def drawCtlPc (s : State) : State :=
  let (v, s) := drawFree s
  modDbg (fun d => { d with ctlPc := v.setWidth 32 }) s

/-- CORE_HALTED: a halt asked for takes effect: for a Lens core at its interruption point (R320). -/
def execCoreHalted (core : Fin 9) (s : State) : Out :=
  let k := core.val
  let c := s.core (k - 1)
  if !s.dbg.haltReq.getLsbD k || s.dbg.halted.getLsbD k then .next s
  else if k = 0 then fin (setHalted 0 true (drawCtlPc s))
  else if c.run.isSome && !abortPoint c then .next s
  else fin (setHalted k true s)

/-- A Lens instruction as its row executes it; other rows are none. -/
def lensRow (i : Instr) (s : State) : Out :=
  match i with
  | .lNop core => execLNop core s
  | .lEnd core => execLEnd core s
  | .lBr core cc t => execLBr core cc t s
  | .lCall core t => execLCall core t s
  | .lRet core => execLRet core s
  | .lLoop core rot reg dc count e => execLLoop core rot reg dc count e s
  | .lRep core reg dc count => execLRep core reg dc count s
  | .lBrk core => execLBrk core s
  | .lAdd core d a b x y => execLAdd core d a b x y s
  | .lSub core d a b x y => execLSub core d a b x y s
  | .lAnd core d a b x y => execLAnd core d a b x y s
  | .lOr core d a b x y => execLOr core d a b x y s
  | .lXor core d a b x y => execLXor core d a b x y s
  | .lAsl core d a sh x y => execLAsl core d a sh x y s
  | .lAsr core d a sh x y => execLAsr core d a sh x y s
  | .lLsr core d a sh x y => execLLsr core d a sh x y s
  | .lAbs core d a x y => execLAbs core d a x y s
  | .lNeg core d a x y => execLNeg core d a x y s
  | .lMin core d a b x y => execLMin core d a b x y s
  | .lMax core d a b x y => execLMax core d a b x y s
  | .lMov core d a x y => execLMov core d a x y s
  | .lCmp core a b x y => execLCmp core a b x y s
  | .lPar core x y => execLPar core x y s
  | .lMpy core a opx opy csrc neg x y => execLMpy core a opx opy csrc neg x y s
  | .lMac core a opx opy csrc neg x y => execLMac core a opx opy csrc neg x y s
  | .lMpy4 core a opx opy csrc neg x y => execLMpy4 core a opx opy csrc neg x y s
  | .lMac4 core a opx opy csrc neg x y => execLMac4 core a opx opy csrc neg x y s
  | .lMac2e core a opx opy neg x y => execLMac2e core a opx opy neg x y s
  | .lMac2c core a opx opy neg x y => execLMac2c core a opx opy neg x y s
  | .lClr core a x y => execLClr core a x y s
  | .lClr4 core a x y => execLClr4 core a x y s
  | .lRnd core d a sh x y => execLRnd core d a sh x y s
  | .lMva core a opx x y => execLMva core a opx x y s
  | .lLdi core r imm => execLLdi core r imm s
  | .lMvr core r1 r2 => execLMvr core r1 r2 s
  | .lLds core d a => execLLds core d a s
  | .lSts core d a => execLSts core d a s
  | .lLks core d a => execLLks core d a s
  | .lUns core d a => execLUns core d a s
  | .lLdb core p a n1 => execLLdb core p a n1 s
  | .lStb core p a n1 => execLStb core p a n1 s
  | _ => .next s

/-- The instruction at the program counter of a core, executed. -/
def lensOnce (n : Fin 8) (s : State) : State :=
  let c := s.core n.val
  if !inRegion c then kernelFault n.val .fetch s
  else match lensDecode n (pmWord c c.pc) with
    | none => kernelFault n.val .illegal s
    | some i => match lensRow i s with
      | .next t => t
      | _ => s

/-- One step of a core: one instruction, and after REP every repetition. -/
def lensSteps : Nat → Fin 8 → State → State
  | 0, _, s => s
  | f + 1, n, s =>
    let t := lensOnce n s
    if (t.core n.val).rep.isSome then lensSteps f n t else t

/-- A step of a halted core k, which halts again. -/
def stepCore (s : State) (k : Nat) : State :=
  if !s.dbg.halted.getLsbD k then s
  else if k = 0 then setHalted 0 true (drawCtlPc s)
  else
    let s := modDbg (fun d => { d with halted := setBit d.halted k false }) s
    setHalted k true (if lensLive s (k - 1) then lensSteps 4098 (Fin.ofNat 8 (k - 1)) s else s)

/-- A write of DBG_STEP. -/
def stepCores (cores : BitVec 9) (s : State) : State := (coveredCores s cores).foldl stepCore s

def execDbgStep (cores : BitVec 9) (s : State) : Out := fin (stepCores cores s)

/-! The registers of a Lens core as the debugger selects them (Table 17.8). -/

/-- What DBG_LCn_DATA reads: the register selected by DBG_LCn_SEL; 0 for a selector without a register. -/
def selRead (c : LensCore) (sel : Nat) : Word :=
  if sel ≤ 41 then readSel c sel
  else if 48 ≤ sel && sel < 72 then ((nth c.a ((sel - 48) / 3)) >>> (32 * ((sel - 48) % 3))).setWidth 32
  else if 72 ≤ sel && sel < 80 then (nth c.o (sel - 72)).setWidth 32
  else 0

/-- Word w of an accumulator set. -/
def putAccWord (w : Nat) (v : Word) (a : BitVec 80) : BitVec 80 :=
  let m := (BitVec.ofNat 80 0xFFFFFFFF) <<< (32 * w)
  (a &&& ~~~m) ||| ((v.setWidth 80) <<< (32 * w))

/-- What a write of DBG_LCn_DATA does to a halted core; origins, LC and selectors without a register take no write. -/
def selWrite (sel : Nat) (v : Word) (c : LensCore) : LensCore :=
  if sel ≤ 41 then (match writeSel sel v c with | .ok c => c | .error _ => c)
  else if 48 ≤ sel && sel < 72 then { c with a := updAt c.a ((sel - 48) / 3) (putAccWord ((sel - 48) % 3) v) }
  else c

/-- A write of DBG_LCn_DATA by the debugger (R443). -/
def lcnDataWrite (n : Nat) (v : Word) (s : State) : State :=
  if scopeCovers s (1 + n) && s.dbg.halted.getLsbD (1 + n) then modLens n (selWrite (nth s.dbg.sel n).toNat v) s else s

def execDbgLcnDataWrite (core : Fin 8) (value : Word) (s : State) : Out := fin (lcnDataWrite core.val value s)

end Sys2Proof.Machine
end

