-- ==== Sys2Proof/Machine/Apply.lean ====
section
/-! DEFINITION. When held commands take effect (04, 10): class 1 commands at their times, commits and lone commands at Mirror swaps,
class 2 commands at their ends, and what follows the resumption of the control core (17). -/

namespace Sys2Proof.Machine

/-- The meaning of an opcode; none for a row that is no opcode. -/
def meaningOf : Instr → Option Meaning
  | .sysInfo r => some (sysInfoM r)
  | .tenantOpen _ tenant transports => some (tenantOpenM tenant transports)
  | .tenantClose _ tenant => some (tenantCloseM tenant)
  | .grant _ tenant type first count => some (grantM tenant type first count)
  | .revoke _ tenant type first count => some (revokeM tenant type first count)
  | .groupCommit r => some (groupCommitM r)
  | .groupAbort r => some (groupAbortM r)
  | .groupStatus r => some (groupStatusM r)
  | .fuseRead _ field => some (fuseReadM field)
  | .fuseProgram r field value => some (fuseProgramM r field value)
  | .fwWrite _ offset data => some (fwWriteM offset data)
  | .fwCommit r size => some (fwCommitM r size)
  | .timeGet r => some (timeGetM r)
  | .timeSet r time utc flags => some (timeSetM r time utc flags)
  | .timeStep r offset => some (timeStepM r offset)
  | .timeAdjust _ offset slew => some (timeAdjustM offset slew)
  | .rateSet _ rate => some (rateSetM rate)
  | .sourceSet r src domain => some (sourceSetM r src domain)
  | .servoConfig _ a b c d e f => some (servoConfigM a b c d e f)
  | .lastStatus _ => some lastStatusM
  | .calSet _ item index sub value => some (calSetM item index sub value)
  | .calGet _ item index sub => some (calGetM item index sub)
  | .ethPortConfig _ port mode vid mac => some (ethPortConfigM port mode vid mac)
  | .ethPortStatus _ port => some (ethPortStatusM port)
  | .gptpConfig _ c => some (gptpConfigM c)
  | .gptpPortRole _ port role domains => some (gptpPortRoleM port role domains)
  | .gptpStatus _ domain => some (gptpStatusM domain)
  | .avtpTalkerConfig _ c => some (avtpTalkerConfigM c)
  | .avtpListenerConfig _ c => some (avtpListenerConfigM c)
  | .avtpStreamStart r dir stream => some (avtpStreamStartM r dir stream)
  | .avtpStreamStop _ dir stream => some (avtpStreamStopM dir stream)
  | .avtpStreamStatus _ dir stream => some (avtpStreamStatusM dir stream)
  | .crfConfig _ c => some (crfConfigM c)
  | .cbsConfig _ port idleA idleB => some (cbsConfigM port idleA idleB)
  | .ethRxFilter _ ports actions rlog2 base => some (ethRxFilterM ports actions rlog2 base)
  | .tpinConfig r c => some (tpinConfigM r c)
  | .tpinSchedule r pin action policy time => some (tpinScheduleM r pin action policy time)
  | .tpinCancel _ pin handle => some (tpinCancelM pin handle)
  | .tpinCaptureRead r pin max_ => some (tpinCaptureReadM r pin max_)
  | .reflexConfig _ c => some (reflexConfigM c)
  | .reflexWindow _ c => some (reflexWindowM c)
  | .fsgConfig r c => some (fsgConfigM r c)
  | .fsgStart r k => some (fsgStartM r k)
  | .fsgStop _ k => some (fsgStopM k)
  | .fsgStatus _ k => some (fsgStatusM k)
  | .plinkStatus _ port => some (plinkStatusM port)
  | .plinkEnumerate r flags => some (plinkEnumerateM r flags)
  | .plinkTopology _ => some plinkTopologyM
  | .plinkAudioMap _ c => some (plinkAudioMapM c)
  | .fabricPrepare r fid tenant group => some (fabricPrepareM r fid tenant group)
  | .fabricApply r fid => some (fabricApplyM r fid)
  | .fabricAbort r fid => some (fabricAbortM r fid)
  | .plinkDelayGet _ port => some (plinkDelayGetM port)
  | .mcgConfig _ mcg mode family mult window => some (mcgConfigM mcg mode family mult window)
  | .mcgMeasure _ mcg => some (mcgMeasureM mcg)
  | .aportConfig _ c => some (aportConfigM c)
  | .aportStart _ port => some (aportStartM port)
  | .aportStop _ port => some (aportStopM port)
  | .aportMask _ port tx rx => some (aportMaskM port tx rx)
  | .aportRate r port mcg rate => some (aportRateM r port mcg rate)
  | .aportStatus _ port => some (aportStatusM port)
  | .prismInputClass _ src cls wind => some (prismInputClassM src cls wind)
  | .prismXpSet r l => some (prismXpSetM r l)
  | .prismXpClear r l => some (prismXpClearM r l)
  | .prismRoute r sink source flags => some (prismRouteM r sink source flags)
  | .prismBusConfig _ bus family rate mode range => some (prismBusConfigM bus family rate mode range)
  | .prismBusRange _ bus range => some (prismBusRangeM bus range)
  | .prismDirectGain _ src bus gain => some (prismDirectGainM src bus gain)
  | .prismStatus _ bus => some (prismStatusM bus)
  | .sceneStore r scene page offset => some (sceneStoreM r scene page offset)
  | .sceneRecall r scene => some (sceneRecallM r scene)
  | .sceneDelete r scene => some (sceneDeleteM r scene)
  | .sceneList r => some (sceneListM r)
  | .mirrorConfig r family rate block len => some (mirrorConfigM r family rate block len)
  | .mirrorStatus r => some (mirrorStatusM r)
  | .lensLoad r core slot page offset => some (lensLoadM r core slot page offset)
  | .lensChain r g => some (lensChainM r g)
  | .lensStart _ core slots => some (lensStartM core slots)
  | .lensStop r core slots => some (lensStopM r core slots)
  | .lensParam _ l => some (lensParamM l)
  | .lensStatus _ core => some (lensStatusM core)
  | .lensDeadline _ core strikes guard => some (lensDeadlineM core strikes guard)
  | .pageInfo r => some (pageInfoM r)
  | .pageRead r page offset length => some (pageReadM r page offset length)
  | .pageWrite _ page offset data => some (pageWriteM page offset data)
  | .pageCopy r src dst => some (pageCopyM r src dst)
  | .evrecConfig r cBase cSize dumpBase tick => some (evrecConfigM r cBase cSize dumpBase tick)
  | .evrecRead r channel max_ from_ => some (evrecReadM r channel max_ from_)
  | .evrecStatus _ => some evrecStatusM
  | .evrecRate _ code rate burst => some (evrecRateM code rate burst)
  | .evrecFlush _ => some evrecFlushM
  | .evrecErase r target => some (evrecEraseM r target)
  | .wdogConfig r period => some (wdogConfigM r period)
  | .wdogStatus _ => some wdogStatusM
  | .wdogCountClear _ => some wdogCountClearM
  | .superviseStatus _ => some superviseStatusM
  | .powerMode r mode flags wakeAt => some (powerModeM r mode flags wakeAt)
  | .powerStatus _ => some powerStatusM
  | .coreClock r mhz => some (coreClockM r mhz)
  | .holdConfig _ c => some (holdConfigM c)
  | .stackStatus _ => some stackStatusM
  | .balanceConfig _ c => some (balanceConfigM c)
  | .dbgOpen _ scope duration => some (dbgOpenM scope duration)
  | .dbgClose _ => some dbgCloseM
  | .dbgStatus _ => some dbgStatusM
  | _ => none

/-- The checks a held command meets when it is to take effect: those of its own chapter, and of one that waits for a swap boundary
R393 alone, since its entries were reserved when it was accepted (R104, R393). -/
def judgeAgain (s : State) (i : Instr) (m : Meaning) : Option Status :=
  if atSwap i then (if (opInfo i).fences.any (stoppedByHoldover s) then some .busy else none) else ownChecks s i m

/-- Event 0x0104 for a command that a forward step passed, 0x0E05 for one whose time passed while the control core was halted
(R55, R446). -/
def tellLate (t : Nat) (p : Pending) (s : State) : State :=
  match reqOf p.cmd with
  | some r =>
    let d := [(2, (opInfo p.cmd).op), (1, t), (2, r.tag.toNat)]
    let s := if p.passed then record 0x0104 t d s else s
    if p.halted then record 0x0E05 t d s else s
  | none => s

/-- A held command takes effect, with its final reply at `done` ns. -/
def applyHeld (t : Nat) (p : Pending) (done : Nat) (s : State) : State :=
  match reqOf p.cmd, meaningOf p.cmd with
  | some r, some m =>
    let (s, st, res) := match judgeAgain s p.cmd m with
      | some st => (m.onRefuse st s, st, [])
      | none => m.effect p.copied (tellLate t p s)
    post t p.timed (mkReply r (opInfo p.cmd).op st done res) s
  | _, _ => s

/-- A held command is issued: the bridge holds a register write whose domain does not acknowledge (R64), else it takes effect. -/
def issueHeld (t : Nat) (p : Pending) (done : Nat) (s : State) : State :=
  match silentDomain s p.cmd with
  | some d => holdWrite d { tenant := t, cmd := p.cmd, timed := p.timed, copied := p.copied } (tellLate t p s)
  | none => applyHeld t p done s

/-! Class 1 commands (R100, R101, R103). -/

/-- A FABRIC_APPLY of an armed root ends at the swap boundary of its group (R238). -/
def waitsForSwap (s : State) (i : Instr) : Bool :=
  atSwap i || (match i with
    | .fabricApply _ _ => s.plink.armed.any fun a => a.due.isSome
    | _ => false)

/-- A step of the counter by command. -/
def isStep : Instr → Bool
  | .timeSet _ _ _ _ | .timeStep _ _ => true
  | _ => false

/-- How many TIME cycles ago a held command was due: every command that a step or a halt passed counts as due in the first of them. -/
def cyclesLate (s : State) (p : Pending) : Int :=
  if p.passed || p.halted then topTime else (s.now - p.due) / stepUnits s.last.rateEff

/-- A held command is due, and what ranks it: its TIME cycle, steps before other actions of the cycle (R37), then its tenant (R103). -/
def isDue (s : State) (p : Pending) : Bool := !waitsForSwap s p.cmd && decide (p.due ≤ s.now)
def dueRank (s : State) (t : Nat) (p : Pending) : Int × Nat × Nat := (-(cyclesLate s p), bit (!isStep p.cmd), t)
def rankBefore (a b : Int × Nat × Nat) : Bool :=
  a.1 < b.1 || (a.1 = b.1 && (a.2.1 < b.2.1 || (a.2.1 = b.2.1 && a.2.2 < b.2.2)))

/-- The pending command of a tenant that is due first, and the others; the first accepted of one rank (R103). -/
def firstDue (s : State) (t : Nat) : List Pending → Option (Pending × List Pending)
  | [] => none
  | p :: l =>
    match firstDue s t l with
    | some (q, rest) => if isDue s p && !rankBefore (dueRank s t q) (dueRank s t p) then some (p, l) else some (q, p :: rest)
    | none => if isDue s p then some (p, l) else none

/-- Another tenant's due command comes before p (R103). -/
def outranked (s : State) (t : Nat) (p : Pending) : Bool :=
  (List.range 16).any fun u => u ≠ t && (s.tenant u).pend.any fun q => isDue s q && rankBefore (dueRank s u q) (dueRank s t p)

/-- One of the steps of a boundary, with its final reply: `moved` says what the counter reads after the steps before it, when any applied. -/
def stepHeld (base : Time) (acc : State × Option Time) (x : Nat × Pending) : State × Option Time :=
  let (s, moved) := acc
  match reqOf x.2.cmd, meaningOf x.2.cmd with
  | some r, some m =>
    match judgeAgain s x.2.cmd m, silentDomain s x.2.cmd with
    | some st, _ => (post x.1 x.2.timed (mkReply r (opInfo x.2.cmd).op st (nowNs s) []) (m.onRefuse st s), moved)
    | none, some d => (holdWrite d { tenant := x.1, cmd := x.2.cmd, timed := x.2.timed, copied := [] } (tellLate x.1 x.2 s), moved)
    | none, none =>
      let (s, st, res) := stepByCommand (moved.getD base) x.2.cmd (tellLate x.1 x.2 s)
      (post x.1 x.2.timed (mkReply r (opInfo x.2.cmd).op st (nowNs s) res) s, if st = .ok then some s.now else moved)
  | _, _ => acc

/-- The steps of one boundary take effect in order, each on the result of the one before; what follows them is judged once (R37). -/
def applySteps (l : List (Nat × Pending)) (s : State) : State :=
  let base := cycleEnd s
  let s := l.foldl (fun s x => modTenant x.1 (fun n => { n with pend := n.pend.erase x.2 }) s) s
  let (s, moved) := l.foldl (stepHeld base) (s, none)
  if moved.isSome then judgeStep base s else s

/-- The due steps of every tenant that rank with p, by tenant and order of acceptance. -/
def stepsWith (s : State) (p : Pending) : List (Nat × Pending) :=
  (List.range 16).flatMap fun u =>
    ((s.tenant u).pend.filter fun q => isDue s q && isStep q.cmd && cyclesLate s q = cyclesLate s p).map fun q => (u, q)

/-- The first due command of a tenant takes effect, unless another tenant's comes before it (R103); a step with the other steps of its
boundary (R37). -/
def applyDue (t : Nat) (s : State) : State :=
  match firstDue s t (s.tenant t).pend with
  | some (p, rest) =>
    if outranked s t p then s
    else if isStep p.cmd then applySteps (stepsWith s p) s
    else issueHeld t p (nowNs s) (modTenant t (fun n => { n with pend := rest }) s)
  | none => s

/-- TIMED_COMMAND_APPLY: nothing applies while the control core is halted (R446). -/
def execTimedCommandApply (t : Fin 16) (s : State) : Out :=
  if ctlHalted s || !fwRuns s then .next s else fin (applyDue t.val s)

/-! Mirror swaps (R106, R107, R288 to R291). -/

/-- A held command's boundary is n: its time is not later, and its entries are in the shadow bank, which a class 1 command accepted
20 us before its time and a later epoch always have (R289). -/
def swapsAt (s : State) (t : Nat) (n : Int) (p : Pending) : Bool :=
  let later := match p.cmd with
    | .groupCommit r => (groupOf (s.tenant t) r.group.toNat).any fun g => decide (0 < g.epoch)
    | _ => false
  let early := p.timed && (match reqOf p.cmd with
    | some r => p.due = applyTime r.apply
    | none => true)
  atSwap p.cmd && !boundaryBefore s (swapFs s t) n p.due 0 && (p.loaded || later || early)

/-- One staged command takes effect; one whose register write meets a domain that does not acknowledge has none, with event 0x0B24, and the
commit that caused it ends as S_NO_CLOCK (R66, log entry 31). -/
def applyStaged (acc : State × Bool) (x : Staged) : State × Bool :=
  match silentDomain acc.1 x.cmd with
  | some d => (tellNoClock d acc.1, true)
  | none => match meaningOf x.cmd with
    | some m => ((m.effect x.copied acc.1).1, acc.2)
    | none => acc

/-- The commit of the fabric is done: event 0x0409, and at the root the final reply of FABRIC_APPLY (R238). -/
def fabricDone (done : Nat) (s : State) : State :=
  match s.plink.armed with
  | some a =>
    let s := record 0x0409 engineTag [(1, a.fid), (4, done % 1000000000)] (disarm s)
    match s.plink.fabric with
    | some f =>
      let mine := fun (p : Pending) => match p.cmd with
        | .fabricApply _ k => decide (k.toNat = a.fid)
        | _ => false
      match (s.tenant f.by_).pend.find? mine with
      | some p => applyHeld f.by_ p done (modTenant f.by_ (fun n => { n with pend := n.pend.filter fun p => !mine p }) s)
      | none => s
    | none => s
  | none => s

/-- A held command taken from its tenant. -/
def dropPend (t : Nat) (p : Pending) (s : State) : State := modTenant t (fun n => { n with pend := n.pend.erase p }) s

/-- One epoch of a commit takes effect at a boundary; after its last the group closes, with event 0x000A when it took several, and the
final reply, or what a commit of the fabric leaves (R107, R108, R238). -/
def applyEpoch (t : Nat) (p : Pending) (r : Req) (next : Time) (done : Nat) (s : State) : State :=
  match groupOf (s.tenant t) r.group.toNat with
  | none => s
  | some g =>
    let (now, rest) := takeEpoch 0 g.staged
    let ours := fabricCommit s t p.cmd
    let s := if g.epoch = 0 then tellLate t p s else s
    let (s, bad) := now.foldl applyStaged (modGroup t g.num (fun g => { g with staged := rest, epoch := g.epoch + 1 }) s, g.noClock)
    let s := modGroup t g.num (fun g => { g with noClock := bad }) s
    if rest ≠ [] then modTenant t (fun n => { n with pend := n.pend.map fun q => if q = p then { q with due := next } else q }) s
    else
      let s := dropPend t p s
      let s := if 1 < g.epochs then record 0x000A t [(1, t), (2, g.num), (2, g.epochs)] s else s
      let s := dropGroup t g.num s
      if ours then fabricDone done s
      else post t p.timed (mkReply r 0x0020 (if bad then .noClock else .ok) done (commitResults g)) s

/-- One held command at its boundary. -/
def applySwap (t : Nat) (next : Time) (done : Nat) (s : State) (p : Pending) : State :=
  match p.cmd with
  | .groupCommit r => applyEpoch t p r next done s
  | _ => applyHeld t p done (dropPend t p s)

/-- The held commands that a swap of a tenant takes, in order of acceptance (R106, R289). -/
def swapPicks (s : State) (t : Nat) (n : Int) : List Pending := (s.tenant t).pend.filter (swapsAt s t n)

/-- A swap of a tenant at boundary n: the commands take effect and the active bank flips; while Prism is gated or stopped their ramps
are not run (R301). -/
def swapAt (t : Nat) (n : Int) (s : State) : State :=
  let picks := swapPicks s t n
  if picks = [] then s
  else
    let fs := swapFs s t
    let done := (boundaryNs s fs n 0).toNat
    let s := picks.foldl (applySwap t (boundaryTime s fs n + 1) done) s
    let s := modTenant t (fun x => { x with mirror := { x.mirror with bankB := !x.mirror.bankB, swaps := x.mirror.swaps + 1 } }) s
    let s := flipBanks t s
    if s.prism.gated || stoppedByHoldover s fencePrism then settlePrism s else s

/-- Another tenant's swap comes before: at an earlier boundary, or at the same with a lower number (R103). -/
def swapOutranked (s : State) (t : Nat) : Bool :=
  let at_ := fun u => boundaryTime s (swapFs s u) (swapPoint s u)
  (List.range 16).any fun u =>
    swapPicks s u (swapPoint s u) ≠ [] && (decide (at_ u < at_ t) || (decide (at_ u = at_ t) && decide (u < t)))

/-- MIRROR_SWAP: the last swap grid point at or before now (R288), when it is this tenant's turn (R103). -/
def execMirrorSwap (t : Fin 16) (s : State) : Out :=
  if ctlHalted s || !fwRuns s || !mirrorUp s || swapOutranked s t.val then .next s else fin (swapAt t.val (swapPoint s t.val) s)

/-! Class 2 commands (R100, R117). -/

/-- The next class 2 command of a tenant begins, or is answered at once when it is cancelled or can no longer run. -/
def startNext : Nat → Nat → State → State
  | 0, _, s => s
  | f + 1, t, s =>
    match (s.tenant t).class2 with
    | [] => s
    | c :: l =>
      let rest := modTenant t (fun n => { n with class2 := l }) s
      match reqOf c.cmd, meaningOf c.cmd with
      | some r, some m =>
        if c.denied then startNext f t (denyReply false rest c.cmd)
        else match ownChecks rest c.cmd m with
          | some st => startNext f t (say r c.cmd st [] (m.onRefuse st rest))
          | none => m.start s
      | _, _ => startNext f t rest

/-- The running class 2 command of a tenant ends: with its effect, or at a stopping point with S_DENIED when it is cancelled. -/
def endClass2 (t : Nat) (got : List Byte) (s : State) : State :=
  match (s.tenant t).class2 with
  | [] => s
  | c :: l =>
    match reqOf c.cmd, meaningOf c.cmd with
    | some r, some m =>
      if !c.denied && !m.ready s then s
      else
        let drop := modTenant t (fun n => { n with class2 := l })
        let s := if c.denied then denyReply false (drop (stopClass2 c.cmd s)) c.cmd
          else
            let (s, st, res) := m.effect got s
            say r c.cmd st res (drop s)
        finishClose t (startNext l.length t s)
    | _, _ => s

/-- CLASS_2_COMMAND_DONE: the unit of the running command answers whether the work was done well and what it read back. -/
def execClass2CommandDone (t : Fin 16) (ok : Bool) (readback : BitVec 256) (s : State) : Out :=
  if ctlHalted s || !(fwRuns s || s.sys.hostBoot) then .next s
  else fin (endClass2 t.val (le 1 (bit ok) ++ leBits 32 readback) s)

/-- A PLINK_ENUMERATE or FABRIC_PREPARE that has nothing more to wait for ends. -/
def settleClass2 (s : State) : State :=
  (List.range 16).foldl (fun s t =>
    match (s.tenant t).class2 with
    | c :: _ => (match c.cmd, meaningOf c.cmd with
      | .plinkEnumerate _ _, some m => if m.ready s then endClass2 t [] s else s
      | .fabricPrepare _ _ _ _, some m => if m.ready s then endClass2 t [] s else s
      | _, _ => s)
    | [] => s) s

/-! The control core resumes (R446). -/

/-- Every timed command whose time has passed is marked. -/
def markOverdue (s : State) : State :=
  let mark := fun (p : Pending) => if p.timed && decide (p.due ≤ s.now) then { p with halted := true } else p
  { s with tenants := s.tenants.map fun n => { n with pend := n.pend.map mark } }

/-- The overdue commands of a tenant that wait for no swap take effect, in order of acceptance (R103). -/
def applyOverdue (s : State) (t : Nat) : State :=
  let l := (s.tenant t).pend.filter fun p => p.halted && !waitsForSwap s p.cmd
  let s1 := modTenant t (fun n => { n with pend := n.pend.filter fun p => !l.contains p }) s
  l.foldl (fun s p => issueHeld t p (nowNs s) s) s1

/-- The overdue steps take effect before the other overdue commands (R37). -/
def overdueSteps (s : State) : List (Nat × Pending) :=
  (List.range 16).flatMap fun u => ((s.tenant u).pend.filter fun q => q.halted && isStep q.cmd).map fun q => (u, q)

/-! Packets as bytes (R89, R98, R220). -/

/-- The reply to a packet that its bytes alone refuse; S_BAD_CRC records event 0x0008. -/
def refuseRaw (r : Req) (b : List Byte) (st : Status) (s : State) : State :=
  let s := if st = .badCrc then record 0x0008 r.tenant [(1, r.tenant), (1, viaBit r.via)] s else s
  post r.tenant false (rawReply s r b st) s

/-- A packet that runs at this node as the tenant in TENANT: S_DENIED unless that tenant is open and admitted on the fabric (R89). -/
def runAs (r : Req) (b : List Byte) (s : State) : State :=
  if !admitted s r.tenant .fabric then post r.tenant false (rawReply s r b .denied) s
  else match readPacket r b with
    | .inl st => refuseRaw r b st s
    | .inr i => match meaningOf i with
      | some m => accept i (pktReq r b) m s
      | none => s

/-- A packet with REMOTE set: to its node, or run here when that is this one (R89, R219, R220). -/
def runRemote (r : Req) (b : List Byte) (s : State) : State :=
  let dest := pktDest b
  let origin := BitVec.ofNat 16 (s.plink.addr + 4096 * r.tenant.val)
  if isFenced s fencePlink then refuseRaw r b .fenced s
  else if ownerOf s 0x11 0 ≠ r.tenant then refuseRaw r b .notOwner s
  else if !s.plink.rooted then refuseRaw r b .range s
  else if dest = s.plink.addr then runAs { tenant := pktTenant b, via := .fabric, origin := some origin } b s
  else match routePort s dest with
    | none => refuseRaw r b .range s
    | some p =>
      if stoppedByHoldover s fencePlink || 64 ≤ (s.pl p).queue.length then refuseRaw r b .busy s
      else
        queueCell { isReply := false, dest, origin := s.plink.addr, tenant := r.tenant, bytes := b }
          (modTenant r.tenant (fun n => { n with
            remote := n.remote.filter (fun x => !(x.1 = pktOpcode b && x.2.1 = pktTag b && x.2.2 = 2)) ++ [(pktOpcode b, pktTag b, 0)] }) s)

/-- A taken packet is executed. -/
def runRaw (r : Req) (b : List Byte) (s : State) : State :=
  match readPacket r b with
  | .inl st => refuseRaw r b st s
  | .inr i =>
    if pktRemote b && r.origin.isNone then runRemote r b s
    else match meaningOf i with
      | some m => accept i (pktReq r b) m s
      | none => s

/-- The packet taken first of all that wait. -/
def firstTaken (s : State) : Option (Nat × Arrival) :=
  (s.tenants.flatMap fun n => n.taken).foldl (fun b x => match b with
    | some y => if x.1 < y.1 then some x else some y
    | none => some x) none

/-- Up to `k` packets taken during a halt are executed, in the order in which they came (R100). -/
def runTaken : Nat → State → State
  | 0, s => s
  | k + 1, s =>
    match firstTaken s with
    | none => s
    | some (n, .raw r b) =>
      runTaken k (runRaw r b { s with tenants := s.tenants.map fun x => { x with taken := x.taken.filter fun y => y.1 ≠ n } })
    | some (n, .cmd i) =>
      let s := { s with tenants := s.tenants.map fun x => { x with taken := x.taken.filter fun y => y.1 ≠ n } }
      match reqOf i, meaningOf i with
      | some r, some m => runTaken k (accept i r m s)
      | _, _ => runTaken k s

/-- What the interpreter does when the control core goes on: a pending NMI first, then overdue commands, then the packets taken. -/
def ctlResumed (s : State) : State :=
  let s := if s.wdog.nmi && s.wdog.grace then nmiHandler s else s
  let s := markOverdue s
  (fun s => if storeHeld s 0 then s else runTaken 128 s) ((List.range 16).foldl applyOverdue (applySteps (overdueSteps s) s))

/-- A step after which the control core is no longer halted. -/
def afterHalt (before s : State) : State := if ctlHalted before && !ctlHalted s && s.sys.running then ctlResumed s else s

/-- A write of DBG_RESUME: the halted cores named that the session covers go on (R444). -/
def resumeCores (cores : BitVec 9) (s : State) : State :=
  afterHalt s ((coveredCores s cores).foldl (fun s k => if s.dbg.halted.getLsbD k then setHalted k false s
    else modDbg (fun d => { d with haltReq := setBit d.haltReq k false }) s) s)

def execDbgResume (cores : BitVec 9) (s : State) : Out := fin (resumeCores cores s)

/-- DEBUG_SESSION_EXPIRY: the session's duration ends (R437). -/
def execDebugSessionExpiry (s : State) : Out :=
  if s.dbg.session.any (fun x => x.left.isSome) then fin (afterHalt s (closeSession 1 s)) else .next s

end Sys2Proof.Machine
end

