-- ==== Sys2Proof/Machine/Packets.lean ====
section
/-! DEFINITION. The Eyelet's inbox, outbox, doorbell and rings (04, R84 to R94, R115 to R118), and the command cells of the fabric
(08, R217 to R221). -/

namespace Sys2Proof.Machine

/-- The transport that host boot uses (R421): the one of the straps. -/
def bootVia (s : State) : Nat := if s.sys.bootsel.getLsbD 2 && s.sys.bootsel.getLsbD 1 then 0 else 1

/-- An Eyelet answers accesses of a transport: the transport reaches the engine, which runs, and the tenant is admitted on it and
not closed (R84, R87, R118); in host boot Root's, on the strapped transport. -/
def eyeletUp (s : State) (t : Nat) (via : Transport) : Bool :=
  (s.tenant t).st ≠ .closed && (s.tenant t).transports.getLsbD (viaBit via) &&
    (if s.sys.hostBoot then t = 0 && viaBit via = bootVia s else s.sys.running && viaUp s via)

/-- The interpreter cannot execute a packet yet: the control core is halted (R94, R446), or it waits for the Store (R127). -/
def mustKeep (r : Req) (b : List Byte) (s : State) : Bool :=
  ctlHalted s || (match readPacket r b with
    | .inr i => m0Waits s i
    | .inl _ => s.tenants.any fun n => n.taken ≠ [])

/-- A packet of an open tenant is taken: executed, or kept. In host boot all but
FW_WRITE and FW_COMMIT reply S_BUSY (R421). -/
def takeRaw (r : Req) (b : List Byte) (s : State) : State :=
  if s.sys.hostBoot then
    match readPacket r b with
    | .inl st => refuseRaw r b st s
    | .inr i => match meaningOf i with
      | some m => hostBootSubmit i (pktReq r b) m s
      | none => s
  else if mustKeep r b s then modTenant r.tenant (fun n => { n with taken := n.taken ++ [(takenNext s, .raw r b)] }) s
  else runRaw r b s

/-- The interpreter takes packets of a tenant's inbox and ring now (R92, R94, R117). -/
def canTake (s : State) (t : Nat) : Bool :=
  let n := s.tenant t
  (s.sys.hostBoot || serving s) && n.st = .open && n.replyQ.length ≤ 64 && n.taken.length < 8

/-- The bytes of the transfer that an inbox holds: from its start to the highest byte written (R98). -/
def inboxBytes (n : Tenant) : List Byte := (List.range n.inboxHigh).map fun i => (assoc n.inbox i).getD 0

/-- A packet waiting in the inbox is copied and INBOX_BUSY clears (R90). -/
def takeInbox (t : Nat) (s : State) : State :=
  let n := s.tenant t
  if n.inboxBusy && canTake s t then
    takeRaw { tenant := Fin.ofNat 16 t, via := n.inboxVia } (inboxBytes n)
      (modTenant t (fun n => { n with inboxBusy := false, inboxHigh := 0 }) s)
  else s

/-- SEND (R90, R117); INBOX_FREE falls until the packet is copied (R88). -/
def doSend (t : Nat) (via : Transport) (s : State) : State :=
  let n := s.tenant t
  if !eyeletUp s t via || n.st ≠ .open || n.inboxBusy then s
  else takeInbox t (msixTenant (modTenant t (fun n => { n with inboxBusy := true, inboxVia := via }) s) t)

def execSend (t : Fin 16) (via : Transport) (s : State) : Out := fin (doSend t via s)

/-- TAKE (R91); REPLY falls until the next reply is in the outbox (R88). -/
def doTake (t : Nat) (via : Transport) (s : State) : State :=
  if !eyeletUp s t via then s else deliver t (msixTenant (modTenant t (fun n => { n with outFull := false }) s) t)

def execTake (t : Fin 16) (via : Transport) (s : State) : Out := fin (doTake t via s)

/-- The next command slot, as its bytes stand in host memory: the packet is as long as its PLEN says (R93, R98). -/
def takeSlot (t : Nat) (slot : List Byte) (s : State) : State :=
  let n := s.tenant t
  if !n.ringEn || n.cHead = n.cTail || !canTake s t || !admitted s t .pcie || !viaUp s .pcie then s
  else
    takeRaw { tenant := Fin.ofNat 16 t, via := .pcie } (slot.take (min 1024 (4 * (5 + pktPlen slot))))
      (modTenant t (fun n => { n with cHead := n.cHead + 1 }) s)

/-- PACKET_TAKE: the waiting inbox packet, or the packet of the next ring slot. -/
def execPacketTake (t : Fin 16) (ring : Option (List Byte)) (s : State) : Out :=
  match ring with
  | none => fin (takeInbox t s)
  | some b => fin (takeSlot t b s)

/-- An Eyelet register answers on some transport. -/
def eyeletAny (s : State) (t : Nat) : Bool :=
  eyeletUp s t .pcie || eyeletUp s t .spit0 || eyeletUp s t .spit1

/-- EY_CRING_IDX.TAIL (R93, R117). -/
def setCTail (t : Nat) (tail : Half) (s : State) : State :=
  if (s.tenant t).st ≠ .open then s else modTenant t (fun n => { n with cTail := tail }) s

def execEyCringIdxTailWrite (t : Fin 16) (tail : Half) (s : State) : Out :=
  if eyeletAny s t then fin (setCTail t tail s) else .next s

/-- EY_RRING_IDX.HEAD (R93): the slots it frees take waiting replies. -/
def setRHead (t : Nat) (head : Half) (s : State) : State := deliver t (modTenant t (fun n => { n with rHead := head }) s)

def execEyRringIdxHeadWrite (t : Fin 16) (head : Half) (s : State) : Out :=
  if eyeletAny s t then fin (setRHead t head s) else .next s

/-- EY_RING_CFG (R116). -/
def setRingCfg (t : Nat) (v : Word) (s : State) : State :=
  let n := s.tenant t
  let ok := fun (k : BitVec 4) => 1 ≤ k.toNat && k.toNat ≤ 12
  let c := v.extractLsb' 0 4
  let r := v.extractLsb' 4 4
  if n.ringEn then
    if v.getLsbD 8 then s else deliver t (modTenant t (fun n => { n with ringEn := false }) s)
  else deliver t (modTenant t (fun n => { n with clog2 := c, rlog2 := r, ringEn := v.getLsbD 8 && ok c && ok r }) s)

def execEyRingCfgWrite (t : Fin 16) (value : Word) (s : State) : Out :=
  if eyeletAny s t then fin (setRingCfg t value s) else .next s

/-- Bytes written into the inbox (R90, R117). -/
def inboxWrite (t off : Nat) (bs : List Byte) (s : State) : State :=
  let n := s.tenant t
  if n.st ≠ .open || n.inboxBusy then s
  else modTenant t (fun n => { n with
    inbox := (bs.zipIdx).foldl (fun l x => assocSet l (off + x.2) x.1) n.inbox, inboxHigh := max n.inboxHigh (off + bs.length) }) s

/-- SPIT_CS_N_RISE: an incomplete word is discarded (R86). -/
def execSpitCsNRise (port : Fin 2) (s : State) : Out :=
  .next (modSys (fun y => { y with spiWord := y.spiWord.filter fun x => x.1 ≠ port.val }) s)

/-! Command cells (R217 to R221). -/

/-- A reply that came back (R89): the first waits with its packet's opcode and tag; one whose packet was answered S_TIMEOUT is
discarded, and so is one that no packet waits for. -/
def remoteReply (t : Nat) (b : List Byte) (s : State) : State :=
  let op := pktOpcode b
  let st := peekLe b 2 2
  let tag := peekB 16 b 6
  let final := st ≠ 0x0001 && st ≠ 0x010A
  let at_ := fun (k : Nat) => (s.tenant t).remote.contains (op, tag, k)
  let swap := fun (k : Nat) (s : State) => modTenant t (fun n => { n with
    remote := n.remote.erase (op, tag, k) ++ (if final then [] else [(op, tag, max k 1)]) }) s
  let give := fun (s : State) => post t false { status := .ok, opcode := op, tag, done := 0, raw := b } s
  if final && at_ 1 then give (swap 1 s)
  else if at_ 0 then give (swap 0 s)
  else if at_ 1 then give s
  else if at_ 2 then swap 2 s
  else s

/-- A packet in a cell for this node: taken for the tenant in its TENANT field, or S_DENIED (R89). -/
def cellPacket (c : CmdCell) (s : State) : State :=
  let r : Req := { tenant := pktTenant c.bytes, via := .fabric, origin := some (BitVec.ofNat 16 (c.origin.toNat + 4096 * c.tenant.val)) }
  if !serving s then s
  else if !admitted s r.tenant .fabric then post r.tenant false (rawReply s r c.bytes .denied) s
  else if 8 ≤ (s.tenant r.tenant).taken.length then s
  else takeRaw r c.bytes s

/-- COMMAND_CELL: delivered here, or routed on; the root answers S_RANGE for a packet it has no route for (R218 to R220). -/
def execCommandCell (port : Fin 4) (cell : CmdCell) (s : State) : Out :=
  let dest := cell.dest.toNat
  if !hears s port.val || !cell.used then .next s
  else if s.plink.rooted && dest = s.plink.addr then
    if cell.isReply then fin (remoteReply cell.tenant cell.bytes s) else fin (cellPacket cell s)
  else match routePort s dest with
    | some _ => fin (queueCell { isReply := cell.isReply, dest, origin := cell.origin.toNat, tenant := cell.tenant, bytes := cell.bytes } s)
    | none =>
      if s.plink.root && !cell.isReply then
        let r : Req := { tenant := cell.tenant, via := .fabric, origin := some (BitVec.ofNat 16 (cell.origin.toNat + 4096 * cell.tenant.val)) }
        fin (post 0 false (rawReply s r cell.bytes .range) s)
      else .next s

end Sys2Proof.Machine
end

