-- ==== Sys2Proof/Machine/Cells.lean ====
section
/-! DEFINITION. Prieth frames received, links lost, and the express cells that can end a command of class 2 (08, R206, R210, R222,
R228, R236). -/

namespace Sys2Proof.Machine

/-- PLINK_FRAME: each part that is right is used (R210). -/
def execPlinkFrame (port : Fin 4) (frame : PlFrame) (s : State) : Out :=
  if hears s port.val then fin (settleClass2 (frameRx port.val frame s)) else .next s

/-- COMMA_LOSS: DOWN (R206). -/
def execCommaLoss (port : Fin 4) (s : State) : Out :=
  if (s.pl port.val).st = 0 then .next s else fin (settleClass2 (portDown port.val 3 s))

/-- LINK_TIMEOUT: 437.5 us without a valid time cell (R206). -/
def execLinkTimeout (port : Fin 4) (s : State) : Out :=
  if (s.pl port.val).st = 0 then .next s else fin (settleClass2 (portDown port.val 2 s))

/-- The enumeration of this epoch waits for a port's answer. -/
def awaits (s : State) (p : Nat) (epoch : Half) : Bool := hears s p && enumWaits s p && s.plink.epoch = epoch

/-- ENUM_DONE (R228). -/
def execCellEnumDone (port : Fin 4) (next : BitVec 13) (epoch : Half) (s : State) : Out :=
  if awaits s port.val epoch then fin (settleClass2 (enumDone port.val next.toNat s)) else .next s

/-- ENUM_REJECT (R228): the port is blocked. -/
def execCellEnumReject (port : Fin 4) (reason : Byte) (epoch : Half) (s : State) : Out :=
  if awaits s port.val epoch then fin (settleClass2 (enumStep id (blockPort port.val reason.toNat s))) else .next s

/-- The counts of a subtree added (R236). -/
def addCounts (ready idle failed firstFailed : Nat) (f : FabricRun) : FabricRun :=
  { f with ready := f.ready + ready, idle := f.idle + idle, failed := f.failed + failed, firstFailed := min f.firstFailed firstFailed }

/-- PREPARE_ACK of a downstream port (R236). -/
def execCellPrepareAck (port : Fin 4) (fid : Byte) (ready idle failed firstFailed : Half) (s : State) : Out :=
  let q := s.pl port.val
  let mine := s.plink.fabric.any fun f => f.fid = fid.toNat && !f.prepared
  if !hears s port.val || q.role ≠ 2 || q.acked || !mine then .next s
  else
    let s := modPl port.val (fun q => { q with acked := true })
      { s with plink := { s.plink with
        fabric := s.plink.fabric.map (addCounts ready.toNat idle.toNat failed.toNat firstFailed.toNat) } }
    fin (settleClass2 (settlePrepare s))

/-- PREPARE_TIMEOUT: the root's reply 20 ms after acceptance, whatever has come (R236). -/
def execPrepareTimeout (s : State) : Out :=
  if s.plink.fabric.any fun f => f.by_ ≠ 16 && !f.prepared then
    fin (settleClass2 { s with plink := { s.plink with fabric := s.plink.fabric.map fun f => { f with prepared := true } } })
  else .next s

end Sys2Proof.Machine
end

