-- ==== Sys2Proof/Machine/Clocks.lean ====
section
/-! DEFINITION. Clocks lost and returned (03, R70 to R76, Table 3.6). -/

namespace Sys2Proof.Machine

/-- The ports in master role on MCG m. -/
def mcgPorts (s : State) (m : Nat) : List Nat :=
  (List.range 8).filter fun p => (s.aport p).mcg = m && (match (s.aport p).cfg with | some c => isMaster c | none => false)

/-- Every master port. -/
def allMasters (s : State) : List Nat := (List.range 4).flatMap (mcgPorts s)

/-- Audio ports lose their clock. -/
def portsLost (l : List Nat) (s : State) : State := l.foldl (fun s p => portClockLost p s) s

/-- Audio ports have their clock again. -/
def portsBack (l : List Nat) (s : State) : State := l.foldl (fun s p => portClockBack p s) s

/-- Prism, Mirror, Lens cores, matrix and Store port stop with CORE, and the port FIFOs empty (R74); fades that a change of power mode waits for end in silence. -/
def coreLost (s : State) : State :=
  let s := dropPortFifos (emptyPrism (settlePrism (endAccesses (holdDomains [2] s))))
  fadesOver (modPrism (fun m => { m with sinkFades := [], srcFades := [] }) s)

/-- TIME in reset: the coarse counter carries the Last; pins, FSGs, MCGs, Ethernet and Prieth stop. -/
def timeLost (s : State) : State :=
  let l := allMasters s
  let s := { s with trig := { s.trig with stoppedAt := s.trig.stoppedAt.orElse fun _ => some s.sys.aonTicks } }
  let s := freezePins (modLast (fun l => { l with coarse := true }) (holdDomains ([3, 4, 5, 6, 7] ++ l.map fun p => 8 + p) s))
  let s := portsLost l s
  let s := (List.range 4).foldl (fun s p => plLost p s) s
  (List.range 4).foldl (fun s p => ethLost p s) s

/-- Table 3.6, on loss of the clock of domain d. -/
def clockLoss (d : Nat) (s : State) : State :=
  if d = 0 then resetDomains s
  else if d = 1 || d = 25 then
    let s := evrecStop (flashCut (cutCommit s))
    let s := nvmOff (resetDbg (closeSession 2 s))
    holdDomains [1, 25] (modSys (fun y => { y with running := false, spiWord := [] }) s)
  else if d = 2 then coreLost s
  else if d = 3 then timeLost s
  else if d < 8 then
    let m := d - 4
    let s1 := portsLost (mcgPorts s m) (holdDomains [d] (modMcg m (fun x => { x with clockOk := false }) s))
    if (s.mcg m).mode = 2 then record 0x0506 (ownerOf s 0x0A m) [(1, m)] s1 else s1
  else if d < 16 then portsLost [d - 8] (holdDomains [d] s)
  else if d < 20 then ethLost (d - 16) s
  else if d < 24 then plLost (d - 20) s
  else holdDomains [d] s

/-- A monitor declares the clock of domain d lost (R70, R76). -/
def declareLost (count : Nat) (s : State) (d : Nat) : State :=
  settleClass2 (record 0x0B20 engineTag [(1, d), (4, count)]
    (clockLoss d (modSys (fun y => { y with
      clkOk := setBit y.clkOk d false, lost := setBit y.lost d true, stopped := setBit y.stopped d false }) s)))

/-- A loss that a monitor can declare: the clock counted as in range, and its monitor watches it (Table 3.2). -/
def losable (s : State) (d : Nat) : Bool := s.sys.clkOk.getLsbD d && monitored s d

/-- The PLL that drives a domain, by its bit of SYS_PLL_STATE.LOCK (Table 3.2), and the domains of a PLL. -/
def pllOf (d : Nat) : Option Nat :=
  if d = 3 then some 0 else if d = 1 || d = 25 then some 1 else if d = 2 then some 2
  else if 16 ≤ d && d < 20 then some 3 else if d = 24 then some 4 else none
def pllDomains (k : Nat) : List Nat := (List.range 26).filter fun d => pllOf d = some k

/-- The lock detector of a PLL falls: the clock of every domain it drives is declared lost (R70); no count is measured, so the event's is free. -/
def unlock (k : Nat) (s : State) : State :=
  (pllDomains k).foldl (fun s d =>
    if losable s d then
      let (v, s) := drawFree s
      declareLost (v.toNat % 2 ^ 32) s d
    else s) (modSys (fun y => { y with pllLock := setBit y.pllLock k false }) s)

/-- CLOCK_LOST: a clock fails, a window counts it out of range, or its PLL unlocks (R70); an idle SPIT or JTAG clock is normal, and only its
activity bit falls (Table 3.2). -/
def execClockLost (domain : Fin 29) (how : ClockLoss) (s : State) : Out :=
  let d := domain.val
  match how with
  | .stops => .next (if d < 26 && s.sys.clkOk.getLsbD d then modSys (fun y => { y with stopped := setBit y.stopped d true }) s else s)
  | .counts n =>
    if 26 ≤ d then .next (modSys (fun y => { y with clkOk := setBit y.clkOk d false }) s)
    else if losable s d then fin (declareLost n.toNat s d)
    else .next s
  | .unlocks => match pllOf d with
    | some k => if s.sys.pllLock.getLsbD k then fin (unlock k s) else .next s
    | none => .next s

/-- What a start after the return of AON_FAST or CTL finds: the straps and the reference as they were, and self-checks that pass as
they did before (log entry 32). -/
def sameEnv (s : State) : StartEnv :=
  { straps := s.sys.bootsel, refclk := if s.sys.refOk then some s.sys.refclkHz else none, entropyOk := !isFenced s fenceEntropy }

/-- HOLDOVER keeps the domain stopped (R393). -/
def holdStopped (s : State) (d : Nat) : Bool :=
  s.pwr.mode = .holdover && s.pwr.entering ≠ .holdoverFades &&
    (if d < 16 then true else if d < 20 then !s.pwr.keep.getLsbD 1 else if d < 24 then !s.pwr.keep.getLsbD 2 else true)

/-- CORE released: Prism, Mirror and Lens configuration are restored and the audio ramps back (R301, R331). -/
def coreBack (s : State) : State :=
  let s := freeDomains [2] s
  if stoppedByHoldover s fencePrism then s
  else restartCores (if s.prism.gated then s else resumePrism s)

/-- TIME restarts: the counter goes on from the coarse counter, pins and FSGs are restored, ports restart (R27, R204). -/
def timeBack (s : State) : State :=
  let l := allMasters s
  let lanes := ([16, 17, 18, 19, 20, 21, 22, 23] : List Nat).filter fun d => !holdStopped s d
  let s := freeDomains ([3, 4, 5, 6, 7] ++ (l.map fun p => 8 + p) ++ lanes) (loadCounter s)
  let s := if stoppedByHoldover s fenceTrig then s else restorePins (timeDown s) s
  portsBack (l.filter fun p => domainUp s (8 + p)) s

/-- Table 3.6, on return of the clock of domain d. -/
def clockBack (d : Nat) (s : State) : State :=
  if d = 0 || d = 1 || d = 25 then
    let s1 := resetDomains s
    if canStart s1 then boot .warm (sameEnv s) s1 else s1
  else if d = 2 then coreBack s
  else if d = 3 then timeBack s
  else if d < 8 then
    let s := freeDomains [d] (modMcg (d - 4) (fun x => { x with clockOk := x.mode = 2 }) s)
    portsBack ((mcgPorts s (d - 4)).filter fun p => domainUp s (8 + p)) s
  else if d < 16 then
    let s := freeDomains [d] s
    portsBack ([d - 8].filter fun p => domainUp s (8 + p)) s
  else if holdStopped s d then s
  else freeDomains [d] s

/-- The PLL that drives a domain is locked; a domain that none drives needs none (R71). -/
def lockedFor (s : State) (d : Nat) : Bool := (pllOf d).all fun k => s.sys.pllLock.getLsbD k

/-- CLOCK_RETURNED: the edges of a clock are back, and with the second one the fence of R67 releases; or its PLL has locked; or two windows counted
a lost clock in range, and it is declared returned when its PLL is locked (R71). While the firmware does not run, only the return of AON_FAST, CTL or
NVM acts at once. -/
def execClockReturned (domain : Fin 29) (how : ClockReturn) (s : State) : Out :=
  let d := domain.val
  match how with
  | .edges => .next (modSys (fun y => { y with stopped := setBit y.stopped d false, reqFence := setBit y.reqFence d false }) s)
  | .locks => .next (match pllOf d with
    | some k => modSys (fun y => { y with pllLock := setBit y.pllLock k true }) s
    | none => s)
  | .inRange us =>
    if 26 ≤ d then .next (modSys (fun y => { y with clkOk := setBit y.clkOk d true }) s)
    else if !s.sys.lost.getLsbD d || !lockedFor s d then .next s
    else
      let s := modSys (fun y => { y with
        clkOk := setBit y.clkOk d true, lost := setBit y.lost d false, reqFence := setBit y.reqFence d false }) s
      let s := record 0x0B21 engineTag [(1, d), (4, us.toNat)] s
      fin (if s.sys.running || d < 2 || d = 25 then clockBack d s else s)

/-- REFCLK_LOST: the PLLs locked to it run on with frozen control (R75); in RC fallback none is. -/
def execRefclkLost (s : State) : Out :=
  if !s.sys.refOk || s.sys.pllLock = 0 then .next s
  else if s.last.rcFallback then .next (modSys (fun y => { y with refOk := false }) s)
  else fin (record 0x0B22 engineTag [(1, s.last.servo.code)] (modSys (fun y => { y with refOk := false, frozen := true }) s))

/-- REFCLK_RETURNED: the PLLs relock. In RC fallback they stay on the RC until a start (R75). -/
def execRefclkReturned (s : State) : Out :=
  if s.sys.refOk || s.sys.pllLock = 0 then .next s
  else if !s.sys.frozen then .next (modSys (fun y => { y with refOk := true }) s)
  else fin (record 0x0B23 engineTag [] (modSys (fun y => { y with refOk := true, frozen := false }) s))

/-- CRYSTAL_FAIL: AON_SLOW runs from its RC until a cold start (R72). -/
def execCrystalFail (s : State) : Out :=
  if s.sys.slowRc || s.pwr.mode = .off then .next s
  else fin (record 0x0B25 engineTag [] (modSys (fun y => { y with slowRc := true }) s))

end Sys2Proof.Machine
end

