-- ==== Sys2Proof/Machine/Flags.lean ====
section
/-! DEFINITION. Status words: every register of the block as a read finds it (Tables 2.10, 3.4, 4.12, 5.8, 7.6, 8.10, 9.9, 10.14,
13.11, 14.9, 15.8, 16.9, 17.8). A field marked reserved reads zero (R12), and so does an address without a register. -/

namespace Sys2Proof.Machine

/-- A value in the `n` bits of a word from bit `lo`. -/
def fld (lo n v : Nat) : Nat := v % 2 ^ n * 2 ^ lo

/-- A signed value in the `n` bits of a word from bit `lo`. -/
def fldInt (lo n : Nat) (v : Int) : Nat := fld lo n (v % (2 ^ n : Nat)).toNat

/-- SYS (Tables 3.4, 5.8, 16.9). -/
def sysWord (s : State) (off : Nat) : Nat :=
  if off = 0x100 then (clkWord s).toNat
  else if off = 0x104 then s.sys.rst.toNat
  else if off = 0x108 then pllBits s
  else if off = 0x110 then shadowOf s 1 % 2 + fld 8 8 (coreMax s / 100)
  else if off = 0x120 then
    s.sys.bootsel.toNat + fld 3 1 (bit s.sys.slotB) + fld 4 1 (bit s.sys.fallback) +
      fld 5 2 (match s.sys.kind with | .cold => 0 | .warm => 1 | .watchdog => 2 | .wake => 3) + fld 7 1 (bit s.sys.retained) +
      fld 8 2 (levelOf s)
  else if off = 0x124 then s.sys.fenced.toNat
  else if off = 0x128 then rollbackCount (shadowOf s 8) % 128
  else 0

/-- LAST (Table 2.10). -/
def lastWord (s : State) (off : Nat) : Nat :=
  let l := s.last
  if off = 0x000 then
    l.servo.code + fld 2 1 (bit l.valid) + fld 3 1 (bit l.rcFallback) + fld 4 1 (bit l.slew.isSome) + fld 8 8 l.src.toNat +
      fld 16 8 l.domain.toNat
  else if off = 0x004 then fldInt 0 32 (rateNow l)
  else if off = 0x008 then fldInt 0 32 l.offset
  else if off = 0x00C then fldInt 0 32 (l.offset / 2 ^ 32)
  else 0

/-- The output pulse of a reflex path runs, or its guard of 4 ns (R186). -/
def pathBusy (s : State) (x : Path) : Bool := x.mode ≠ 0 && (s.pin x.outPin).reflexEnd.any fun e => decide (elapsedQ s < e + 16)

/-- The latest edge of an output pin has happened: a reflex pulse begins after the edge that passed. -/
def edgeDone (s : State) (n : Pin) : Bool := n.lastEdge.all fun e => decide (e < elapsedQ s + 8)

/-- The ball level now, and whether an output pulse is active (Table 7.6). -/
def levelNow (s : State) (n : Pin) : Bool := if n.mode = 6 && !edgeDone s n then pinLevel n false else n.level
def pulsing (s : State) (n : Pin) : Bool := n.falls ≠ [] && edgeDone s n

/-- TRIG (Table 7.6). -/
def trigWord (s : State) (off : Nat) : Nat :=
  if off < 0x80 then
    let n := s.pin (off / 4)
    n.mode % 8 + fld 3 1 (bit (levelNow s n)) + fld 4 1 (bit (pulsing s n)) + fld 5 5 n.reports.length + fld 10 5 n.actions.length
  else if 0x100 ≤ off && off < 0x140 then
    let x := s.path ((off - 0x100) / 4)
    x.mode % 4 + fld 2 1 (bit (gateAt s x s.now).1) + fld 3 1 (bit (pathBusy s x)) + fldInt 4 12 ((trimAt x s.now).1 / 250)
  else if 0x200 ≤ off && off < 0x220 then
    let f := s.fsg ((off - 0x200) / 4)
    fsgCode f + fld 2 1 (bit (f.pulseEnd.any fun e => decide (elapsedQ s < e)))
  else 0

/-- APORT (Table 9.9). -/
def aportWord (s : State) (off : Nat) : Nat :=
  if off < 0x20 then
    let q := s.aport (off / 4)
    q.st % 8 + fld 3 1 (match q.cfg with | some c => c.role.toNat | none => 0) + fld 4 2 q.rate + fld 6 7 q.inp.frames.length +
      fld 13 7 q.outp.frames.length + fld 20 1 (bit q.locked)
  else if 0x100 ≤ off && off < 0x110 then
    let k := (off - 0x100) / 4
    let m := s.mcg k
    m.mode % 4 + fld 2 1 m.family + fld 3 2 m.mult + fld 5 1 (bit (mcgClockOk s k))
  else 0

/-- PRISM (Table 10.14). -/
def prismWord (s : State) (off : Nat) : Nat :=
  if off < 0x200 then
    let b := off / 4
    let q := s.bus b
    q.range % 4 + fld 2 1 (bit q.auto) + fld 4 9 (contribs s b) + fld 16 2 q.rate + fld 18 1 q.family + fld 24 4 (ownerOf s 0x03 b)
  else 0

/-- MIRROR (Table 10.14). -/
def mirrorWord (s : State) (off : Nat) : Nat :=
  if off < 0x40 then
    let t := off / 4
    let m := (s.tenant t).mirror
    bit m.bankB + fld 1 1 (bit (mirrorLoading (s.tenant t))) + fld 2 1 (bit (ramping s t)) + fld 16 13 (min 4096 (mirrorStaged s t))
  else 0

/-- PLINK (Table 8.10). -/
def plinkWord (s : State) (off : Nat) : Nat :=
  if off < 0x10 then
    let q := s.pl (off / 4)
    q.st % 4 + fld 2 2 q.role + fld 4 3 q.rateTx + fld 8 3 q.rateRx + fld 16 16 q.peer.toNat
  else if off = 0x010 then
    let k := s.plink
    k.addr % 4096 + fld 12 1 (bit k.rooted) + fld 13 1 (bit k.root) + fld 16 5 k.depth +
      fld 24 8 (match k.armed with | some a => a.fid | none => 0)
  else 0

/-- EVREC (Table 13.11). -/
def evrecWord (s : State) (off : Nat) : Nat :=
  let e := s.evrec
  if off = 0x000 then e.cHead.toNat
  else if off = 0x004 then (cTail e).toNat
  else if off = 0x008 then e.bHead.toNat
  else if off = 0x00C then (bTail e).toNat
  else if off = 0x010 then e.cState % 4 + fld 2 6 (dumpBits s) + fld 8 7 e.queue.length
  else 0

/-- A record of channel C is being programmed (R355). -/
def cBusy (s : State) : Bool := s.evrec.cState = 2 && s.evrec.queue ≠ []

/-- A running command of class 2 erases or programs the flash: FW_COMMIT, EVREC_CONFIG or EVREC_ERASE (R420, Table 13.8). -/
def flashWork (s : State) : Bool :=
  s.tenants.any fun n => match n.class2.head? with
    | some c => (match c.cmd with
      | .fwCommit _ _ | .evrecConfig _ _ _ _ _ | .evrecErase _ _ => true
      | _ => false)
    | none => false

/-- NVM (Table 13.11): an erase or a dump is suspended while a record of channel C is programmed (R355); the size is known from the SFDP table
once the recorder has read it (R352). -/
def nvmWord (s : State) (off : Nat) : Nat :=
  if off = 0x000 then
    let long := s.evrec.eraseQ ≠ [] || s.evrec.dump.isSome
    bit (s.sys.bootsel.getLsbD 0) + fld 1 1 (bit (long || cBusy s || flashWork s)) + fld 2 1 (bit (long && cBusy s)) +
      fld 8 5 s.evrec.flash.sizeLog2
  else 0

/-- WDOG (Table 14.9). -/
def wdogWord (s : State) (off : Nat) : Nat :=
  let w := s.wdog
  if off = 0x000 then
    bit (wdSrc s) + fld 1 3 (wdFrac s) + fld 4 2 (shadowOf s 4) + fld 6 1 (bit w.locked) + fld 7 1 (bit w.armed) +
      fld 8 1 (bit (wdInWindow s)) + fld 9 1 (bit (wdFrozen s)) + fld 10 1 (bit w.grace) + fld 16 8 w.count
  else if off = 0x004 then w.period % 8192
  else if off = 0x008 then w.c % 2 ^ 26
  else 0

/-- HOLD (Table 15.8). -/
def holdWord (s : State) (off : Nat) : Nat :=
  let p := s.pwr
  if off = 0x000 then
    p.mode.code % 4 + fld 2 1 (bit p.mainOk) + fld 3 1 (bit p.holdEn) + fld 4 1 (bit p.chgEn) + fld 5 1 (bit (holdArmed s)) +
      fld 6 1 (bit p.hbOk) + fld 7 1 (bit (p.sw ≠ 0)) + fld 16 12 p.sw.toNat
  else if off = 0x004 then min 0xFFFF (stackMv s) + fldInt 16 16 p.current
  else if 0x010 ≤ off && off < 0x040 then
    let i := (off - 0x010) / 4
    if i < p.cells then nth p.volts i % 2 ^ 15 else 0
  else 0

/-- KEYS (Table 5.8). -/
def keysWord (s : State) (off : Nat) : Nat :=
  if off = 0x000 then s.store.drawn.toNat
  else if 0x100 ≤ off && off < 0x200 then
    let k := (off - 0x100) / 4
    ((List.range 4).map fun i => fld (8 * i) 5 (nth s.store.owner (4 * k + i)).toNat).sum
  else 0

/-- DBG (Table 17.8). The program counter of a core that is not halted reads its reset value until the core has halted once, and after that has
no stated value (R13, log entry 3). -/
def dbgWord (s : State) (off : Nat) : Nat :=
  let d := s.dbg
  let pc := fun k (now width : Nat) =>
    if d.halted.getLsbD k then now % 2 ^ width
    else if d.seenHalt.getLsbD k then (Config.freeBits s.free).toNat % 2 ^ width else 0
  if off = 0x000 then
    (match d.session with
      | some x => 1 + fld 1 2 x.source + fld 3 5 x.scope
      | none => 0) + fld 8 9 d.halted.toNat + fld 17 1 (bit d.extestStart)
  else if off = 0x004 then bit d.wdFreeze
  else if off = 0x080 then pc 0 d.ctlPc.toNat 32
  else if 0x100 ≤ off && off < 0x180 then
    let n := (off - 0x100) / 16
    match off % 16 / 4 with
    | 0 => pc (1 + n) (s.core n).pc 13
    | 1 => (nth d.sel n).toNat
    | 2 => (selRead (s.core n) (nth d.sel n).toNat).toNat
    | _ => 0
  else 0

/-- EY_STATUS (Table 4.12). -/
def eyStatus (s : State) (t : Nat) : Nat :=
  let n := s.tenant t
  n.st.code + fld 2 2 (levelOf s) + fld 4 1 (bit n.inboxBusy) + fld 5 1 (bit n.outFull) + fld 6 1 (bit n.ringEn) +
    fld 7 1 (bit (ownerOf s 0x08 0 = t)) + fld 8 1 (bit s.last.valid) + fld 9 2 s.last.servo.code + fld 16 7 (timedCount n)

/-- An Eyelet (Table 4.12): word actions read zero, and EY_TIME_LATCH its servo state; the latch itself is R51's. -/
def eyWord (s : State) (t off : Nat) : Nat :=
  let n := s.tenant t
  if 0x100 ≤ off && off < 0x500 then unle ((List.range 4).map fun i => (assoc n.inbox (off - 0x100 + i)).getD 0)
  else if 0x500 ≤ off && off < 0x900 then peekLe n.outbox (off - 0x500) 4
  else match off with
  | 0x000 => 0x7416 + fld 16 8 Config.revision.toNat + fld 24 4 t
  | 0x004 => eyStatus s t
  | 0x008 => n.irqEn.toNat
  | 0x00C => (irqOf s t).toNat
  | 0x020 => n.cringBase.toNat % 2 ^ 32
  | 0x024 => n.cringBase.toNat / 2 ^ 32
  | 0x028 => n.rringBase.toNat % 2 ^ 32
  | 0x02C => n.rringBase.toNat / 2 ^ 32
  | 0x030 => n.clog2.toNat + fld 4 4 n.rlog2.toNat + fld 8 1 (bit n.ringEn)
  | 0x034 => n.cTail.toNat + fld 16 16 n.cHead.toNat
  | 0x038 => n.rHead.toNat + fld 16 16 n.rTail.toNat
  | 0xC00 => s.last.servo.code
  | 0xC04 => n.latch.sHi.toNat
  | 0xC08 => n.latch.sLo.toNat
  | 0xC0C => n.latch.ns.toNat
  | 0xC10 => n.latch.frac.toNat
  | _ => 0

/-- The 64 KiB block of a register address, and the offset in it. -/
def blockOf (a : Nat) : Nat := a / 65536 % 16
def offsetOf (a : Nat) : Nat := a % 65536

/-- The word at a register address. -/
def regWord (s : State) (a : Nat) : Word :=
  let off := offsetOf a
  BitVec.ofNat 32 (match blockOf a with
    | 0x0 => sysWord s off
    | 0x1 => lastWord s off
    | 0x2 => trigWord s off
    | 0x3 => aportWord s off
    | 0x4 => prismWord s off
    | 0x5 => mirrorWord s off
    | 0x7 => plinkWord s off
    | 0x8 => evrecWord s off
    | 0x9 => wdogWord s off
    | 0xA => holdWord s off
    | 0xB => keysWord s off
    | 0xC => nvmWord s off
    | 0xE => dbgWord s off
    | 0xF => eyWord s (off / 4096) (off % 4096)
    | _ => 0)

/-- The clock domain that holds a register (R57; log entry 34, which says which blocks the spec does not place: KEYS among them, in CORE beside the
Store whose tags and key slots it shows). -/
def regDomain (a : Nat) : Nat :=
  let off := offsetOf a
  match blockOf a with
  | 0x1 | 0x2 => 3
  | 0x3 => if off < 0x20 then 8 + off / 4 else if 0x100 ≤ off && off < 0x110 then 4 + (off - 0x100) / 4 else 2
  | 0x4 | 0x5 | 0xB => 2
  | 0x7 => if off < 0x10 then 20 + off / 4 else 1
  | 0x8 | 0xE | 0xF => 1
  | 0xC => 25
  | 0x0 | 0x9 | 0xA => 0
  | _ => 2

/-- The FENCED bit of the unit whose registers a block holds (R69, Table 16.6). -/
def regFence (a : Nat) : Option Nat :=
  match blockOf a with
  | 0x1 => some fenceLast
  | 0x2 => some fenceTrig
  | 0x3 => if 0x100 ≤ offsetOf a && offsetOf a < 0x110 then some fenceMcg else some fenceAport
  | 0x4 => some fencePrism
  | 0x5 => some fenceMirror
  | 0x7 => some fencePlink
  | 0x8 | 0xC => some fenceEvrec
  | 0xA => some fenceShank
  | 0xE => if 0x100 ≤ offsetOf a && offsetOf a < 0x180 then some (fenceLens ((offsetOf a - 0x100) / 16)) else none
  | _ => none

end Sys2Proof.Machine
end

