-- ==== Sys2Proof/Machine/Registers.lean ====
section
/-! DEFINITION. Register accesses: the writes of Tables 4.12 and 17.8, SPI words (R86), the register bridge with its hold and its
fence (R63 to R69), and DBG_AP (R439 to R441). -/

namespace Sys2Proof.Machine

/-- EY_TIME_LATCH: a read latches the Last of this cycle into the tenant's latched words and returns the servo state (R51). -/
def latchTime (t : Nat) (s : State) : State :=
  modTenant t (fun n => { n with latch := reportStamp s, latchServo := BitVec.ofNat 2 s.last.servo.code }) s

def execEyTimeLatch (t : Fin 16) (s : State) : Out := if eyeletAny s t then .next (latchTime t s) else .next s

/-! Writes. -/

/-- The transport a write made inside the engine for a tenant counts as: the first that the tenant is admitted on (log entry 34). -/
def ownVia (s : State) (t : Nat) : Transport :=
  let b := (s.tenant t).transports
  if b.getLsbD 0 then .pcie else if b.getLsbD 1 then .spit0 else if b.getLsbD 2 then .spit1 else .fabric

/-- A ring base, ignored while the rings are on (R116). -/
def setBase (t : Nat) (f : Tenant → Tenant) (s : State) : State := if (s.tenant t).ringEn then s else modTenant t f s

/-- The low or the high word of a ring base; bits [9:0] are reserved. -/
def lowBase (b : DWord) (v : Word) : DWord := (b >>> 32).setWidth 32 ++ (v &&& 0xFFFFFC00)
def highBase (b : DWord) (v : Word) : DWord := v ++ b.setWidth 32

/-- A word written to Eyelet t over a transport (Table 4.12); TAKE is acted on before SEND (R90). -/
def eyWrite (t off : Nat) (v : Word) (via : Transport) (s : State) : State :=
  if 0x100 ≤ off && off < 0x500 then inboxWrite t (off - 0x100) (leBits 4 v) s
  else match off with
  | 0x008 => modTenant t (fun n => { n with irqEn := v.setWidth 6 }) s
  | 0x010 =>
    let s := if v.getLsbD 1 then doTake t via s else s
    if v.getLsbD 0 then doSend t via s else s
  | 0x020 => setBase t (fun n => { n with cringBase := lowBase n.cringBase v }) s
  | 0x024 => setBase t (fun n => { n with cringBase := highBase n.cringBase v }) s
  | 0x028 => setBase t (fun n => { n with rringBase := lowBase n.rringBase v }) s
  | 0x02C => setBase t (fun n => { n with rringBase := highBase n.rringBase v }) s
  | 0x030 => setRingCfg t v s
  | 0x034 => setCTail t (v.setWidth 16) s
  | 0x038 => setRHead t (v.setWidth 16) s
  | 0x040 => if t = 0 && !wdSrc s then wdJudge v s else s
  | _ => s

/-- A word written to the DBG block (Table 17.8); a bit outside the session's scope has no effect (R443). -/
def dbgWrite (off : Nat) (v : Word) (s : State) : State :=
  if off = 0x004 then
    if s.dbg.session.any (fun x => x.scope = 16) then modDbg (fun d => { d with wdFreeze := v.getLsbD 0 }) s else s
  else if off = 0x008 then requestHalt (v.setWidth 9) s
  else if off = 0x00C then resumeCores (v.setWidth 9) s
  else if off = 0x010 then stepCores (v.setWidth 9) s
  else if 0x100 ≤ off && off < 0x180 then
    let n := (off - 0x100) / 16
    match off % 16 / 4 with
    | 1 => if scopeCovers s (1 + n) then modDbg (fun d => { d with sel := updAt d.sel n fun _ => v.setWidth 7 }) s else s
    | 2 => lcnDataWrite n v s
    | _ => s
  else s

/-- A word written to a register inside the engine: every block but DBG and the Eyelets is read only. -/
def regPut (a : Nat) (v : Word) (s : State) : State :=
  match blockOf a with
  | 0xE => dbgWrite (offsetOf a) v s
  | 0xF => eyWrite (offsetOf a / 4096) (offsetOf a % 4096) v (ownVia s (offsetOf a / 4096)) s
  | _ => s

/-- The side effect of a read that is not a peek: EY_TIME_LATCH latches (R51, R441). -/
def readEffect (a : Nat) (s : State) : State :=
  if blockOf a = 0xF && offsetOf a % 4096 = 0xC00 then
    latchTime (offsetOf a / 4096) s
  else s

/-! The register bridge. -/

/-- The inbox and the outbox of an Eyelet, which take accesses of 8, 16 and 32 bits (R14), and the inbox alone. -/
def inMail (a : Nat) : Bool := blockOf a = 0xF && 0x100 ≤ offsetOf a % 4096 && offsetOf a % 4096 < 0x900
def inInbox (a : Nat) : Bool := blockOf a = 0xF && 0x100 ≤ offsetOf a % 4096 && offsetOf a % 4096 < 0x500

/-- The bytes of an access that are fewer than a word, and lie in one word at an address of their own size (R14). -/
def narrow (a n : Nat) : Bool := (n = 1 || n = 2) && a % n = 0

/-- A command whose register write the bridge held has its effect and its reply (R64, R65). -/
def finishJob (j : HeldCmd) (s : State) : State :=
  match reqOf j.cmd, meaningOf j.cmd with
  | some r, some m =>
    let (s, st, res) := m.effect j.copied s
    post j.tenant j.timed (mkReply r (opInfo j.cmd).op st (nowNs s) res) s
  | _, _ => s

/-- An access has its effect and is answered; one that is not an aligned word does nothing and reads zero (R15), but for one of 8 or 16 bits
in an inbox or outbox (R14). -/
def complete (h : HeldAccess) (s : State) : State :=
  let a := h.addr.toNat
  match h.job with
  | some j => finishJob j s
  | none =>
  if narrow a h.size.toNat && inMail a then
    if h.write then
      answer h.who false true 0 (if inInbox a then
        inboxWrite (offsetOf a / 4096) (offsetOf a % 4096 - 0x100) (leBits h.size.toNat h.value) s else s)
    else answer h.who false false (BitVec.ofNat 32 ((regWord s (a - a % 4)).toNat / 256 ^ (a % 4) % 256 ^ h.size.toNat * 256 ^ (a % 4))) s
  else if h.size ≠ 4 || a % 4 ≠ 0 then answer h.who false h.write 0 s
  else if h.write then answer h.who false true 0 (regPut a h.value s)
  else
    let v := regWord s a
    answer h.who false false v ({ (if h.consume then readEffect a s else s) with free := s.free + 1 })

/-- The bridge at an access of a matrix master: S_FENCED at once for a fenced unit, held while the domain does not acknowledge,
else complete (R63, R64, R69). -/
def bridge (h : HeldAccess) (s : State) : State :=
  if (regFence h.addr.toNat).any (isFenced s) then answer h.who true h.write 0 s
  else if acks s h.domain then complete h s
  else modSys (fun y => { y with held := y.held ++ [h] }) s

/-- A debug access at the bridge: it waits while another access occupies S2 (R125). -/
def bridgeDebug (h : HeldAccess) (s : State) : State :=
  if s.sys.held = [] then bridge h s else modSys (fun y => { y with held := y.held ++ [{ h with queued := true }] }) s

/-- The access that the bridge holds for a domain, within its 10 us or in its fence wait. -/
def heldFor (s : State) (d : Nat) : Option HeldAccess := s.sys.held.find? fun h => h.domain = d && !h.queued

/-- An access leaves the bridge. -/
def unhold (h : HeldAccess) (s : State) : State := modSys (fun y => { y with held := y.held.erase h }) s

/-- The access that waited for the bridge has it now. -/
def wakeBridge (s : State) : State :=
  match s.sys.held with
  | [h] => if h.queued then bridge { h with queued := false } (modSys (fun y => { y with held := [] }) s) else s
  | _ => s

/-- REGISTER_HOLD_TIMEOUT: the fence on the target's request flops, and the wait of 1 us (R65). -/
def execRegisterHoldTimeout (domain : Fin 29) (s : State) : Out :=
  match heldFor s domain.val with
  | some h =>
    if h.waiting then .next s
    else .next (modSys (fun y => { y with
      reqFence := setBit y.reqFence domain.val true
      held := y.held.map fun x => if x = h then { h with waiting := true } else x }) s)
  | none => .next s

/-- Event 0x0B24 for an access that the bridge gives up. -/
def tellHeld (h : HeldAccess) (s : State) : State :=
  if h.job.isSome then tellNoClock h.domain s else record 0x0B24 engineTag [(1, h.domain), (4, h.addr.toNat)] s

/-- FENCE_WAIT_END: the access ends as S_NO_CLOCK and never applies (R65 to R67). -/
def execFenceWaitEnd (domain : Fin 29) (s : State) : Out :=
  match heldFor s domain.val with
  | some h =>
    if !h.waiting then .next s
    else fin (wakeBridge (giveUp h (tellHeld h (unhold h s))))
  | none => .next s

/-- REGISTER_ACKNOWLEDGE: the access completed, within the hold or the fence wait (R64, R65); its fence is taken away. -/
def execRegisterAcknowledge (domain : Fin 29) (s : State) : Out :=
  match heldFor s domain.val with
  | some h =>
    fin (wakeBridge (complete h (modSys (fun y => { y with reqFence := setBit y.reqFence domain.val false }) (unhold h s))))
  | none => .next s

/-! The matrix as the debugger and the control core use it. -/

/-- The debug access before has not ended: BUSY of Table 17.3. -/
def apBusy (s : State) : Bool := s.dbg.apWait.isSome || s.sys.held.any fun h => h.who = .debug

/-- A register lies outside the scope of a debug access (Table 17.4): another tenant's Eyelet, and the program counter and registers
of a core that the scope does not cover. -/
def outOfScope (s : State) (scope a : Nat) : Bool :=
  scope ≠ 16 &&
    (match blockOf a with
     | 0xF => offsetOf a / 4096 ≠ scope
     | 0xE =>
       let off := offsetOf a
       off = 0x080 || (0x100 ≤ off && off < 0x180 && !scopeCovers s (1 + (off - 0x100) / 16))
     | _ => false)

/-- The words of the three memories of a core, by the byte offset in its local memory (Table 11.2). -/
def localWord (c : LensCore) (o : Nat) : Word :=
  if o < 0x10000 then localGet c.pm (o / 4) else if o < 0x28000 then localGet c.xm ((o - 0x10000) / 4) else localGet c.ym ((o - 0x28000) / 4)

/-- One word of local memory written (R134). -/
def putLocal (n o : Nat) (v : Word) (s : State) : State :=
  modLens n (fun c =>
    if o < 0x10000 then { c with pm := localPut c.pm (o / 4) v }
    else if o < 0x28000 then { c with xm := localPut c.xm ((o - 0x10000) / 4) v }
    else { c with ym := localPut c.ym ((o - 0x28000) / 4) v }) s

/-- The core of a local memory address, and the byte offset in its memory. -/
def localCore (a : Nat) : Nat := (a - 0x20000000) / 0x40000 % 8
def localOff (a : Nat) : Nat := a % 0x40000

/-- S3 admits a tag to a core (R133). -/
def localOk (s : State) (tag a : Nat) : Bool := tag = 16 || ownerOf s 0x04 (localCore a) = tag

/-- A byte of the flash as the NVM window shows it; the firmware area's bytes are symbolic here, so they are open, and so are bytes
above the flash (log entry 33). -/
def windowByte (s : State) (a : Nat) : Byte :=
  if a < 0x80000 || 2 ^ flashLog2 ≤ a then Config.rawFlashByte s.free a else flashByte s.evrec.flash a

/-- The NVM port answers. -/
def nvmUp (s : State) : Bool := domainUp s 25 && !isFenced s fenceEvrec

/-- A read of the flash through the NVM window. -/
def windowRead (a n : Nat) (s : State) : List Byte × State :=
  ((List.range n).map fun i => windowByte s (a + i), { s with free := s.free + 1 })

/-- A debug access of 32 bits (R439, R440); an address that is not word aligned reads zero and takes no write (log entry 33). -/
def apStart (addr : Word) (w : Option Word) (consume : Bool) (s : State) : State :=
  match s.dbg.session with
  | none => s
  | some x =>
    let a := addr.toNat
    let none_ := w.isNone
    let refuse := fun (s : State) => apAnswer true (if none_ then some 0 else none) s
    let give := fun (v : Word) (s : State) => apAnswer false (if none_ then some v else none) s
    let illegal := fun (s : State) => refuse (illegalAccess 1 (targetOf a).1 a engineTag s)
    let s := modDbg (fun d => { d with apDone := false, apError := false }) s
    if !domainUp s 2 then refuse s
    else if a % 4 ≠ 0 then give 0 s
    else match targetOf a with
    | (0, o) => if storeHeld s 1 then modDbg (fun d => { d with apWait := some (o, w) }) s else debugStore o w s
    | (1, o) =>
      if x.scope ≠ 16 then refuse s
      else if none_ then give (BitVec.ofNat 32 (unle ((List.range 4).map fun i => Config.bootRom (o + i)))) s
      else illegal s
    | (2, _) =>
      if outOfScope s x.scope a then refuse s
      else bridgeDebug { domain := regDomain a, who := .debug, addr, size := 4, value := w.getD 0, write := w.isSome, consume } s
    | (3, _) =>
      let n := localCore a
      if isFenced s (fenceLens n) then refuse s
      else if !localOk s x.scope a then refuse (refuseTag 1 n x.scope s)
      else match w with
        | some v => give 0 (putLocal n (localOff a) v s)
        | none => give (localWord (s.core n) (localOff a)) s
    | (4, o) =>
      if x.scope ≠ 16 then refuse s
      else if !none_ then illegal s
      else if !nvmUp s then refuse s
      else
        let (l, s) := windowRead o 4 s
        give (BitVec.ofNat 32 (unle l)) s
    | _ => illegal s

/-- DBG_AP: an Update-DR, with TCK active (Table 3.4); GO starts an access unless one is busy or no session is open (R440). -/
def execDbgAp (addr wdata : Word) (write consume go : Bool) (s : State) : Out :=
  if s.dbg.extest then .next s
  else
  let s := tapLoad 8 s
  if !go || s.dbg.session.isNone || apBusy s then .next s
  else fin (apStart addr (if write then some wdata else none) consume s)

/-! What the TAP captures (17). -/

/-- The instructions of Table 17.2. -/
inductive TapInstr where
  | extest | sample | idcode | dbgAp | dbgChal | dbgResp | bypass
  deriving DecidableEq, Repr

/-- The instruction a code of the instruction register names (R432). -/
def tapInstr (ir : BitVec 5) : TapInstr :=
  if ir = 0 then .extest else if ir = 1 then .sample else if ir = 2 then .idcode else if ir = 8 then .dbgAp
  else if ir = 9 then .dbgChal else if ir = 10 then .dbgResp else .bypass

/-- IDCODE (R433). -/
def idcode : Word := BitVec.ofNat 32 (fld 28 4 Config.revision.toNat + fld 12 16 0x7416 + fld 1 11 0x1A5 + 1)

/-- What Capture-DR loads under the present instruction (Tables 17.2 and 17.3, R438): the boundary register samples the balls, which the outside
drives (log entry 140). -/
def tapCapture (s : State) : Nat :=
  let d := s.dbg
  match tapInstr d.tapIr with
  | .idcode => idcode.toNat
  | .dbgAp => fld 0 32 d.apRdata.toNat + fld 64 1 (bit d.apDone) + fld 65 1 (bit d.apError) + fld 66 1 (bit (apBusy s)) + fld 67 1 (bit d.session.isNone)
  | .dbgChal => d.chal.toNat
  | .dbgResp => bit d.respDone + 2 * bit d.respAccepted
  | .bypass => 0
  | .extest | .sample => (Config.freeBits s.free).toNat

/-- The balls of the TP, AUD and NVM banks that can be inputs: a time pin, those of an audio port, an MCG's clock, the flash's data and strobe. -/
inductive InputBall where
  | tpin (n : Fin 32)
  | audio (port : Fin 8)
  | mcgClk (mcg : Fin 4)
  | nvm
  deriving DecidableEq, Repr

/-- The flash is being read: channel C is scanned, or a running EVREC_READ reads channel C or a dump. -/
def flashReads (s : State) : Bool :=
  s.evrec.cState = 1 || s.tenants.any fun n => match n.class2.head? with
    | some c => (match c.cmd with
      | .evrecRead _ channel _ _ => channel ≠ 1
      | _ => false)
    | none => false

/-- An input receiver is on while a running function uses the ball as an input (R470); those of the HOST and AON banks are always on. -/
def receiverOn (s : State) : InputBall → Bool
  | .tpin n => (s.pin n.val).mode = 1
  | .audio p => (s.aport p.val).cfg.isSome
  | .mcgClk m => (s.mcg m.val).mode = 2
  | .nvm => domainUp s 25 && flashReads s

/-! Writes of a host (R14, R15, R84 to R87). -/

/-- The SPIT port of a transport. -/
def spitPort : Transport → Option Nat
  | .spit0 => some 0
  | .spit1 => some 1
  | _ => none

/-- One byte shifted in over SPI at an offset of Eyelet t: an inbox byte lands at once, the fourth byte of a word applies the word when
its other three came before it (R86). -/
def spiByte (port t : Nat) (via : Transport) (s : State) (x : Nat × Byte) : State :=
  let off := x.1 % 4096
  if 0x100 ≤ off && off < 0x500 then inboxWrite t (off - 0x100) [x.2] s
  else
    let w := 4096 * t + off - off % 4
    let got := (s.sys.spiWord.find? fun y => y.1 = port && y.2.1 = w).map fun y => y.2.2
    let l := if off % 4 = 0 then [x.2] else (match got with
      | some l => if l.length = off % 4 then l ++ [x.2] else []
      | none => [])
    let s := modSys (fun y => { y with spiWord := (y.spiWord.filter fun z => z.1 ≠ port) ++
      (if l.length = 0 || l.length = 4 then [] else [(port, w, l)]) }) s
    if l.length = 4 then eyWrite t (off - 3) (BitVec.ofNat 32 (unle l)) via s else s

/-- A word of an Eyelet as a host reads it (R84, R87): zero for a tenant that is not open or not admitted on the transport. -/
def eyeRead (s : State) (t off : Nat) (via : Transport) : Word := if eyeletUp s t via then BitVec.ofNat 32 (eyWord s t off) else 0

/-- A host reads `n` bytes at an Eyelet address (R14, R15, R51, R84, R87): over SPI byte by byte, each word's first byte with the effect of a read
of the word (log entry 33); over PCIe an aligned word, or 8 or 16 bits of an inbox or outbox; any other access reads zero. -/
def hostRead (via : Transport) (addr : Word) (size : BitVec 3) (s : State) : State :=
  let a := addr.toNat
  let n := size.toNat
  let t := offsetOf a / 4096
  let off := a % 4096
  let latch := fun (s : State) (o : Nat) => if o = 0xC00 && eyeletUp s t via then latchTime t s else s
  let byte := fun (s : State) (o : Nat) => nth (leBits 4 (eyeRead s t (o - o % 4) via)) (o % 4)
  match spitPort via with
  | some _ =>
    let at_ := (List.range n).map fun i => (off + i) % 4096
    let x := at_.foldl (fun (acc : List Byte × State) o => (acc.1 ++ [byte acc.2 o], latch acc.2 o)) ([], s)
    emit (.hostData via x.1) x.2
  | none =>
    let ok := a / 65536 = 0x400F && ((n = 4 && a % 4 = 0) || (narrow a n && inMail a))
    emit (.hostData via (if ok then (List.range n).map fun i => byte s (off + i) else List.replicate n 0))
      (if ok && n = 4 then latch s off else s)

/-- A host writes `size` bytes at an Eyelet address. -/
def hostWrite (via : Transport) (addr : Word) (size : BitVec 3) (v : Word) (s : State) : State :=
  let a := addr.toNat
  let n := size.toNat
  let t := offsetOf a / 4096
  let off := a % 4096
  if a / 65536 ≠ 0x400F || !eyeletUp s t via || (n ≠ 1 && n ≠ 2 && n ≠ 4) then s
  else match spitPort via with
  | some port => ((leBits n v).zipIdx.map fun x => (off + x.2, x.1)).foldl (spiByte port t via) s
  | none =>
    if via = .fabric || a % n ≠ 0 then s
    else if 0x100 ≤ off && off < 0x500 then inboxWrite t (off - 0x100) (leBits n v) s
    else if n = 4 then eyWrite t off v via s else s

/-- A SPI transaction's instruction and data bytes (Table 4.3): any other instruction makes the engine ignore the rest (R87). -/
def spiAccess (port : Fin 2) (instruction : Byte) (addr : Word) (size : BitVec 3) (v : Word) (s : State) : State :=
  let via := if port = 0 then Transport.spit0 else .spit1
  let s := modSys (fun y => { y with clkOk := setBit y.clkOk (26 + port) true }) s
  if instruction = 0x02 then hostWrite via addr size v s
  else if instruction = 0x0B then hostRead via addr size s
  else s

end Sys2Proof.Machine
end

