-- ==== Sys2Proof/Machine/Matrix.lean ====
section
/-! DEFINITION. The bus matrix (05): paths, bursts, the owner tag of each master, locked sequences, and the answer of each target; and the cycle of
AON_FAST that passes when no command waits. -/

namespace Sys2Proof.Machine

/-- The paths of Table 5.2. -/
def hasPath (m t : Nat) : Bool :=
  if m = 0 then t < 6 else if m = 1 then t < 5 else if m = 15 then t = 0 || t = 3 else t = 0

/-- The owner tag of a transaction (Table 5.2): M0 and M15 set it, M1 carries the scope, a Lens core its holder. -/
def matrixTag (s : State) (q : MatrixReq) : Nat :=
  let m := q.master.val
  if m = 0 || m = 15 then q.tag.toNat
  else if m = 1 then (match s.dbg.session with | some x => x.scope | none => 31)
  else if 6 ≤ m && m < 14 then ownerOf s 0x04 (m - 6)
  else 16

/-- The tenant an event of a master concerns: the holder of a Lens core, else the engine. -/
def eventTag (s : State) (m : Nat) : Nat := if 6 ≤ m && m < 14 then ownerOf s 0x04 (m - 6) else engineTag

/-- A burst keeps R123; on S0 it lies within one page of the Store, and to S2 an access is single (R125). -/
def burstFits (q : MatrixReq) : Bool :=
  let a := q.addr.toNat
  if q.target = 2 then q.beats = 1
  else
    1 ≤ q.beats && q.beats ≤ 16 && a % 32 = 0 &&
      (if q.target = 0 then a % 65536 + 32 * q.beats ≤ 65536 && a < 2 ^ 24
       else if q.target = 3 then 0x20000000 ≤ a && a + 32 * q.beats ≤ 0x20200000 else true)

/-- The write data with their byte enables (R121). -/
def beatBytes (q : MatrixReq) : List (Byte × Bool) := (q.data.zip q.enables).take (spanOf q)

/-- Some beats of a burst as a transaction of their own. -/
def beatsOf (q : MatrixReq) (from_ upTo : Nat) : MatrixReq :=
  { q with addr := q.addr + BitVec.ofNat 32 (32 * from_), beats := upTo - from_, data := (q.data.drop (32 * from_)).take (32 * (upTo - from_))
           enables := (q.enables.drop (32 * from_)).take (32 * (upTo - from_)), cut := none }

/-- An error response on every beat with event 0x0905 (R120, R123, Table 5.3). -/
def refuseIllegal (q : MatrixReq) (s : State) : State :=
  respond q true [] (illegalAccess q.master.val q.target.val q.addr.toNat (eventTag s q.master.val) s)

/-! Locked sequences at S0 (R127, R128). -/

/-- A half of a locked sequence: one beat of a master that may lock. -/
def isLocked (q : MatrixReq) : Bool :=
  let m := q.master.val
  q.lock && q.target = 0 && q.beats = 1 && (m = 0 || m = 1 || (6 ≤ m && m < 14))

/-- What the answer to a half of a locked sequence does to the lock: an admitted read opens it, the write closes it. -/
def lockAfter (q : MatrixReq) (error : Bool) (s : State) : State :=
  let m := q.master.val
  let line := q.addr.toNat / 32
  if !isLocked q then s
  else if q.write then (if s.store.lock.any fun l => l.master = m && l.line = line then releaseLock s else s)
  else if error then s
  else modStore (fun st => { st with lock := some { master := m, line }, timedOut := st.timedOut.erase m }) s

/-- A transaction granted at S0 (R132). -/
def atStore (q : MatrixReq) (s : State) : State :=
  let m := q.master.val
  let tag := matrixTag s q
  let a := q.addr.toNat
  if isLocked q && q.write && s.store.timedOut.contains m then
    respond q true [] (modStore (fun st => { st with timedOut := st.timedOut.erase m }) s)
  else if q.write then
    let (s, err) := storeWriteAs m tag a (beatBytes q) s
    respond q err [] (lockAfter q err s)
  else
    let (s, err, l) := storeReadAs m tag a (spanOf q) s
    respond q err l (lockAfter q err s)

/-! The other targets. -/

/-- The boot ROM: read only. -/
def atRom (q : MatrixReq) (s : State) : State :=
  if q.write then refuseIllegal q s
  else respond q false ((List.range (spanOf q)).map fun i => Config.bootRom (q.addr.toNat + i)) s

/-- The byte lanes of an access to a register (R14, R121): the first byte enabled and how many from there on; an access without byte enables takes
the word, and enables with a gap make an access that is no word (R15). -/
def laneSpan (q : MatrixReq) : Nat × Nat :=
  let e := (List.range 4).filter fun i => nth q.enables i
  if q.enables = [] then (0, 4)
  else match e with
    | [] => (0, 0)
    | i :: _ => if e = (List.range e.length).map fun k => i + k then (i, e.length) else (0, 3)

/-- The register bridge, which one access occupies until it ends (Table 5.3). -/
def atBridge (q : MatrixReq) (s : State) : State :=
  if q.master.val = 1 && outOfScope s (matrixTag s q) q.addr.toNat then respond q true [] s
  else
    let x := laneSpan q
    bridge { domain := regDomain q.addr.toNat, who := .matrix q.master, addr := q.addr + BitVec.ofNat 32 x.1, size := BitVec.ofNat 3 x.2
             value := BitVec.ofNat 32 (unle (((beatBytes q).drop x.1).map fun b => b.1)), write := q.write, consume := q.master.val ≠ 1 } s

/-- The cores a transaction to S3 addresses: a burst that runs from one core's memory into the next core's names both, and is admitted when both
admit its tag (log entry 124). -/
def coresOf (q : MatrixReq) : List Nat :=
  let a := localCore q.addr.toNat
  let b := localCore (q.addr.toNat + spanOf q - 1)
  if a = b then [a] else [a, b]

/-- A word with the bytes that are enabled replaced. -/
def mergeWord (old : Word) (put : List (Byte × Bool)) : Word :=
  BitVec.ofNat 32 (unle (((leBits 4 old).zip (put ++ List.replicate 4 (0, false))).map fun x => if x.2.2 then x.2.1 else x.1))

/-- Words of local memory written one by one, from an address on; words with no byte enabled stay. -/
def putWords (a : Nat) (put : List (Byte × Bool)) : Nat → State → State
  | 0, s => s
  | k + 1, s =>
    let s := putWords a put k s
    let p := (put.drop (4 * k)).take 4
    let at_ := a + 4 * k
    if p.any fun b => b.2 then
      putLocal (localCore at_) (localOff at_) (mergeWord (localWord (s.core (localCore at_)) (localOff at_)) p) s
    else s

/-- Lens local memory (R133, R134); a fenced core's memory does not answer. -/
def atLocal (q : MatrixReq) (s : State) : State :=
  let tag := matrixTag s q
  let a := q.addr.toNat
  if (coresOf q).any fun n => isFenced s (fenceLens n) then respond q true [] s
  else match (coresOf q).find? fun n => !(tag = 16 || ownerOf s 0x04 n = tag) with
    | some n => respond q true [] (refuseTag q.master.val n tag s)
    | none =>
      if q.write then respond q false [] (putWords a (beatBytes q) (8 * q.beats) s)
      else respond q false ((List.range (8 * q.beats)).flatMap fun k =>
        leBits 4 (localWord (s.core (localCore (a + 4 * k))) (localOff (a + 4 * k)))) s

/-- The NVM window: read only; without the NVM port every beat is an error (R144). -/
def atNvm (q : MatrixReq) (s : State) : State :=
  if q.write then refuseIllegal q s
  else if !nvmUp s then respond q true [] s
  else
    let (l, s) := windowRead q.addr.toNat (spanOf q) s
    respond q false l s

/-- PCIe outbound: posted writes only; without the link every beat is an error (R144). -/
def atPcie (q : MatrixReq) (s : State) : State :=
  if !q.write then refuseIllegal q s
  else if !domainUp s 24 then respond q true [] s
  else respond q false [] (emit (.pcieWrite q.addr (beatBytes q)) s)

/-- A transaction its target is granted. -/
def atTarget (q : MatrixReq) (s : State) : State :=
  match q.target.val with
  | 0 => atStore q s
  | 1 => atRom q s
  | 2 => atBridge q s
  | 3 => atLocal q s
  | 4 => atNvm q s
  | _ => atPcie q s

/-- M1 reaches the boot ROM and the NVM window under the engine's scope only (Table 17.4). -/
def debugBarred (s : State) (q : MatrixReq) : Bool :=
  q.master.val = 1 && (q.target = 1 || q.target = 4) && matrixTag s q ≠ 16

/-- A real-time master, which another master's locked sequence does not hold off (R127). -/
def realTime (m : Nat) : Bool := m = 5 || m = 15

/-- A transaction that its target's arbiter grants; one that is cut leaves the rest of its burst in flight. -/
def grant (q : MatrixReq) (s : State) : State :=
  let s := granted q.target.val q.master.val s
  match q.cut with
  | some k =>
    if 0 < k && k < q.beats && !q.lock then
      modStore (fun m => { m with bursts := m.bursts ++ [{ req := q, done := k }] }) (atTarget (beatsOf q 0 k) s)
    else atTarget q s
  | none => atTarget q s

/-- One matrix transaction. The debugger has none without a session. -/
def matrixAccess (q : MatrixReq) (s : State) : State :=
  let m := q.master.val
  if m = 1 && s.dbg.session.isNone then s
  else if !domainUp s 2 then respond q true [] s
  else if !hasPath m q.target.val || !burstFits q then refuseIllegal q s
  else if debugBarred s q then respond q true [] s
  else grant q s

/-- A request waits: a bulk master's for S0 while another master's locked sequence holds it (R127), any for S2 while an access occupies the bridge
(R125). -/
def mustWait (s : State) (q : MatrixReq) : Bool :=
  domainUp s 2 && ((q.target = 0 && !realTime q.master.val && storeHeld s q.master.val) || (q.target = 2 && s.sys.held ≠ []))

/-- The first of some requests in the round-robin order that begins at a master (R124). -/
def nextRound (ptr : Nat) (l : List MatrixReq) : Option MatrixReq :=
  (List.range 16).findSome? fun k => l.find? fun q => q.master.val = (ptr + k) % 16

/-- Two transactions to the Store meet in a line. -/
def sameLine (a b : MatrixReq) : Bool :=
  a.addr.toNat / 64 ≤ (b.addr.toNat + spanOf b - 1) / 64 && b.addr.toNat / 64 ≤ (a.addr.toNat + spanOf a - 1) / 64

/-- The request a target's arbiter grants among those that wait for it (R124): real-time masters first, then bulk masters, M1 last; a write comes
before a read of the same line (R130). -/
def arbiter (s : State) (t : Nat) (l : List MatrixReq) : Option MatrixReq :=
  let mine := l.filter fun q => q.target.val = t && !mustWait s q
  let rt := mine.filter fun q => realTime q.master.val
  let bulk := mine.filter fun q => !realTime q.master.val && q.master ≠ 1
  let pick := (nextRound (nth s.store.rrRt t) rt).orElse fun _ => (nextRound (nth s.store.rrBulk t) bulk).orElse fun _ => mine.head?
  match pick with
  | some q =>
    if t = 0 && !q.write then
      (match mine.find? fun w => w.write && !w.lock && sameLine w q with
       | some w => some w
       | none => some q)
    else some q
  | none => none

/-- Requests are granted one after another while some arbiter grants one. -/
def arbitrate : Nat → State → State
  | 0, s => s
  | k + 1, s =>
    match (List.range 6).findSome? fun t => arbiter s t s.store.waiting with
    | some q => arbitrate k (matrixAccess q (modStore (fun m => { m with waiting := m.waiting.erase q }) s))
    | none => s

/-- The bursts in flight get through. -/
def finishBursts (s : State) : State :=
  s.store.bursts.foldl (fun s b => atTarget (beatsOf b.req b.done b.req.beats) s) (modStore (fun m => { m with bursts := [] }) s)

/-- Packets that waited for the Store are executed once M0 has it again. -/
def afterLock (before s : State) : State :=
  if storeHeld before 0 && !storeHeld s 0 && !ctlHalted s && fwRuns s then runTaken 128 s else s

/-- Requests reach the arbiters in one CORE cycle, behind the bursts in flight and the requests that wait. -/
def matrixCycle (l : List MatrixReq) (s : State) : State :=
  let t := modStore (fun m => { m with waiting := m.waiting ++ l }) (finishBursts s)
  afterLock s (arbitrate t.store.waiting.length t)

def execStoreAccess (l : List MatrixReq) (s : State) : Out := fin (matrixCycle l s)

/-- LOCK_TIMEOUT: 40 CORE cycles after the read's grant without the write; not while the locking core is halted (R128). -/
def execLockTimeout (s : State) : Out :=
  match s.store.lock with
  | some l =>
    if l.frozen then .next s
    else
      let tag := if 6 ≤ l.master && l.master < 14 then ownerOf s 0x04 (l.master - 6) else engineTag
      fin (afterLock s (releaseLock (modStore (fun m => { m with timedOut := l.master :: m.timedOut })
        (record 0x0902 tag [(1, l.master), (4, 32 * l.line)] s))))
  | none => .next s

/-- REGISTER_WRITE: an access over a transport to an Eyelet, under DBG_AP, or by a master of the matrix. -/
def execRegisterWrite (who : RegMaster) (addr : Word) (size : BitVec 3) (value : Word) (s : State) : Out :=
  match who with
  | .host via => fin (hostWrite via addr size value s)
  | .hostRead via => fin (hostRead via addr size s)
  | .spi port instruction => fin (spiAccess port instruction addr size value s)
  | .debug => if size ≠ 4 || s.dbg.session.isNone || apBusy s then .next s else fin (apStart addr (some value) false s)
  | .matrix m =>
    let n := size.toNat
    fin (matrixCycle [{ master := m, target := 2, tag := 16, write := true, lock := false, addr, beats := 1
                        data := leBits 4 value, enables := (List.range 4).map fun i => decide (i < n) }] s)

/-! The cycle of AON_FAST that passes when no command waits (log entry 1). -/

/-- Packets that wait are executed once nothing keeps M0 from the Store: a locked sequence may have ended by a Lens core's UNS or by a reset. -/
def runWaiting (s : State) : State :=
  if serving s && !ctlHalted s && !storeHeld s 0 && s.tenants.any fun n => n.taken ≠ [] then runTaken 128 s else s

/-- With no command waiting, AON_FAST ticks once: operating time and the watchdog count, what waits for the matrix goes on, and each Ethernet
line that is free takes the next frame that waits (R165, log entry 136), each Prieth frame in progress its EXP1 (R222). While AON_FAST is
lost, or without AON power, nothing counts. -/
def idleStep (s : State) : Out :=
  if !s.sys.clkOk.getLsbD 0 then .next s
  else fin (wdTick (tickHours (modSys (fun y => { y with aonTicks := y.aonTicks + 1 }) (serveTails (serveLines (runWaiting (matrixCycle [] s)))))))

end Sys2Proof.Machine
end

