-- ==== Sys2Proof/Machine/Dispatch.lean ====
section
/-! DEFINITION. The dispatch: one arm for each command. -/

namespace Sys2Proof.Machine

def exec (i : Instr) (s : State) : Host.Outcome State Fault Refusal :=
  match i with
  | .sysInfo r => Sys2Proof.Machine.execSysInfo r s
  | .tenantOpen r tenant transports => Sys2Proof.Machine.execTenantOpen r tenant transports s
  | .tenantClose r tenant => Sys2Proof.Machine.execTenantClose r tenant s
  | .grant r tenant type first_ count => Sys2Proof.Machine.execGrant r tenant type first_ count s
  | .revoke r tenant type first_ count => Sys2Proof.Machine.execRevoke r tenant type first_ count s
  | .groupCommit r => Sys2Proof.Machine.execGroupCommit r s
  | .groupAbort r => Sys2Proof.Machine.execGroupAbort r s
  | .groupStatus r => Sys2Proof.Machine.execGroupStatus r s
  | .fuseRead r field => Sys2Proof.Machine.execFuseRead r field s
  | .fuseProgram r field value => Sys2Proof.Machine.execFuseProgram r field value s
  | .fwWrite r offset data => Sys2Proof.Machine.execFwWrite r offset data s
  | .fwCommit r size => Sys2Proof.Machine.execFwCommit r size s
  | .timeGet r => Sys2Proof.Machine.execTimeGet r s
  | .timeSet r time utcOffset flags => Sys2Proof.Machine.execTimeSet r time utcOffset flags s
  | .timeStep r offset => Sys2Proof.Machine.execTimeStep r offset s
  | .timeAdjust r offset slew => Sys2Proof.Machine.execTimeAdjust r offset slew s
  | .rateSet r rate => Sys2Proof.Machine.execRateSet r rate s
  | .sourceSet r src domain => Sys2Proof.Machine.execSourceSet r src domain s
  | .servoConfig r stepThr lockThr unlockThr slewMax lockCount loopBw => Sys2Proof.Machine.execServoConfig r stepThr lockThr unlockThr slewMax lockCount loopBw s
  | .lastStatus r => Sys2Proof.Machine.execLastStatus r s
  | .calSet r item index sub value => Sys2Proof.Machine.execCalSet r item index sub value s
  | .calGet r item index sub => Sys2Proof.Machine.execCalGet r item index sub s
  | .ethPortConfig r port mode vid mac => Sys2Proof.Machine.execEthPortConfig r port mode vid mac s
  | .ethPortStatus r port => Sys2Proof.Machine.execEthPortStatus r port s
  | .gptpConfig r cfg => Sys2Proof.Machine.execGptpConfig r cfg s
  | .gptpPortRole r port role domains => Sys2Proof.Machine.execGptpPortRole r port role domains s
  | .gptpStatus r domain => Sys2Proof.Machine.execGptpStatus r domain s
  | .avtpTalkerConfig r cfg => Sys2Proof.Machine.execAvtpTalkerConfig r cfg s
  | .avtpListenerConfig r cfg => Sys2Proof.Machine.execAvtpListenerConfig r cfg s
  | .avtpStreamStart r dir stream => Sys2Proof.Machine.execAvtpStreamStart r dir stream s
  | .avtpStreamStop r dir stream => Sys2Proof.Machine.execAvtpStreamStop r dir stream s
  | .avtpStreamStatus r dir stream => Sys2Proof.Machine.execAvtpStreamStatus r dir stream s
  | .crfConfig r cfg => Sys2Proof.Machine.execCrfConfig r cfg s
  | .cbsConfig r port idleA idleB => Sys2Proof.Machine.execCbsConfig r port idleA idleB s
  | .ethRxFilter r ports actions rlog2 base => Sys2Proof.Machine.execEthRxFilter r ports actions rlog2 base s
  | .tpinConfig r cfg => Sys2Proof.Machine.execTpinConfig r cfg s
  | .tpinSchedule r pin action policy time => Sys2Proof.Machine.execTpinSchedule r pin action policy time s
  | .tpinCancel r pin handle => Sys2Proof.Machine.execTpinCancel r pin handle s
  | .tpinCaptureRead r pin max => Sys2Proof.Machine.execTpinCaptureRead r pin max s
  | .reflexConfig r cfg => Sys2Proof.Machine.execReflexConfig r cfg s
  | .reflexWindow r cfg => Sys2Proof.Machine.execReflexWindow r cfg s
  | .fsgConfig r cfg => Sys2Proof.Machine.execFsgConfig r cfg s
  | .fsgStart r fsg => Sys2Proof.Machine.execFsgStart r fsg s
  | .fsgStop r fsg => Sys2Proof.Machine.execFsgStop r fsg s
  | .fsgStatus r fsg => Sys2Proof.Machine.execFsgStatus r fsg s
  | .plinkStatus r port => Sys2Proof.Machine.execPlinkStatus r port s
  | .plinkEnumerate r flags => Sys2Proof.Machine.execPlinkEnumerate r flags s
  | .plinkTopology r => Sys2Proof.Machine.execPlinkTopology r s
  | .plinkAudioMap r cfg => Sys2Proof.Machine.execPlinkAudioMap r cfg s
  | .fabricPrepare r fid tenant group => Sys2Proof.Machine.execFabricPrepare r fid tenant group s
  | .fabricApply r fid => Sys2Proof.Machine.execFabricApply r fid s
  | .fabricAbort r fid => Sys2Proof.Machine.execFabricAbort r fid s
  | .plinkDelayGet r port => Sys2Proof.Machine.execPlinkDelayGet r port s
  | .mcgConfig r mcg mode family mult window => Sys2Proof.Machine.execMcgConfig r mcg mode family mult window s
  | .mcgMeasure r mcg => Sys2Proof.Machine.execMcgMeasure r mcg s
  | .aportConfig r cfg => Sys2Proof.Machine.execAportConfig r cfg s
  | .aportStart r port => Sys2Proof.Machine.execAportStart r port s
  | .aportStop r port => Sys2Proof.Machine.execAportStop r port s
  | .aportMask r port txMask rxMask => Sys2Proof.Machine.execAportMask r port txMask rxMask s
  | .aportRate r port mcg rate => Sys2Proof.Machine.execAportRate r port mcg rate s
  | .aportStatus r port => Sys2Proof.Machine.execAportStatus r port s
  | .prismInputClass r source cls wind => Sys2Proof.Machine.execPrismInputClass r source cls wind s
  | .prismXpSet r items => Sys2Proof.Machine.execPrismXpSet r items s
  | .prismXpClear r items => Sys2Proof.Machine.execPrismXpClear r items s
  | .prismRoute r sink source flags => Sys2Proof.Machine.execPrismRoute r sink source flags s
  | .prismBusConfig r bus family rate mode range => Sys2Proof.Machine.execPrismBusConfig r bus family rate mode range s
  | .prismBusRange r bus range => Sys2Proof.Machine.execPrismBusRange r bus range s
  | .prismDirectGain r source bus gain => Sys2Proof.Machine.execPrismDirectGain r source bus gain s
  | .prismStatus r bus => Sys2Proof.Machine.execPrismStatus r bus s
  | .sceneStore r scene page offset => Sys2Proof.Machine.execSceneStore r scene page offset s
  | .sceneRecall r scene => Sys2Proof.Machine.execSceneRecall r scene s
  | .sceneDelete r scene => Sys2Proof.Machine.execSceneDelete r scene s
  | .sceneList r => Sys2Proof.Machine.execSceneList r s
  | .mirrorConfig r family rate block rampLen => Sys2Proof.Machine.execMirrorConfig r family rate block rampLen s
  | .mirrorStatus r => Sys2Proof.Machine.execMirrorStatus r s
  | .lensLoad r core slot page offset => Sys2Proof.Machine.execLensLoad r core slot page offset s
  | .lensChain r cfg => Sys2Proof.Machine.execLensChain r cfg s
  | .lensStart r core slots => Sys2Proof.Machine.execLensStart r core slots s
  | .lensStop r core slots => Sys2Proof.Machine.execLensStop r core slots s
  | .lensParam r items => Sys2Proof.Machine.execLensParam r items s
  | .lensStatus r core => Sys2Proof.Machine.execLensStatus r core s
  | .lensDeadline r core strikes guard => Sys2Proof.Machine.execLensDeadline r core strikes guard s
  | .pageInfo r => Sys2Proof.Machine.execPageInfo r s
  | .pageRead r page offset length => Sys2Proof.Machine.execPageRead r page offset length s
  | .pageWrite r page offset data => Sys2Proof.Machine.execPageWrite r page offset data s
  | .pageCopy r src dst => Sys2Proof.Machine.execPageCopy r src dst s
  | .evrecConfig r cBase cSize dumpBase tick => Sys2Proof.Machine.execEvrecConfig r cBase cSize dumpBase tick s
  | .evrecRead r channel max from_ => Sys2Proof.Machine.execEvrecRead r channel max from_ s
  | .evrecStatus r => Sys2Proof.Machine.execEvrecStatus r s
  | .evrecRate r code rate burst => Sys2Proof.Machine.execEvrecRate r code rate burst s
  | .evrecFlush r => Sys2Proof.Machine.execEvrecFlush r s
  | .evrecErase r target => Sys2Proof.Machine.execEvrecErase r target s
  | .wdogConfig r period => Sys2Proof.Machine.execWdogConfig r period s
  | .wdogStatus r => Sys2Proof.Machine.execWdogStatus r s
  | .wdogCountClear r => Sys2Proof.Machine.execWdogCountClear r s
  | .superviseStatus r => Sys2Proof.Machine.execSuperviseStatus r s
  | .powerMode r mode flags wakeAt => Sys2Proof.Machine.execPowerMode r mode flags wakeAt s
  | .powerStatus r => Sys2Proof.Machine.execPowerStatus r s
  | .coreClock r mhz => Sys2Proof.Machine.execCoreClock r mhz s
  | .holdConfig r cfg => Sys2Proof.Machine.execHoldConfig r cfg s
  | .stackStatus r => Sys2Proof.Machine.execStackStatus r s
  | .balanceConfig r cfg => Sys2Proof.Machine.execBalanceConfig r cfg s
  | .dbgOpen r scope duration => Sys2Proof.Machine.execDbgOpen r scope duration s
  | .dbgClose r => Sys2Proof.Machine.execDbgClose r s
  | .dbgStatus r => Sys2Proof.Machine.execDbgStatus r s
  | .send t via => Sys2Proof.Machine.execSend t via s
  | .take t via => Sys2Proof.Machine.execTake t via s
  | .packetTake t ring => Sys2Proof.Machine.execPacketTake t ring s
  | .eyCringIdxTailWrite t tail => Sys2Proof.Machine.execEyCringIdxTailWrite t tail s
  | .eyRringIdxHeadWrite t head => Sys2Proof.Machine.execEyRringIdxHeadWrite t head s
  | .eyRingCfgWrite t value => Sys2Proof.Machine.execEyRingCfgWrite t value s
  | .eyTimeLatch t => Sys2Proof.Machine.execEyTimeLatch t s
  | .wdogServe value => Sys2Proof.Machine.execWdogServe value s
  | .registerWrite who addr size value => Sys2Proof.Machine.execRegisterWrite who addr size value s
  | .registerHoldTimeout domain => Sys2Proof.Machine.execRegisterHoldTimeout domain s
  | .fenceWaitEnd domain => Sys2Proof.Machine.execFenceWaitEnd domain s
  | .remoteReplyTimeout t tag => Sys2Proof.Machine.execRemoteReplyTimeout t tag s
  | .timedCommandApply t => Sys2Proof.Machine.execTimedCommandApply t s
  | .mirrorSwap t => Sys2Proof.Machine.execMirrorSwap t s
  | .timeCycle n => Sys2Proof.Machine.execTimeCycle n s
  | .slewEnd => Sys2Proof.Machine.execSlewEnd s
  | .tempTermUpdate die => Sys2Proof.Machine.execTempTermUpdate die s
  | .sourceLost => Sys2Proof.Machine.execSourceLost s
  | .refclkLost => Sys2Proof.Machine.execRefclkLost s
  | .refclkReturned => Sys2Proof.Machine.execRefclkReturned s
  | .refclkStopInSleep => Sys2Proof.Machine.execRefclkStopInSleep s
  | .clockLost domain how => Sys2Proof.Machine.execClockLost domain how s
  | .clockReturned domain how => Sys2Proof.Machine.execClockReturned domain how s
  | .crystalFail => Sys2Proof.Machine.execCrystalFail s
  | .captureEdge pin falling tap nearPasses => Sys2Proof.Machine.execCaptureEdge pin falling tap nearPasses s
  | .scheduledAction pin => Sys2Proof.Machine.execScheduledAction pin s
  | .gridPulse pin => Sys2Proof.Machine.execGridPulse pin s
  | .fsgFrameStart fsg => Sys2Proof.Machine.execFsgFrameStart fsg s
  | .ethLinkChange port report cause => Sys2Proof.Machine.execEthLinkChange port report cause s
  | .ethFrameRx port frame => Sys2Proof.Machine.execEthFrameRx port frame s
  | .sync port msg => Sys2Proof.Machine.execSync port msg s
  | .followUp port msg => Sys2Proof.Machine.execFollowUp port msg s
  | .announce port msg => Sys2Proof.Machine.execAnnounce port msg s
  | .pdelay port msg => Sys2Proof.Machine.execPdelay port msg s
  | .syncInterval extra => Sys2Proof.Machine.execSyncInterval extra s
  | .pdelayInterval port => Sys2Proof.Machine.execPdelayInterval port s
  | .announceInterval extra => Sys2Proof.Machine.execAnnounceInterval extra s
  | .syncReceiptTimeout port extra => Sys2Proof.Machine.execSyncReceiptTimeout port extra s
  | .announceReceiptTimeout port extra => Sys2Proof.Machine.execAnnounceReceiptTimeout port extra s
  | .avtpPacket stream pkt => Sys2Proof.Machine.execAvtpPacket stream pkt s
  | .avtpTalkerInterval stream => Sys2Proof.Machine.execAvtpTalkerInterval stream s
  | .crfPduSend pdu => Sys2Proof.Machine.execCrfPduSend pdu s
  | .commaAlign port => Sys2Proof.Machine.execCommaAlign port s
  | .commaLoss port => Sys2Proof.Machine.execCommaLoss port s
  | .linkTimeout port => Sys2Proof.Machine.execLinkTimeout port s
  | .plinkFrame port frame => Sys2Proof.Machine.execPlinkFrame port frame s
  | .plinkFrameLaunch port => Sys2Proof.Machine.execPlinkFrameLaunch port s
  | .commandCell port cell => Sys2Proof.Machine.execCommandCell port cell s
  | .cellEnum port addr depth setSource epoch limit => Sys2Proof.Machine.execCellEnum port addr depth setSource epoch limit s
  | .cellEnumDone port next epoch => Sys2Proof.Machine.execCellEnumDone port next epoch s
  | .cellEnumReject port reason epoch => Sys2Proof.Machine.execCellEnumReject port reason epoch s
  | .cellPrepare port fid tenant group => Sys2Proof.Machine.execCellPrepare port fid tenant group s
  | .cellPrepareAck port fid ready idle failed firstFailed => Sys2Proof.Machine.execCellPrepareAck port fid ready idle failed firstFailed s
  | .cellApply port fid time => Sys2Proof.Machine.execCellApply port fid time s
  | .cellAbort port fid => Sys2Proof.Machine.execCellAbort port fid s
  | .prepareTimeout => Sys2Proof.Machine.execPrepareTimeout s
  | .armTimeout => Sys2Proof.Machine.execArmTimeout s
  | .portFrameStart port sdi => Sys2Proof.Machine.execPortFrameStart port sdi s
  | .slaveFrameSync port bits tap => Sys2Proof.Machine.execSlaveFrameSync port bits tap s
  | .slaveFrameTimeout port => Sys2Proof.Machine.execSlaveFrameTimeout port s
  | .prerollEnd port => Sys2Proof.Machine.execPrerollEnd port s
  | .postrollEnd port => Sys2Proof.Machine.execPostrollEnd port s
  | .fadeComplete port tx => Sys2Proof.Machine.execFadeComplete port tx s
  | .aportRateSwitch port => Sys2Proof.Machine.execAportRateSwitch port s
  | .mcgWindowEnd mcg edges span => Sys2Proof.Machine.execMcgWindowEnd mcg edges span s
  | .prismSample family rate => Sys2Proof.Machine.execPrismSample family rate s
  | .busRangeStepDown bus => Sys2Proof.Machine.execBusRangeStepDown bus s
  | .blockStart core => Sys2Proof.Machine.execBlockStart core s
  | .deadlineMiss core => Sys2Proof.Machine.execDeadlineMiss core s
  | .coreMemoryClearDone core => Sys2Proof.Machine.execCoreMemoryClearDone core s
  | .lNop core => Sys2Proof.Machine.execLNop core s
  | .lEnd core => Sys2Proof.Machine.execLEnd core s
  | .lBr core cc t => Sys2Proof.Machine.execLBr core cc t s
  | .lCall core t => Sys2Proof.Machine.execLCall core t s
  | .lRet core => Sys2Proof.Machine.execLRet core s
  | .lLoop core rot_ reg dc count e => Sys2Proof.Machine.execLLoop core rot_ reg dc count e s
  | .lRep core reg dc count => Sys2Proof.Machine.execLRep core reg dc count s
  | .lBrk core => Sys2Proof.Machine.execLBrk core s
  | .lAdd core d a b x y => Sys2Proof.Machine.execLAdd core d a b x y s
  | .lSub core d a b x y => Sys2Proof.Machine.execLSub core d a b x y s
  | .lAnd core d a b x y => Sys2Proof.Machine.execLAnd core d a b x y s
  | .lOr core d a b x y => Sys2Proof.Machine.execLOr core d a b x y s
  | .lXor core d a b x y => Sys2Proof.Machine.execLXor core d a b x y s
  | .lAsl core d a sh x y => Sys2Proof.Machine.execLAsl core d a sh x y s
  | .lAsr core d a sh x y => Sys2Proof.Machine.execLAsr core d a sh x y s
  | .lLsr core d a sh x y => Sys2Proof.Machine.execLLsr core d a sh x y s
  | .lAbs core d a x y => Sys2Proof.Machine.execLAbs core d a x y s
  | .lNeg core d a x y => Sys2Proof.Machine.execLNeg core d a x y s
  | .lMin core d a b x y => Sys2Proof.Machine.execLMin core d a b x y s
  | .lMax core d a b x y => Sys2Proof.Machine.execLMax core d a b x y s
  | .lMov core d a x y => Sys2Proof.Machine.execLMov core d a x y s
  | .lCmp core a b x y => Sys2Proof.Machine.execLCmp core a b x y s
  | .lPar core x y => Sys2Proof.Machine.execLPar core x y s
  | .lMpy core a opx opy csrc neg x y => Sys2Proof.Machine.execLMpy core a opx opy csrc neg x y s
  | .lMac core a opx opy csrc neg x y => Sys2Proof.Machine.execLMac core a opx opy csrc neg x y s
  | .lMpy4 core a opx opy csrc neg x y => Sys2Proof.Machine.execLMpy4 core a opx opy csrc neg x y s
  | .lMac4 core a opx opy csrc neg x y => Sys2Proof.Machine.execLMac4 core a opx opy csrc neg x y s
  | .lMac2e core a opx opy neg x y => Sys2Proof.Machine.execLMac2e core a opx opy neg x y s
  | .lMac2c core a opx opy neg x y => Sys2Proof.Machine.execLMac2c core a opx opy neg x y s
  | .lClr core a x y => Sys2Proof.Machine.execLClr core a x y s
  | .lClr4 core a x y => Sys2Proof.Machine.execLClr4 core a x y s
  | .lRnd core d a sh x y => Sys2Proof.Machine.execLRnd core d a sh x y s
  | .lMva core a opx x y => Sys2Proof.Machine.execLMva core a opx x y s
  | .lLdi core r imm => Sys2Proof.Machine.execLLdi core r imm s
  | .lMvr core r1 r2 => Sys2Proof.Machine.execLMvr core r1 r2 s
  | .lLds core d a => Sys2Proof.Machine.execLLds core d a s
  | .lSts core d a => Sys2Proof.Machine.execLSts core d a s
  | .lLks core d a => Sys2Proof.Machine.execLLks core d a s
  | .lUns core d a => Sys2Proof.Machine.execLUns core d a s
  | .lLdb core p a n1 => Sys2Proof.Machine.execLLdb core p a n1 s
  | .lStb core p a n1 => Sys2Proof.Machine.execLStb core p a n1 s
  | .storeAccess l => Sys2Proof.Machine.execStoreAccess l s
  | .lockTimeout => Sys2Proof.Machine.execLockTimeout s
  | .channelCScanDone => Sys2Proof.Machine.execChannelCScanDone s
  | .channelCProgramDone ok => Sys2Proof.Machine.execChannelCProgramDone ok s
  | .dumpPageDone ok => Sys2Proof.Machine.execDumpPageDone ok s
  | .operatingTimeMark => Sys2Proof.Machine.execOperatingTimeMark s
  | .watchdogExpiry => Sys2Proof.Machine.execWatchdogExpiry s
  | .graceEnd env => Sys2Proof.Machine.execGraceEnd env s
  | .powerFailTrip => Sys2Proof.Machine.execPowerFailTrip s
  | .mainPowerReturn => Sys2Proof.Machine.execMainPowerReturn s
  | .holdEnRelease => Sys2Proof.Machine.execHoldEnRelease s
  | .holdTimeEnd => Sys2Proof.Machine.execHoldTimeEnd s
  | .holdoverEnd => Sys2Proof.Machine.execHoldoverEnd s
  | .cellMeasurement cells shuntNv => Sys2Proof.Machine.execCellMeasurement cells shuntNv s
  | .balanceTick => Sys2Proof.Machine.execBalanceTick s
  | .heartbeat => Sys2Proof.Machine.execHeartbeat s
  | .heartbeatTimeout => Sys2Proof.Machine.execHeartbeatTimeout s
  | .cellOvervoltage cell mv => Sys2Proof.Machine.execCellOvervoltage cell mv s
  | .chgEnRecovery => Sys2Proof.Machine.execChgEnRecovery s
  | .shankSilent => Sys2Proof.Machine.execShankSilent s
  | .sleepEntry => Sys2Proof.Machine.execSleepEntry s
  | .wake source => Sys2Proof.Machine.execWake source s
  | .wakeRelease env => Sys2Proof.Machine.execWakeRelease env s
  | .thetaHigh theta => Sys2Proof.Machine.execThetaHigh theta s
  | .thetaLow theta => Sys2Proof.Machine.execThetaLow theta s
  | .aonPowerLoss => Sys2Proof.Machine.execAonPowerLoss s
  | .storeRetentionTrip => Sys2Proof.Machine.execStoreRetentionTrip s
  | .pciePerst low => Sys2Proof.Machine.execPciePerst low s
  | .powerOnReset => Sys2Proof.Machine.execPowerOnReset s
  | .resetNAssert => Sys2Proof.Machine.execResetNAssert s
  | .resetNRelease env => Sys2Proof.Machine.execResetNRelease env s
  | .selfTestDone unit pass cause => Sys2Proof.Machine.execSelfTestDone unit pass cause s
  | .dbgAp addr wdata write consume go => Sys2Proof.Machine.execDbgAp addr wdata write consume go s
  | .dbgChal => Sys2Proof.Machine.execDbgChal s
  | .dbgResp scope reserved duration pubX pubY sigR sigS => Sys2Proof.Machine.execDbgResp scope reserved duration pubX pubY sigR sigS s
  | .extest => Sys2Proof.Machine.execExtest s
  | .extestExit load => Sys2Proof.Machine.execExtestExit load s
  | .debugSessionExpiry => Sys2Proof.Machine.execDebugSessionExpiry s
  | .dbgHalt cores => Sys2Proof.Machine.execDbgHalt cores s
  | .coreHalted core => Sys2Proof.Machine.execCoreHalted core s
  | .dbgResume cores => Sys2Proof.Machine.execDbgResume cores s
  | .dbgStep cores => Sys2Proof.Machine.execDbgStep cores s
  | .dbgLcnDataWrite core value => Sys2Proof.Machine.execDbgLcnDataWrite core value s
  | .pulseTrailingEdge pin => Sys2Proof.Machine.execPulseTrailingEdge pin s
  | .gateBoundary path => Sys2Proof.Machine.execGateBoundary path s
  | .coarseCounterUpdate => Sys2Proof.Machine.execCoarseCounterUpdate s
  | .mirrorLoaderFilled t => Sys2Proof.Machine.execMirrorLoaderFilled t s
  | .class2CommandDone t ok readback => Sys2Proof.Machine.execClass2CommandDone t ok readback s
  | .sectorEraseDone ok => Sys2Proof.Machine.execSectorEraseDone ok s
  | .registerAcknowledge domain => Sys2Proof.Machine.execRegisterAcknowledge domain s
  | .spitCsNRise port => Sys2Proof.Machine.execSpitCsNRise port s

end Sys2Proof.Machine
end

