-- ==== Sys2Proof/Safety.lean ====
section
/-! DEFINITION. What counts as a safe step and a well-shaped state, and when a packet is accepted and executed, in the terms the
statements use. -/

namespace Sys2Proof.Machine

/-- A step that goes on: no fault, no refusal. -/
def GoesOn (s : State) : Prop := ∃ t, step s = .next t

/-- The Last lies within its range (R477). -/
def TimeInRange (s : State) : Prop := 0 ≤ s.last.counter ∧ s.last.counter < topTime

/-- The tables of one Lens core have their sizes (Table 11.2, Table 11.5). -/
def coreShaped (c : LensCore) : Bool :=
  c.slots.length = 4 && c.d.length = 16 && c.a.length = 8 && c.p.length = 8 && c.m.length = 8 && c.l.length = 8 && c.o.length = 8

/-- Every table of units has its number of entries (R19). -/
def shaped (s : State) : Bool :=
  s.tenants.length = 16 && s.store.owner.length = 256 && s.store.keys.length = 17 && s.eth.ports.length = 4 &&
    s.eth.talkers.length = 64 && s.eth.listeners.length = 64 && s.trig.pins.length = 32 && s.trig.paths.length = 16 &&
    s.trig.fsgs.length = 8 && s.plink.ports.length = 4 && s.audio.mcgs.length = 4 && s.audio.ports.length = 8 &&
    s.prism.buses.length = 128 && s.prism.pipes.length = 6 && s.lens.length = 8 && s.lens.all coreShaped && s.pwr.volts.length = 12 && s.pwr.lowSeen.length = 12 &&
    s.last.cal.trace.length = 32 && s.last.cal.phyTx.length = 4 && s.last.cal.phyRx.length = 4 && s.last.cal.asym.length = 4 &&
    s.last.cal.cell.length = 12 && s.dbg.sel.length = 8

/-! Memories: the Store (R131), the local memories of the Lens cores (Table 11.2), the flash (13), the inboxes (R84). Each is a list of
keys and values in one canonical form: keys strictly rising, and no entry equal to what an unlisted key is known to read as. -/

/-- The keys of a list rise strictly. -/
def rising {α : Type} : List (Nat × α) → Bool
  | [] => true
  | p :: l => l.all (fun q => decide (p.1 < q.1)) && rising l

/-- A memory whose unlisted keys read as a known value. -/
def canonical {α : Type} [DecidableEq α] (blank : α) (l : List (Nat × α)) : Bool := rising l && l.all fun p => !decide (p.2 = blank)

/-- The Store's cells: those of the staging pages read zero when unlisted, the others a value left open (R138). -/
def storeWf (l : List (Nat × Byte)) : Bool :=
  rising l && l.all fun p => !(stagingPage (pageOf (p.1 % 2 ^ 24)) && decide (p.2 = 0))

/-- The local memories of a Lens core read zero where no word is listed. -/
def coreMemWf (c : LensCore) : Bool := canonical 0 c.pm && canonical 0 c.xm && canonical 0 c.ym

/-- Every memory of the block is in its canonical form. -/
def Memory.wf (s : State) : Bool :=
  storeWf s.store.cells && s.lens.all coreMemWf && canonical 0xFF s.evrec.flash.cells && s.tenants.all fun n => rising n.inbox

/-! Packets (04). -/

/-- A packet reaches the interpreter: the engine serves commands, the packet's tenant is open and admitted on the transport (R85),
16 reply entries are free unless it came over the fabric (R92), the control core is not halted (R446), and no packet waits before it or
for the Store (R100, R127). -/
def reaches (i : Instr) (s : State) : Bool :=
  match reqOf i with
  | some r =>
    !s.sys.hostBoot && serving s && viaUp s r.via && admitted s r.tenant r.via &&
      (r.origin.isSome || decide ((s.tenant r.tenant).replyQ.length ≤ 64)) && !ctlHalted s && !m0Waits s i
  | none => false

/-- A packet reaches the interpreter and passes checks 4 to 10 of R98. -/
def accepted (i : Instr) (s : State) : Bool :=
  reaches i s && (match reqOf i, meaningOf i with
    | some r, some m => decide (refusal i r m s = none)
    | _, _ => false)

/-- An accepted packet of class 0 that is neither staged nor held for a swap boundary (R100, R104), and whose registers lie in a domain
that acknowledges (R64). -/
def runsAtOnce (i : Instr) (s : State) : Bool :=
  accepted i s && (silentDomain s i).isNone && (match reqOf i with
    | some r => r.cls = 0 && (r.group = 0 || isGroupCmd i) && !atSwap i
    | none => false)

/-- u with the traces of recorded events and drawn free values of s put back. -/
def sansEvents (s u : State) : State :=
  { u with
    free := s.free, evrec := s.evrec
    sys := { u.sys with aonEvents := s.sys.aonEvents, aonDropped := s.sys.aonDropped } }

/-- A packet's command answers: from s its effect leaves u, and the reply st with its results is posted. -/
def Answers (i : Instr) (s : State) (st : Status) (res : List Byte) (u : State) : Prop :=
  ∃ r, reqOf i = some r ∧ exec i s = .next (msixScan 16 (say r i st res u))

/-- The last command of a tenant's class 2 queue ends well, with what its unit read back (R100, R117). -/
def endsWell (t : Fin 16) (i : Instr) (s : State) : Bool :=
  (match (s.tenant t).class2, meaningOf i with
    | [c], some m => c.cmd = i && !c.denied && m.ready s
    | _, _ => false) && (match reqOf i with | some r => r.tenant = t | none => false) && !ctlHalted s && fwRuns s

/-- The last command of a tenant's class 2 queue ends: from s its effect leaves u, and its final reply st with its results is posted. -/
def EndsAs (t : Fin 16) (ok : Bool) (readback : BitVec 256) (i : Instr) (s : State) (st : Status) (res : List Byte) (u : State) : Prop :=
  ∃ r, reqOf i = some r ∧ exec (.class2CommandDone t ok readback) s =
    .next (msixScan 16 (finishClose t (say r i st res (modTenant t (fun n => { n with class2 := [] }) u))))

/-- No PAGE_COPY is under way in the Store (R141). -/
def noCopy (s : State) : Bool := s.tenants.all fun n => (copyOf n).isNone

/-! Ethernet time ports (06). -/

/-- The line of a port is free, and its shaped queues are empty with no credit (R165). -/
def lineIdle (s : State) (p : Nat) : Bool :=
  let q := s.ethPort p
  decide (q.lineFree ≤ s.last.cycles) && q.shapeA.frames.isEmpty && q.shapeB.frames.isEmpty && decide (q.shapeA.credit = 0) &&
    decide (q.shapeB.credit = 0)

/-! Lens cores (11). -/

/-- Core n is about to execute instruction i: it is live and not halted, its program counter lies in the region of the slot that runs,
the word there spells i, and no abort waits. -/
def lensReady (n : Fin 8) (i : Instr) (s : State) : Bool :=
  lensLive s n && !s.dbg.halted.getLsbD (1 + n) && inRegion (s.core n) && decide (lensDecode n (pmWord (s.core n) (s.core n).pc) = some i) &&
    !(s.core n).aborting

/-- The two moves of an instruction can be done: their addresses are good, and they load no register twice (R306, R310, R311). -/
def movesRun (c : LensCore) (x y : Move) : Bool :=
  match moveAct c c.xm x, moveAct c c.ym y with
  | .ok a, .ok b => !(a.loads.any fun p => b.loads.any fun q => p.1 = q.1)
  | _, _ => false

/-- An instruction that the tables allow: legal moves, condition codes 0 to 8, left shifts to 31, registers grouped as Table 11.9 says,
selectors 0 to 41. -/
def lensLegal : Instr → Bool
  | .lBr _ cc _ => cc.toNat < 9
  | .lAdd _ _ _ _ x y | .lSub _ _ _ _ x y | .lAnd _ _ _ _ x y | .lOr _ _ _ _ x y | .lXor _ _ _ _ x y | .lAsr _ _ _ _ x y
  | .lLsr _ _ _ _ x y | .lAbs _ _ _ x y | .lNeg _ _ _ x y | .lMin _ _ _ _ x y | .lMax _ _ _ _ x y | .lMov _ _ _ x y | .lCmp _ _ _ x y
  | .lPar _ x y | .lMpy _ _ _ _ _ _ x y | .lMac _ _ _ _ _ _ x y | .lClr _ _ x y | .lRnd _ _ _ _ x y | .lMva _ _ _ x y =>
    moveLegal x && moveLegal y
  | .lAsl _ _ _ sh x y => sh.toNat < 32 && moveLegal x && moveLegal y
  | .lMpy4 _ a _ q _ _ x y | .lMac4 _ a _ q _ _ x y => a.toNat % 4 = 0 && q.toNat % 4 = 0 && moveLegal x && moveLegal y
  | .lMac2e _ _ p _ _ x y => p.toNat % 2 = 0 && moveLegal x && moveLegal y
  | .lMac2c _ a p q _ x y => a.toNat % 2 = 0 && p.toNat % 2 = 0 && q.toNat % 2 = 0 && moveLegal x && moveLegal y
  | .lClr4 _ a x y => a.toNat % 4 = 0 && moveLegal x && moveLegal y
  | .lLdi _ r _ => r.toNat < 42
  | .lMvr _ r1 r2 => r1.toNat < 42 && r2.toNat < 42
  | _ => true

/-- The core a Lens instruction names. -/
def coreOf : Instr → Option (Fin 8)
  | .lNop n | .lEnd n | .lBr n _ _ | .lCall n _ | .lRet n | .lLoop n _ _ _ _ _ | .lRep n _ _ _ | .lBrk n
  | .lAdd n _ _ _ _ _ | .lSub n _ _ _ _ _ | .lAnd n _ _ _ _ _ | .lOr n _ _ _ _ _ | .lXor n _ _ _ _ _ | .lAsl n _ _ _ _ _
  | .lAsr n _ _ _ _ _ | .lLsr n _ _ _ _ _ | .lAbs n _ _ _ _ | .lNeg n _ _ _ _ | .lMin n _ _ _ _ _ | .lMax n _ _ _ _ _
  | .lMov n _ _ _ _ | .lCmp n _ _ _ _ | .lPar n _ _ | .lMpy n _ _ _ _ _ _ _ | .lMac n _ _ _ _ _ _ _ | .lMpy4 n _ _ _ _ _ _ _
  | .lMac4 n _ _ _ _ _ _ _ | .lMac2e n _ _ _ _ _ _ | .lMac2c n _ _ _ _ _ _ | .lClr n _ _ _ | .lClr4 n _ _ _ | .lRnd n _ _ _ _ _
  | .lMva n _ _ _ _ | .lLdi n _ _ | .lMvr n _ _ | .lLds n _ _ | .lSts n _ _ | .lLks n _ _ | .lUns n _ _ | .lLdb n _ _ _
  | .lStb n _ _ _ => some n
  | _ => none

end Sys2Proof.Machine
end

