-- ==== Sys2Proof/Certificates/Slice0/Obligations.lean ====
section
/-! DEFINITION. The statements for the provers. A statement about a command's result says that `exec` answers the next state in which
the effect has happened, its reply is posted and the interrupts follow (`Answers`, `runsAtOnce`, Safety.lean). -/

open Sys2Proof Sys2Proof.Machine

/-! The machine. -/

/-- A step with a command waiting is that command on the rest of the queue. -/
def Obligations.StepRunsFront : Prop :=
  ∀ (c : Instr) (rest : List Instr) (s : State),
    step { s with pending := c :: rest } = exec c { s with pending := rest }

/-- Every command goes on: from every state it answers a next state, never a fault and never a refusal. The command of a packet that runs at
once has the effect that its checks let through, and its reply is posted. What the next state is, and under which conditions on the state
and the operands a command has its own effect, the statement of its family says of each. -/
def Obligations.EveryCommandCompletes : Prop :=
  (∀ (i : Instr) (s : State), ∃ t, exec i s = .next t) ∧
  (∀ (i : Instr) (m : Meaning) (s : State), meaningOf i = some m → runsAtOnce i s = true →
    Answers i s (m.effect (m.copy s) s).2.1 (m.effect (m.copy s) s).2.2 (m.effect (m.copy s) s).1)

/-- R29: after power-on, and after loss of AON power, the Last starts at 0 s, FREE, with VALID 0. AON_POWER_LOSS, and
POWER_ON_RESET of an engine that is OFF, answer such a state. -/
def Obligations.LastStartsAtZero : Prop :=
  (State.reset.last.counter = 0 ∧ State.reset.last.servo = .free ∧ State.reset.last.valid = false) ∧
  (∀ s : State, ∃ t, exec .aonPowerLoss s = .next t ∧ t.last.counter = 0 ∧ t.last.servo = .free ∧ t.last.valid = false) ∧
  (∀ s : State, s.pwr.mode = .off → ∃ t, exec .powerOnReset s = .next t ∧
    t.last.counter = 0 ∧ t.last.servo = .free ∧ t.last.valid = false)

/-- What the spec gives at AON power-up: FAULT_N low at L0, the three AON balls low (R385), the Shank's settings (R404), the watchdog
count 0 (R377), T0 open on every transport and no other tenant open (R85), every table of units whole (R19). -/
def Obligations.ResetState : Prop :=
  State.reset.pending = [] ∧ levelOf State.reset = 0 ∧ faultN State.reset = false ∧
  State.reset.pwr.holdEn = false ∧ State.reset.pwr.chgEn = false ∧ State.reset.pwr.pwrSleep = false ∧
  State.reset.pwr.en = false ∧ State.reset.pwr.cells = 0 ∧ State.reset.pwr.balMode = false ∧ State.reset.pwr.charge = false ∧
  State.reset.pwr.vOv = 2700 ∧ State.reset.pwr.balTimeout = 4 ∧ State.reset.wdog.count = 0 ∧
  (∀ v, admitted State.reset 0 v = true) ∧ (∀ t, 1 ≤ t → t < 16 → (State.reset.tenant t).st = .closed) ∧
  shaped State.reset = true

/-- Every table of units keeps its number of entries (R19), from every state that has them. -/
def Obligations.StepKeepsShape : Prop :=
  ∀ s t : State, shaped s = true → step s = .next t → shaped t = true

/-! Packets (04). -/

/-- R98: a packet that reaches the interpreter and fails a check gets the first status that applies and is not executed: beside the
reply, the events recorded and the interrupts, nothing changes. -/
def Obligations.RefusedPacketIsNotExecuted : Prop :=
  ∀ (i : Instr) (r : Req) (m : Meaning) (s : State) (st : Status), reqOf i = some r → meaningOf i = some m →
    reaches i s = true → refusal i r m s = some st → ∃ u, Answers i s st [] u ∧ sansEvents s u = s

/-- The result bytes of the commands that only report (Tables 2.6, 4.9, 5.5, 6.3, 7.3, 8.7, 9.6, 10.11, 11.13, 13.8, 14.5, 15.5, 17.5). -/
def statusBytes : Instr → Option Nat
  | .sysInfo _ => some 28 | .groupStatus _ => some 8 | .fuseRead _ _ => some 36 | .timeGet _ => some 20 | .lastStatus _ => some 32
  | .calGet _ _ _ _ => some 12 | .pageInfo _ => some 40 | .pageRead _ _ _ n => some n.toNat | .ethPortStatus _ _ => some 24
  | .gptpStatus _ _ => some 40 | .avtpStreamStatus _ _ _ => some 32 | .fsgStatus _ _ => some 32 | .plinkStatus _ _ => some 32
  | .plinkTopology _ => some 40 | .plinkDelayGet _ _ => some 32 | .mcgMeasure _ _ => some 24 | .aportStatus _ _ => some 32
  | .prismStatus _ _ => some 16 | .sceneList r => some (if r.origin.isSome then 232 else 264) | .mirrorStatus _ => some 32
  | .lensStatus _ _ => some 24 | .evrecStatus _ => some 48 | .wdogStatus _ => some 16 | .superviseStatus _ => some 16
  | .powerStatus _ => some 16 | .stackStatus _ => some 40 | .dbgStatus _ => some 8
  | _ => none

/-- A command that only reports answers S_OK with its table's result bytes and changes nothing (frame: all of the state but the
counter of free values). -/
def Obligations.ReportsChangeNothing : Prop :=
  ∀ (i : Instr) (s : State) (n : Nat), statusBytes i = some n → runsAtOnce i s = true →
    ∃ (res : List Byte) (u : State), res.length = n ∧ Answers i s .ok res u ∧ u = { s with free := u.free }

/-- R113, R136, R362: TENANT_OPEN opens a closed tenant on the transports named, draws its key, puts its Eyelet at reset values and
sets the open marks; frame: no other tenant, and of the Store nothing but the keys.

R117, R118: TENANT_CLOSE of an open tenant takes all it holds back to Root, cancels its commands, closes its groups, deletes its
scenes and zeroises its key; frame: no other unit changes hands, the Last stays. TENANT_CLOSE of a closing one closes it at once. -/
def Obligations.TenantsOpenAndClose : Prop :=
  (∀ (r : Req) (tenant transports : Byte) (s : State),
     runsAtOnce (.tenantOpen r tenant transports) s = true → shaped s = true →
     ∃ u, Answers (.tenantOpen r tenant transports) s .ok [] u ∧
       u.tenant tenant.toNat =
         { st := .open, transports := transports.setWidth 4, openC := s.evrec.cHead, openB := s.evrec.bHead
           markDue := decide (s.evrec.cState = 1) } ∧
       nth u.store.keys tenant.toNat = some (s.store.draws + 1) ∧
       (∀ k, k ≠ tenant.toNat → u.tenant k = s.tenant k) ∧
       sansEvents s u = { s with
         tenants := u.tenants
         store := { s.store with keys := u.store.keys, drawn := u.store.drawn, draws := s.store.draws + 1 } }) ∧
  (∀ (r : Req) (tenant : Byte) (s : State), runsAtOnce (.tenantClose r tenant) s = true → shaped s = true →
     ∃ u res, Answers (.tenantClose r tenant) s .ok res u ∧
       ((s.tenant tenant.toNat).st = .closing → res = [0, 0, 0, 0] ∧ (u.tenant tenant.toNat).st = .closed ∧
         (u.tenant tenant.toNat).replyQ = [] ∧ (u.tenant tenant.toNat).outFull = false) ∧
       ((s.tenant tenant.toNat).st = .open → (u.tenant tenant.toNat).st ≠ .open ∧ (u.tenant tenant.toNat).pend = [] ∧
         (u.tenant tenant.toNat).groups = [] ∧ (u.tenant tenant.toNat).scenes = [] ∧ nth u.store.keys tenant.toNat = none ∧
         (∀ ty n, n < unitCount ty → ownerOf s ty n = tenant.toNat → ownerOf u ty n = 0) ∧
         (∀ ty n, ownerOf s ty n ≠ tenant.toNat → ownerOf u ty n = ownerOf s ty n) ∧ u.last = s.last))

/-- R81: GRANT moves every unit of its range from Root to the tenant; when a unit of the range is held by a tenant other than Root it
answers S_NO_RESOURCE, and none moves. Frame: no other unit changes hands, and nothing else changes. -/
def Obligations.GrantMovesUnits : Prop :=
  ∀ (r : Req) (tenant type : Byte) (first count : Half) (s : State), shaped s = true →
    (runsAtOnce (.grant r tenant type first count) s = true →
      ∃ u, Answers (.grant r tenant type first count) s .ok [] u ∧
        (∀ k, k < count.toNat → ownerOf s type.toNat (first.toNat + k) = 0 ∧
          ownerOf u type.toNat (first.toNat + k) = tenant.toNat) ∧
        (∀ ty n, ¬ (ty = type.toNat ∧ first.toNat ≤ n ∧ n < first.toNat + count.toNat) → ownerOf u ty n = ownerOf s ty n) ∧
        sansEvents s u = { s with owners := u.owners, store := { s.store with owner := u.store.owner } }) ∧
    (reaches (.grant r tenant type first count) s = true → r.cls = 0 → r.group = 0 → r.tenant = 0 →
      tenant ≠ 0 → tenant.toNat < 16 → (s.tenant tenant.toNat).st = .open → badUnits type first count = false →
      (∃ k, k < count.toNat ∧ ownerOf s type.toNat (first.toNat + k) ≠ 0) →
      Answers (.grant r tenant type first count) s .noResource [] s)

/-- R83: REVOKE returns to Root the units of its range that the tenant holds; frame: no other unit changes hands, the Last and the
fuses stay. -/
def Obligations.RevokeReturnsUnits : Prop :=
  ∀ (r : Req) (tenant type : Byte) (first count : Half) (s : State),
    runsAtOnce (.revoke r tenant type first count) s = true → shaped s = true →
    ∃ u res, res.length = 4 ∧ Answers (.revoke r tenant type first count) s .ok res u ∧
      (∀ ty n, (ty = type.toNat ∧ first.toNat ≤ n ∧ n < first.toNat + count.toNat ∧ ownerOf s ty n = tenant.toNat) →
        ownerOf u ty n = 0) ∧
      (∀ ty n, ¬ (ty = type.toNat ∧ first.toNat ≤ n ∧ n < first.toNat + count.toNat ∧ ownerOf s ty n = tenant.toNat) →
        ownerOf u ty n = ownerOf s ty n) ∧
      u.last = s.last ∧ u.sys.fuses = s.sys.fuses

/-- R100, R104: an accepted packet with GROUP is staged at its GSEQ in its group with its entries (R105), and only its tenant's groups
change beside the interim reply. -/
def Obligations.StagingStages : Prop :=
  ∀ (i : Instr) (r : Req) (m : Meaning) (s : State), reqOf i = some r → meaningOf i = some m → accepted i s = true →
    r.group ≠ 0 → isGroupCmd i = false →
    ∃ u g, exec i s = .next u ∧ groupOf (u.tenant r.tenant) r.group.toNat = some g ∧
      g.staged = insertStaged { gseq := r.gseq.toNat, entries := entriesOf s i, cmd := i, copied := m.copy s }
        (match groupOf (s.tenant r.tenant) r.group.toNat with | some g => g.staged | none => []) ∧
      (u.tenant r.tenant).pend = (s.tenant r.tenant).pend ∧
      u = { s with tenants := u.tenants, out := u.out, plink := u.plink, evrec := u.evrec, sys := u.sys }

/-- R100, R106, R290, R326: the groupable commands of Prism and of Lens cores sent without GROUP, and GROUP_COMMIT, wait in class 0 or 1
for a Mirror swap boundary, from acceptance or from their apply time on: they join their tenant's pending commands with the entries
they copied, which the loader has yet to fill into the shadow bank. Frame: nothing else but the interim reply. -/
def Obligations.SwapCommandsWait : Prop :=
  ∀ (i : Instr) (r : Req) (m : Meaning) (s : State), reqOf i = some r → meaningOf i = some m → accepted i s = true →
    atSwap i = true → (r.group = 0 ∨ isGroupCmd i = true) →
    ∃ u, exec i s = .next u ∧
      (u.tenant r.tenant).pend = (s.tenant r.tenant).pend ++
        [{ cmd := i, due := if r.cls = 1 ∧ tooClose s r i = false then applyTime r.apply else s.now, timed := decide (r.cls = 1)
           copied := m.copy s, loaded := false }] ∧
      u = { s with tenants := u.tenants, out := u.out, plink := u.plink, evrec := u.evrec, sys := u.sys }

/-- R106, R107: GROUP_COMMIT marks its group as committing with its numbers of commands, entries and epochs; GROUP_ABORT discards the
group and nothing else (R112).

R107: an epoch takes the longest run of commands from the front, in GSEQ order, whose entries total 4,096 or fewer, and never
divides one command's entries. -/
def Obligations.EpochsAndGroupCommands : Prop :=
  ((∀ (r : Req) (s : State) (g : Group), accepted (.groupCommit r) s = true →
     groupOf (s.tenant r.tenant) r.group.toNat = some g →
     ∃ u h, exec (.groupCommit r) s = .next u ∧ groupOf (u.tenant r.tenant) r.group.toNat = some h ∧ h.staged = g.staged ∧
       h.committing = true ∧ h.commands = g.staged.length ∧ h.entries = groupEntries g ∧ h.epoch = 0 ∧
       (groupEntries g ≤ 4096 → h.epochs = if g.staged = [] then 0 else 1)) ∧
   (∀ (r : Req) (s : State) (g : Group), runsAtOnce (.groupAbort r) s = true →
     groupOf (s.tenant r.tenant) r.group.toNat = some g →
     ∃ u, Answers (.groupAbort r) s .ok (le 4 (groupEntries g)) u ∧ groupOf (u.tenant r.tenant) r.group.toNat = none ∧
       (∀ n, n ≠ r.group.toNat → groupOf (u.tenant r.tenant) n = groupOf (s.tenant r.tenant) n) ∧
       u = { s with tenants := updAt s.tenants r.tenant fun n => { n with groups := (u.tenant r.tenant).groups } })) ∧
  (∀ l : List Staged, (∀ x ∈ l, x.entries ≤ 4096) →
     (takeEpoch 0 l).1 ++ (takeEpoch 0 l).2 = l ∧ ((takeEpoch 0 l).1.map fun x => x.entries).sum ≤ 4096 ∧
     (∀ x rest, (takeEpoch 0 l).2 = x :: rest → 4096 < ((takeEpoch 0 l).1.map fun x => x.entries).sum + x.entries))

/-- R100, R101: an accepted class 1 command, whose apply time is not too close, waits for its time with its interim reply; frame:
nothing else changes. FABRIC_APPLY, which also broadcasts, has a statement of its own. -/
def Obligations.TimedCommandsWait : Prop :=
  ∀ (i : Instr) (r : Req) (m : Meaning) (s : State), reqOf i = some r → meaningOf i = some m → accepted i s = true →
    r.cls = 1 → tooClose s r i = false → atSwap i = false → (∀ q fid, i ≠ .fabricApply q fid) →
    ∃ u, exec i s = .next u ∧
      (u.tenant r.tenant).pend = (s.tenant r.tenant).pend ++
        [{ cmd := i, due := applyTime r.apply, timed := true, copied := m.copy s }] ∧
      u = { s with tenants := u.tenants, out := u.out, plink := u.plink, evrec := u.evrec, sys := u.sys }

/-- R37, R103: of a tenant's pending commands that are due, the one of the earliest TIME cycle is first, in one cycle steps of the counter
before other actions, and among equals the one accepted first; the others stay pending in their order.

R100, R103: TIMED_COMMAND_APPLY gives a pending command that is due its effect, judged again, with its final reply; with nothing due, or with
another tenant's command before it, nothing changes but the interrupts. R37: a step takes effect with the other steps of its boundary. R64: one
whose registers lie in a domain that does not acknowledge is held at the bridge. -/
def Obligations.TimedCommandTakesEffect : Prop :=
  (∀ (s : State) (t : Nat) (l : List Pending) (p : Pending) (rest : List Pending), firstDue s t l = some (p, rest) →
     ∃ a b, l = a ++ p :: b ∧ rest = a ++ b ∧ waitsForSwap s p.cmd = false ∧ p.due ≤ s.now ∧
       (∀ q ∈ a, isDue s q = true → rankBefore (dueRank s t p) (dueRank s t q) = true) ∧
       (∀ q ∈ b, isDue s q = true → rankBefore (dueRank s t q) (dueRank s t p) = false)) ∧
  (∀ (t : Fin 16) (s : State), ctlHalted s = false → fwRuns s = true →
     (firstDue s t (s.tenant t).pend = none → exec (.timedCommandApply t) s = .next (msixScan 16 s)) ∧
     (∀ p rest, firstDue s t (s.tenant t).pend = some (p, rest) →
       (outranked s t p = true → exec (.timedCommandApply t) s = .next (msixScan 16 s)) ∧
       (outranked s t p = false → isStep p.cmd = true →
         exec (.timedCommandApply t) s = .next (msixScan 16 (applySteps (stepsWith s p) s)))) ∧
     (∀ p rest r m, firstDue s t (s.tenant t).pend = some (p, rest) → reqOf p.cmd = some r → meaningOf p.cmd = some m →
       p.passed = false → p.halted = false → outranked s t p = false → isStep p.cmd = false →
       let s1 := modTenant t (fun n => { n with pend := rest }) s
       (∀ d, silentDomain s p.cmd = some d → exec (.timedCommandApply t) s =
         .next (msixScan 16 (holdWrite d { tenant := t, cmd := p.cmd, timed := p.timed, copied := p.copied } s1))) ∧
       (silentDomain s p.cmd = none → judgeAgain s1 p.cmd m = none →
         exec (.timedCommandApply t) s = .next (msixScan 16 (post t p.timed
           (mkReply r (opInfo p.cmd).op (m.effect p.copied s1).2.1 (nowNs s) (m.effect p.copied s1).2.2)
           (m.effect p.copied s1).1))) ∧
       (∀ st, silentDomain s p.cmd = none → judgeAgain s1 p.cmd m = some st → ∃ u, sansEvents s u = s1 ∧
         exec (.timedCommandApply t) s = .next (msixScan 16 (post t p.timed (mkReply r (opInfo p.cmd).op st (nowNs s) []) u)))))

/-- R100: an accepted class 2 command joins its tenant's queue of them, behind those that came before. -/
def Obligations.Class2CommandsQueue : Prop :=
  ∀ (i : Instr) (r : Req) (m : Meaning) (s : State), reqOf i = some r → meaningOf i = some m → accepted i s = true → r.cls = 2 →
    ∃ u, exec i s = .next u ∧ (u.tenant r.tenant).class2 = (s.tenant r.tenant).class2 ++ [{ cmd := i }] ∧
      (u.tenant r.tenant).pend = (s.tenant r.tenant).pend ∧ u.last = s.last ∧ u.owners = s.owners ∧ u.store = s.store

/-- R91 to R93: a reply to an open tenant without rings, whose outbox is free and whose queue is empty, stands in the outbox at once;
with the outbox full it waits in the queue. Frame: of the state only that tenant's Eyelet changes.

R96: every packet's last word is the CRC-32C over the bytes before it; its check value over the ASCII string 123456789. -/
def Obligations.ReplyGoesToTheOutbox : Prop :=
  (∀ (t : Nat) (timed : Bool) (r : Reply) (s : State), s.wdog.grace = false → r.dest = none → (s.tenant t).st = .open →
    (s.tenant t).ringEn = false →
    ((s.tenant t).replyQ = [] → (s.tenant t).waiting = [] → (s.tenant t).outFull = false →
      post t timed r s = modTenant t (fun n => { n with outbox := replyBytes r, outFull := true }) s) ∧
    ((s.tenant t).outFull = true → (s.tenant t).replyQ.length < 80 →
      post t timed r s = modTenant t (fun n => { n with replyQ := n.replyQ ++ [r] }) s)) ∧
  (∀ r : Reply, r.raw = [] → ∃ body, replyBytes r = body ++ leBits 4 (crc32c body)) ∧
  crc32c [0x31, 0x32, 0x33, 0x34, 0x35, 0x36, 0x37, 0x38, 0x39] = 0xE3069283#32

/-- R88, R90, R91, R93, R117: SEND marks the inbox busy until its packet is taken, and is ignored while it is busy; TAKE releases the outbox
for the next queued reply; interrupts see both states; PACKET_TAKE takes a waiting inbox packet, or the next ring slot while TAIL is ahead; the ring indices are
software's to write.

R14, R15, R84 to R87: a word that a host writes over PCIe or SPI to an Eyelet it is admitted to has its effect: here EY_IRQ_EN, and
the bytes of the inbox while it is not busy. A write that no admitted transport makes changes nothing, and a read of it returns zero. R86: the rise
of SPITn_CS_N discards an incomplete word. -/
def Obligations.EyeletAccesses : Prop :=
  ((∀ (t : Fin 16) (via : Transport) (s : State), eyeletUp s t via = true → (s.tenant t).st = .open →
     ((s.tenant t).inboxBusy = true → exec (.send t via) s = .next (msixScan 16 s)) ∧
     (let sent := msixTenant (modTenant t (fun n => { n with inboxBusy := true, inboxVia := via }) s) t
      ((s.tenant t).inboxBusy = false → canTake s t = false → exec (.send t via) s = .next (msixScan 16 sent)) ∧
      ((s.tenant t).inboxBusy = false → canTake s t = true →
        exec (.send t via) s = .next (msixScan 16 (takeRaw { tenant := t, via := via } (inboxBytes (s.tenant t))
          (modTenant t (fun n => { n with inboxBusy := false, inboxHigh := 0 }) sent)))))) ∧
   (∀ (t : Fin 16) (via : Transport) (s : State), eyeletUp s t via = true →
     exec (.take t via) s = .next (msixScan 16 (deliver t (msixTenant (modTenant t (fun n => { n with outFull := false }) s) t)))) ∧
   (∀ (t : Fin 16) (s : State), canTake s t = true → (s.tenant t).inboxBusy = true →
     exec (.packetTake t none) s = .next (msixScan 16 (takeRaw { tenant := t, via := (s.tenant t).inboxVia } (inboxBytes (s.tenant t))
       (modTenant t (fun n => { n with inboxBusy := false, inboxHigh := 0 }) s)))) ∧
   (∀ (t : Fin 16) (slot : List Byte) (s : State), canTake s t = true → (s.tenant t).ringEn = true →
     (s.tenant t).cHead ≠ (s.tenant t).cTail → admitted s t .pcie = true → viaUp s .pcie = true →
     exec (.packetTake t (some slot)) s = .next (msixScan 16 (takeRaw { tenant := t, via := .pcie }
       (slot.take (min 1024 (4 * (5 + pktPlen slot)))) (modTenant t (fun n => { n with cHead := n.cHead + 1 }) s)))) ∧
   (∀ (t : Fin 16) (tail : Half) (s : State), eyeletAny s t = true → (s.tenant t).st = .open →
     exec (.eyCringIdxTailWrite t tail) s = .next (msixScan 16 (modTenant t (fun n => { n with cTail := tail }) s))) ∧
   (∀ (t : Fin 16) (head : Half) (s : State), eyeletAny s t = true →
     exec (.eyRringIdxHeadWrite t head) s = .next (msixScan 16 (deliver t (modTenant t (fun n => { n with rHead := head }) s))))) ∧
  ((∀ (t : Fin 16) (v : Word) (s : State), eyeletUp s t .pcie = true →
     exec (.registerWrite (.host .pcie) (BitVec.ofNat 32 (0x400F0008 + 4096 * t.val)) 4 v) s =
       .next (msixScan 16 (modTenant t (fun n => { n with irqEn := v.setWidth 6 }) s))) ∧
   (∀ (t : Fin 16) (v : Word) (s : State), eyeletUp s t .spit0 = true →
     ∃ u, exec (.registerWrite (.host .spit0) (BitVec.ofNat 32 (0x400F0008 + 4096 * t.val)) 4 v) s = .next (msixScan 16 u) ∧
       u = modTenant t (fun n => { n with irqEn := v.setWidth 6 }) { s with sys := { s.sys with spiWord := u.sys.spiWord } }) ∧
   (∀ (t : Fin 16) (k : Nat) (v : Word) (s : State), eyeletUp s t .pcie = true → k < 256 → (s.tenant t).inboxBusy = false →
     t.val < s.tenants.length →
     ∃ u, exec (.registerWrite (.host .pcie) (BitVec.ofNat 32 (0x400F0100 + 4096 * t.val + 4 * k)) 4 v) s = .next (msixScan 16 u) ∧
       (∀ i, i < 4 → assoc (u.tenant t).inbox (4 * k + i) = some (nth (leBits 4 v) i)) ∧
       u = modTenant t (fun n => { n with inbox := (u.tenant t).inbox, inboxHigh := (u.tenant t).inboxHigh }) s) ∧
   (∀ (via : Transport) (addr v : Word) (n : BitVec 3) (s : State), eyeletUp s (offsetOf addr.toNat / 4096) via = false →
     exec (.registerWrite (.host via) addr n v) s = .next (msixScan 16 s)) ∧
   (∀ (t : Fin 16) (v : Word) (s : State), eyeletUp s t .pcie = false →
     exec (.registerWrite (.hostRead .pcie) (BitVec.ofNat 32 (0x400F0000 + 4096 * t.val)) 4 v) s =
       .next (msixScan 16 (emit (.hostData .pcie [0, 0, 0, 0]) s))) ∧
   (∀ (port : Fin 2) (s : State), ∃ u, exec (.spitCsNRise port) s = .next u ∧
     u.sys.spiWord = s.sys.spiWord.filter (fun x => x.1 ≠ port.val) ∧ u = { s with sys := { s.sys with spiWord := u.sys.spiWord } }))

/-- R116: while EN is 1 a write of EY_RING_CFG that keeps EN set is ignored, and one that clears it changes EN alone; EN is left 0 when a
size lies outside 1 to 12. -/
def Obligations.RingConfig : Prop :=
  ∀ (t : Fin 16) (v : Word) (s : State), eyeletAny s t = true → shaped s = true →
    ∃ u, exec (.eyRingCfgWrite t v) s = .next u ∧
      ((s.tenant t).ringEn = true → v.getLsbD 8 = true → u = msixScan 16 s) ∧
      ((s.tenant t).ringEn = true → (u.tenant t).clog2 = (s.tenant t).clog2 ∧ (u.tenant t).rlog2 = (s.tenant t).rlog2 ∧
        (u.tenant t).ringEn = v.getLsbD 8) ∧
      ((s.tenant t).ringEn = false → (u.tenant t).clog2 = v.extractLsb' 0 4 ∧ (u.tenant t).rlog2 = v.extractLsb' 4 4 ∧
        (u.tenant t).ringEn = (v.getLsbD 8 && decide (1 ≤ (v.extractLsb' 0 4).toNat) && decide ((v.extractLsb' 0 4).toNat ≤ 12) &&
          decide (1 ≤ (v.extractLsb' 4 4).toNat) && decide ((v.extractLsb' 4 4).toNat ≤ 12)))

/-! The Last (02) and the clocks (03). -/

/-- R37, R50, R30, R46: TIME_SET makes the next value of the counter the time given, ends a slew, sets VALID and the UTC fields, and
answers the time before; TIME_STEP adds its offset to the next value, or answers S_RANGE where the sum lies outside 0 to 2^48 s (R477).
Frame: beside the Last only what follows a step changes: time pins and FSGs (R201 to R203), the marks of timed commands (R55), the grid
of R245 with the stamps counted on it, and the numbers of its boundaries when it passes the end of its range (R38). -/
def Obligations.TimeSetAndStep : Prop :=
  (∀ (r : Req) (time : Stamp) (utc flags : Half) (s : State), runsAtOnce (.timeSet r time utc flags) s = true →
    ∃ u, Answers (.timeSet r time utc flags) s .ok (stampBytes (reportStamp s)) u ∧ u.last.counter = timeOf time ∧
      u.last.valid = true ∧ u.last.slew = none ∧ u.last.utcOffset = utc ∧ u.last.utcValid = flags.getLsbD 0 ∧
      u.last.servo = s.last.servo ∧ u.last.rateEff = s.last.rateEff ∧ u.last.cal = s.last.cal ∧
      u.audio.grid = (s.audio.grid + (timeOf time - cycleEnd s)) % gridSpan ∧
      sansEvents s u = { renumber ((s.audio.grid + (timeOf time - cycleEnd s)) / gridSpan) s with
        last := u.last, trig := u.trig, audio := u.audio
        tenants := if cycleEnd s < timeOf time then (markPassed (timeOf time) s).tenants else s.tenants }) ∧
  (∀ (r : Req) (offset : DWord) (s : State), runsAtOnce (.timeStep r offset) s = true →
    (inRange (cycleEnd s + ofFrac offset.toInt) = true →
      ∃ u, Answers (.timeStep r offset) s .ok (stampBytes (reportStamp s)) u ∧
        u.last.counter = cycleEnd s + ofFrac offset.toInt ∧ u.last.valid = true ∧ u.last.slew = none ∧
        u.last.servo = s.last.servo ∧ u.last.rateEff = s.last.rateEff ∧ u.last.cal = s.last.cal ∧
        u.audio.grid = (s.audio.grid + ofFrac offset.toInt) % gridSpan ∧
        sansEvents s u = { renumber ((s.audio.grid + ofFrac offset.toInt) / gridSpan) s with
          last := u.last, trig := u.trig, audio := u.audio, tenants := u.tenants }) ∧
    (inRange (cycleEnd s + ofFrac offset.toInt) = false → Answers (.timeStep r offset) s .range [] s))

/-- R46: while a source is selected TIME_SET, TIME_STEP, TIME_ADJUST and RATE_SET answer S_BUSY, in every class they have, when no
earlier status of R98 applies. -/
def Obligations.SteeringIsBusyUnderASource : Prop :=
  ∀ (i : Instr) (r : Req) (s : State), reqOf i = some r → reaches i s = true → r.group = 0 →
    (opInfo i).classes.contains r.cls.toNat = true → timeCheck s r i = none → (r.cls = 1 → timedCount (s.tenant r.tenant) < 64) →
    ownerOf s 0x08 0 = r.tenant → isFenced s fenceLast = false → s.last.src ≠ 0 →
    ((∃ time utc flags, i = .timeSet r time utc flags ∧ badNs time = false) ∨ (∃ offset, i = .timeStep r offset) ∨
      (∃ offset slew, i = .timeAdjust r offset slew ∧ slew ≠ 0 ∧ slew.toNat ≤ s.last.cfg.slewMax) ∨
      (∃ rate, i = .rateSet r rate ∧ rate.toInt ≤ 1099511627 ∧ -1099511627 ≤ rate.toInt)) →
    Answers i s .busy [] s

/-- R24, R36, R43, R50: RATE_SET sets the rate, clamped in FREE with the temperature term, and ends a slew; TIME_ADJUST sets the slew;
SOURCE_SET selects the source and enters ACQUIRE, or FREE for none; SERVO_CONFIG sets the loop, from the next sample on while a source
is selected. Frame: only the Last changes. -/
def Obligations.SteeringCommands : Prop :=
  (∀ (r : Req) (rate : Word) (s : State), runsAtOnce (.rateSet r rate) s = true →
    ∃ u, Answers (.rateSet r rate) s .ok [] u ∧
      u = { s with last := { s.last with rateSet := rate.toInt, slew := none, rateEff := u.last.rateEff } } ∧
      (s.last.servo = .free →
        u.last.rateEff = clampInt (-1099511627) 1099511627 (rate.toInt + tempTerm s.last.cal (thetaOf s)))) ∧
  (∀ (r : Req) (offset : DWord) (slew : Word) (s : State), runsAtOnce (.timeAdjust r offset slew) s = true →
    ∃ u res, res.length = 8 ∧ Answers (.timeAdjust r offset slew) s .ok res u ∧
      u = { s with
        free := u.free
        last := { s.last with
          slew := if ofFrac offset.toInt = 0 then none else some { left := ofFrac offset.toInt, ppb := slew.toNat } } }) ∧
  (∀ (r : Req) (src domain : Byte) (s : State), runsAtOnce (.sourceSet r src domain) s = true →
    ∃ u, Answers (.sourceSet r src domain) s .ok [] u ∧ u.last.src = src ∧ u.last.domain = domain ∧
      u.last.servo = (if src = 0 then .free else .acquire) ∧ u.last.slew = (if src = 0 then s.last.slew else none) ∧
      (src ≠ 0 → u.last.gap = 0) ∧
      u.last.counter = s.last.counter ∧ u.last.valid = s.last.valid ∧ sansEvents s u = { s with last := u.last }) ∧
  (∀ (r : Req) (a b c d : Word) (e f : Half) (s : State), runsAtOnce (.servoConfig r a b c d e f) s = true →
    ∃ u, Answers (.servoConfig r a b c d e f) s .ok [] u ∧
      (let new : ServoSet := { stepThr := a.toNat, lockThr := b.toNat, unlockThr := c.toNat, slewMax := d.toNat, lockCount := e.toNat
                               loopBw := f.toNat }
       u = { s with last := if s.last.src = 0 then { s.last with cfg := new, cfgNext := none } else { s.last with cfgNext := some new } }))

/-- R39, R44, R47: CAL_SET of Root changes the user term named and no other, and the calibration before it stays for launches of the next 1 us;
frame: beside the user calibration only the trims of reflex paths (R184, item 0x01). -/
def Obligations.CalSetChangesOneUserTerm : Prop :=
  ∀ (r : Req) (item index sub : Byte) (value : Word) (s : State), runsAtOnce (.calSet r item index sub value) s = true →
    shaped s = true →
    ∃ u, Answers (.calSet r item index sub value) s .ok [] u ∧
      userTerm u.last.cal item.toNat index.toNat sub.toNat = value.toInt ∧
      (∀ i k j, calTerm i k j = true → ¬ (i = item.toNat ∧ k = index.toNat ∧ j = sub.toNat) →
        userTerm u.last.cal i k j = userTerm s.last.cal i k j) ∧
      sansEvents s u = { s with
        last := { s.last with
          cal := u.last.cal, calOld := (s.last.calOld.filter fun x => s.now < x.2) ++ [(s.last.cal, s.now + ofNs 1000)] }
        trig := { s.trig with paths := u.trig.paths } }

/-- R25: while the TIME domain carries the Last, n cycles advance it by n steps of 2·(1 + rate_eff·2^-40) ns modulo 2^48 s (R477) when no
slew runs, and n + k cycles are n cycles and then k; frame: nothing but the Last changes.

R50: a slew ends in the cycle that adds its remainder, and leaves the rate as it was. -/
def Obligations.TimeCyclesAndSlews : Prop :=
  (∀ (n k : Nat) (s : State), s.last.coarse = false → domainUp s 3 = true → s.last.slew = none →
     ∃ t u, exec (.timeCycle n) s = .next t ∧ exec (.timeCycle k) t = .next u ∧ exec (.timeCycle (n + k)) s = .next u ∧
       t.last.counter = (s.last.counter + n * stepUnits s.last.rateEff) % topTime ∧ TimeInRange t ∧
       t.last.servo = s.last.servo ∧ t.last.rateEff = s.last.rateEff ∧ t.last.valid = s.last.valid ∧ t = { s with last := t.last }) ∧
  (∀ (s : State) (w : Slew), s.last.slew = some w → s.last.coarse = false → domainUp s 3 = true →
     w.left.natAbs ≤ (slewExtra s.last w).natAbs →
     ∃ t, exec .slewEnd s = .next t ∧ t.last.slew = none ∧
       t.last.counter = (s.last.counter + stepUnits s.last.rateEff + w.left) % topTime ∧ t.last.rateEff = s.last.rateEff ∧
       t = { s with last := t.last })

/-- R35: a servo sample steps the Last only in ACQUIRE, or where it enters ACQUIRE, and only when the offset is above STEP_THR and
STEP_THR is not 0. -/
def Obligations.ServoStepsOnlyInAcquire : Prop :=
  ∀ (off : Time) (s : State), (servoSample off s).last.counter ≠ s.last.counter →
    s.last.servo ≠ .locked ∧ s.last.src ≠ 0 ∧ (s.last.cfgNext.getD s.last.cfg).stepThr ≠ 0 ∧
      ofNs (s.last.cfgNext.getD s.last.cfg).stepThr < (if off < 0 then -off else off)

/-- R478, Table 2.5: a source whose gap has passed is lost: LOCKED goes to HOLDOVER and ACQUIRE to FREE, and before that nothing happens; R43: the die sensor's reading sets the
temperature term of FREE and HOLDOVER; R28: REFCLK that stops while the coarse counter carries the Last clears VALID; R25, R26: the
coarse counter moves the Last by one granule, and in OFF it does not count. Frame: beside the events only the Last changes. -/
def Obligations.LastEvents : Prop :=
  (∀ s : State, (gapOver s = false → exec .sourceLost s = .next s) ∧
    (gapOver s = true → ∃ u, exec .sourceLost s = .next u ∧
      u.last.servo = (match s.last.servo with | .locked => .holdover | .acquire => .free | x => x) ∧
      u.last.counter = s.last.counter ∧ u.last.valid = s.last.valid ∧
      sansEvents s u = { s with last := u.last, tenants := u.tenants, out := u.out })) ∧
  (∀ (die : BitVec 16) (s : State), ∃ u, exec (.tempTermUpdate die) s = .next u ∧ u.last.die = die.toInt ∧
    u = { s with last := { s.last with die := die.toInt, rateEff := u.last.rateEff } } ∧
    (s.last.servo = .free → u.last.rateEff =
      clampInt (-1099511627) 1099511627 (s.last.rateSet + tempTerm s.last.cal (die.toInt + Config.thetaOffset))) ∧
    (s.last.servo = .locked ∨ s.last.servo = .acquire → u.last.rateEff = s.last.rateEff)) ∧
  (∀ s : State, s.last.coarse = true → ∃ u, exec .refclkStopInSleep s = .next u ∧ u.last = { s.last with valid := false } ∧
    sansEvents s u = { s with last := u.last, tenants := u.tenants, out := u.out }) ∧
  (∀ s : State, s.last.coarse = true → s.pwr.mode = .off → exec .coarseCounterUpdate s = .next s) ∧
  (∀ s : State, s.last.coarse = true → s.sys.refclkHz = 25000000 → s.pwr.mode ≠ .off → ∃ u, exec .coarseCounterUpdate s = .next u ∧
    u.last.counter = (s.last.counter + 40 * nsU + 40 * nsU * s.last.rateEff / 2 ^ 40) % topTime ∧ u = { s with last := u.last })

/-- R75: REFCLK lost leaves the PLLs locked to it running with frozen control, its return ends that; R72: after a crystal failure
AON_SLOW runs from its RC. Frame: beside the event nothing else changes.

R70, R71, R76, Table 3.6: a domain whose clock its monitor counts out of range is marked lost and acted on as the table says, with event 0x0B20;
a PLL that unlocks loses every domain it drives; a lost clock back in range is declared returned while its PLL is locked, acted on with event
0x0B21, and releases the fence of R67. A clock that merely stops or has edges again changes no domain's reset. -/
def Obligations.ClockLossAndReturn : Prop :=
  ((∀ s : State, s.sys.refOk = true → s.sys.pllLock ≠ 0 → s.last.rcFallback = false →
     exec .refclkLost s = .next (msixScan 16 (record 0x0B22 0x10 [(1, s.last.servo.code)]
       { s with sys := { s.sys with refOk := false, frozen := true } }))) ∧
   (∀ s : State, s.sys.refOk = false → s.sys.pllLock ≠ 0 → s.sys.frozen = true →
     exec .refclkReturned s = .next (msixScan 16 (record 0x0B23 0x10 []
       { s with sys := { s.sys with refOk := true, frozen := false } }))) ∧
   (∀ s : State, s.sys.slowRc = false → s.pwr.mode ≠ .off →
     exec .crystalFail s = .next (msixScan 16 (record 0x0B25 0x10 [] { s with sys := { s.sys with slowRc := true } })))) ∧
  ((∀ (d : Fin 29) (count : Word) (s : State), d.val < 26 → s.sys.clkOk.getLsbD d = true → monitored s d = true →
     exec (.clockLost d (.counts count)) s = .next (msixScan 16 (settleClass2 (record 0x0B20 0x10 [(1, d.val), (4, count.toNat)]
       (clockLoss d { s with sys := { s.sys with
         clkOk := setBit s.sys.clkOk d false, lost := setBit s.sys.lost d true, stopped := setBit s.sys.stopped d false } }))))) ∧
   (∀ (d : Fin 29) (k : Nat) (s : State), pllOf d = some k → s.sys.pllLock.getLsbD k = true →
     exec (.clockLost d .unlocks) s = .next (msixScan 16 (unlock k s)) ∧ (unlock k s).sys.pllLock.getLsbD k = false) ∧
   (∀ (d : Fin 29) (s : State), d.val < 26 → s.sys.clkOk.getLsbD d = true →
     exec (.clockLost d .stops) s = .next { s with sys := { s.sys with stopped := setBit s.sys.stopped d true } }) ∧
   (∀ (d : Fin 29) (us : Word) (s : State), d.val < 26 → s.sys.lost.getLsbD d = true → lockedFor s d = true → s.sys.running = true →
     exec (.clockReturned d (.inRange us)) s = .next (msixScan 16 (clockBack d (record 0x0B21 0x10 [(1, d.val), (4, us.toNat)]
       { s with sys := { s.sys with
         clkOk := setBit s.sys.clkOk d true, lost := setBit s.sys.lost d false, reqFence := setBit s.sys.reqFence d false } })))) ∧
   (∀ (d : Fin 29) (us : Word) (s : State), d.val < 26 → s.sys.lost.getLsbD d = true → lockedFor s d = false →
     exec (.clockReturned d (.inRange us)) s = .next s) ∧
   (∀ (d : Fin 29) (s : State), exec (.clockReturned d .edges) s = .next { s with sys := { s.sys with
     stopped := setBit s.sys.stopped d false, reqFence := setBit s.sys.reqFence d false } }) ∧
   (∀ (d : Fin 29) (s : State), d.val ≠ 0 → d.val < 26 → (clockLoss d s).sys.rst.getLsbD d = true))

/-- R64 to R69: the register write of an accepted command whose domain does not acknowledge is held; an access held for a domain gets its fence after
10 us, ends as S_NO_CLOCK when the wait of 1 us ends too, with event 0x0B24 and no effect, or completes when the acknowledge comes in time; an
access of a fenced unit is answered at once. -/
def Obligations.RegisterBridge : Prop :=
  (∀ (i : Instr) (r : Req) (m : Meaning) (d : Nat) (s : State), reqOf i = some r → meaningOf i = some m → accepted i s = true → r.cls = 0 →
    (r.group = 0 ∨ isGroupCmd i = true) → atSwap i = false → silentDomain s i = some d →
    exec i s = .next (msixScan 16 (holdWrite d { tenant := r.tenant, cmd := i, timed := false, copied := m.copy s } s))) ∧
  (∀ (d : Fin 29) (h : HeldAccess) (s : State), heldFor s d.val = some h → h.waiting = false →
    exec (.registerHoldTimeout d) s = .next { s with sys := { s.sys with
      reqFence := setBit s.sys.reqFence d true
      held := s.sys.held.map fun x => if x = h then { h with waiting := true } else x } }) ∧
  (∀ (d : Fin 29) (h : HeldAccess) (s : State), heldFor s d.val = some h → h.waiting = true → s.sys.held = [h] →
    (h.job = none → exec (.fenceWaitEnd d) s = .next (msixScan 16 (answer h.who true h.write 0
      (record 0x0B24 0x10 [(1, d.val), (4, h.addr.toNat)] { s with sys := { s.sys with held := [] } })))) ∧
    (∀ j r, h.job = some j → reqOf j.cmd = some r → ∃ u, sansEvents s u = { s with sys := { s.sys with held := [] } } ∧
      exec (.fenceWaitEnd d) s = .next (msixScan 16 (post j.tenant j.timed
        { status := .noClock, opcode := BitVec.ofNat 16 (opInfo j.cmd).op, tag := r.tag, done := nowNs s, dest := r.origin } u)))) ∧
  (∀ (d : Fin 29) (h : HeldAccess) (s : State), heldFor s d.val = some h →
    exec (.registerAcknowledge d) s = .next (msixScan 16 (wakeBridge (complete h { s with sys := { s.sys with
      reqFence := setBit s.sys.reqFence d false, held := s.sys.held.erase h } })))) ∧
  (∀ (h : HeldAccess) (s : State), (regFence h.addr.toNat).any (isFenced s) = true → bridge h s = answer h.who true h.write 0 s)

/-! Ethernet time ports (06). -/

/-- R146, R148, R170: ETH_PORT_CONFIG sets the mode, VID and MAC of its port and clears its counters; GPTP_CONFIG sets the engine of
gPTP; GPTP_PORT_ROLE sets the role of its port in the domains named; CBS_CONFIG the slopes; ETH_RX_FILTER the receive ring. Frame: only
the ports of 06, the events, and in BMCA mode the source the servo follows (R155).

R157, R169, R170: AVTP_TALKER_CONFIG, AVTP_LISTENER_CONFIG and CRF_CONFIG write the stream slot named with its counters at zero;
AVTP_STREAM_START sets it running, or waiting for a listener, from its first sample boundary at or after now on; AVTP_STREAM_STOP stops it at such
a boundary, a CRF listener, which has none, at once (the model's choice, log entry 135). Frame: only that slot changes. -/
def Obligations.EtherCommands : Prop :=
  ((∀ (r : Req) (port mode : Byte) (vid : Half) (mac : BitVec 48) (s : State),
     runsAtOnce (.ethPortConfig r port mode vid mac) s = true → shaped s = true →
     ∃ u, Answers (.ethPortConfig r port mode vid mac) s .ok [] u ∧
       ((u.ethPort port.toNat).mode = mode.toNat ∧ (u.ethPort port.toNat).vid = vid.toNat ∧
         (u.ethPort port.toNat).mac = some mac ∧ (u.ethPort port.toNat).rxFrames = 0 ∧ (u.ethPort port.toNat).rxFcsErr = 0 ∧
         (u.ethPort port.toNat).rxDropped = 0 ∧ (u.ethPort port.toNat).txFrames = 0 ∧ (u.ethPort port.toNat).ringDropped = 0) ∧
       (∀ p, p ≠ port.toNat → (u.ethPort p).mode = (s.ethPort p).mode ∧ (u.ethPort p).mac = (s.ethPort p).mac ∧
         (u.ethPort p).link = (s.ethPort p).link) ∧
       sansEvents s u = { s with eth := u.eth, last := { s.last with src := u.last.src } }) ∧
   (∀ (r : Req) (c : GptpCfg) (s : State), runsAtOnce (.gptpConfig r c) s = true →
     ∃ u, Answers (.gptpConfig r c) s .ok [] u ∧ u.eth.gptp.mode = c.mode.toNat ∧ u.eth.gptp.domain1 = c.domain1.toNat ∧
       u.eth.gptp.priority1 = c.priority1.toNat ∧ u.eth.gptp.logSync = c.logSync.toInt ∧ u.eth.gptp.clockId = c.clockId ∧
       u.eth.gptp.gmCapable = c.flags.getLsbD 0 ∧ u.eth.gptp.pdelayThresh = c.pdelayThresh.toNat ∧
       u.eth.talkers = s.eth.talkers ∧ u.eth.listeners = s.eth.listeners ∧
       sansEvents s u = { s with eth := u.eth, last := { s.last with src := u.last.src } }) ∧
   (∀ (r : Req) (port role domains : Byte) (s : State), runsAtOnce (.gptpPortRole r port role domains) s = true →
     shaped s = true →
     ∃ u, Answers (.gptpPortRole r port role domains) s .ok [] u ∧
       (u.ethPort port.toNat).d0.set = (if domains.getLsbD 0 then some role.toNat else (s.ethPort port.toNat).d0.set) ∧
       (u.ethPort port.toNat).d1.set = (if domains.getLsbD 1 then some role.toNat else (s.ethPort port.toNat).d1.set) ∧
       (∀ p, p ≠ port.toNat → (u.ethPort p).d0.set = (s.ethPort p).d0.set ∧ (u.ethPort p).d1.set = (s.ethPort p).d1.set) ∧
       u.eth.gptp = s.eth.gptp ∧ sansEvents s u = { s with eth := u.eth, last := { s.last with src := u.last.src } }) ∧
   (∀ (r : Req) (port : Byte) (idleA idleB : Word) (s : State), runsAtOnce (.cbsConfig r port idleA idleB) s = true →
     Answers (.cbsConfig r port idleA idleB) s .ok []
       (modEthPort port.toNat (fun q => { q with idleA := idleA.toNat, idleB := idleB.toNat }) s)) ∧
   (∀ (r : Req) (ports actions rlog2 : Byte) (base : DWord) (s : State),
     runsAtOnce (.ethRxFilter r ports actions rlog2 base) s = true →
     Answers (.ethRxFilter r ports actions rlog2 base) s .ok [] { s with eth := { s.eth with
       rxPorts := BitVec.ofNat 4 ports.toNat, rxActions := BitVec.ofNat 3 actions.toNat, rxLog2 := rlog2.toNat, rxBase := base
       rxIndex := 0 } })) ∧
  ((∀ (r : Req) (c : AvtpCfg) (s : State), runsAtOnce (.avtpTalkerConfig r c) s = true →
     Answers (.avtpTalkerConfig r c) s .ok [] (modStream true c.stream.toNat (fun _ => { cfg := some (.aaf c) }) s)) ∧
   (∀ (r : Req) (c : AvtpCfg) (s : State), runsAtOnce (.avtpListenerConfig r c) s = true →
     Answers (.avtpListenerConfig r c) s .ok [] (modStream false c.stream.toNat (fun _ => { cfg := some (.aaf c) }) s)) ∧
   (∀ (r : Req) (c : CrfCfg) (s : State), runsAtOnce (.crfConfig r c) s = true →
     Answers (.crfConfig r c) s .ok [] (modStream (c.dir = 0) c.stream.toNat (fun _ => { cfg := some (.crf c) }) s)) ∧
   (∀ (r : Req) (dir k : Byte) (s : State), runsAtOnce (.avtpStreamStart r dir k) s = true → shaped s = true →
     ∃ u, Answers (.avtpStreamStart r dir k) s .ok [] u ∧ (u.stream (dir = 0) k.toNat).state = (if dir = 0 then 1 else 2) ∧
       (u.stream (dir = 0) k.toNat).cfg = (s.stream (dir = 0) k.toNat).cfg ∧ (u.stream (dir = 0) k.toNat).stopB = none ∧
       (∀ c, (s.stream (dir = 0) k.toNat).cfg = some (.aaf c) →
         (u.stream (dir = 0) k.toNat).startB = some (boundaryFrom s (nsrRate c.nsr.toNat) s.now)) ∧
       (∀ b j, ¬ (b = decide (dir = 0) ∧ j = k.toNat) → u.stream b j = s.stream b j) ∧ u = { s with eth := u.eth }) ∧
   (∀ (r : Req) (dir k : Byte) (s : State), runsAtOnce (.avtpStreamStop r dir k) s = true → shaped s = true →
     let x := s.stream (dir = 0) k.toNat
     ∃ u, Answers (.avtpStreamStop r dir k) s .ok [] u ∧
       (∀ c, x.cfg = some (.aaf c) → (streamHeld s x = false → u.stream (dir = 0) k.toNat = x) ∧
         (streamHeld s x = true → x.stopB = none → u.stream (dir = 0) k.toNat =
           { x with stopB := some (boundaryFrom s (nsrRate c.nsr.toNat) s.now) })) ∧
       (∀ c, x.cfg = some (.crf c) → dir ≠ 0 → (u.stream (dir = 0) k.toNat).state = 0 ∧
         (u.stream (dir = 0) k.toNat).packets = x.packets) ∧
       (∀ b j, ¬ (b = decide (dir = 0) ∧ j = k.toNat) → u.stream b j = s.stream b j) ∧ u = { s with eth := u.eth }))

/-- R146, R167, R168, R171: what a PCS reports makes or breaks the link of the port's mode, with asCapable cleared; a frame received by a port that is up is counted, a
bad FCS counts in RX_FCS_ERR and a frame no receiver wants in RX_DROPPED; a wanted one goes to Root's ring slot, the
frame before its FLAGS word, or counts in RING_DROPPED with event 0x0220. Frame: nothing else changes. -/
def Obligations.EtherFrames : Prop :=
  (∀ (p : Fin 4) (report : LinkReport) (cause : Byte) (s : State), linkAfter (s.ethPort p).mode report = none →
    exec (.ethLinkChange p report cause) s = .next s) ∧
  (∀ (p : Fin 4) (report : LinkReport) (up : Bool) (cause : Byte) (s : State), linkAfter (s.ethPort p).mode report = some up →
    (s.ethPort p).link ≠ up → shaped s = true →
    ∃ u, exec (.ethLinkChange p report cause) s = .next (msixScan 16 u) ∧ (u.ethPort p).link = up ∧
      (u.ethPort p).asCapable = false ∧ (∀ q, q ≠ p.val → (u.ethPort q).link = (s.ethPort q).link) ∧
      sansEvents s u = { s with eth := u.eth, last := { s.last with src := u.last.src } }) ∧
  (∀ (p : Fin 4) (f : EthFrame) (s : State), portUp s p = true →
    (f.fcsOk = false → exec (.ethFrameRx p f) s = .next (modEthPort p (fun q => { q with
      rxFrames := q.rxFrames + 1, rxFcsErr := q.rxFcsErr + 1 }) s)) ∧
    (f.fcsOk = true → f.etherType = 0x88F7 → f.dest = ptpDest → exec (.ethFrameRx p f) s = .next (countRx p s)) ∧
    (f.fcsOk = true → f.etherType ≠ 0x88F7 → listenerFor s p f = false → wanted s p f = false → shaped s = true →
      exec (.ethFrameRx p f) s = .next (modEthPort p (fun q => { q with
        rxFrames := q.rxFrames + 1, rxDropped := q.rxDropped + 1 }) s)) ∧
    (f.fcsOk = true → f.etherType ≠ 0x88F7 → listenerFor s p f = false → wanted s p f = true → shaped s = true →
      (f.ownSet = false → f.ringUp = true → viaUp s .pcie = true → isFenced s 18 = false →
        exec (.ethFrameRx p f) s = .next { countRx p s with
          out := s.out ++ [.hostWrite (s.eth.rxBase + BitVec.ofNat 64 (2048 * s.eth.rxIndex) + 4)
              (le 4 0 ++ stampBytes (stampOf (rxStamp s p f.tap)) ++ f.bytes),
            .hostWrite (s.eth.rxBase + BitVec.ofNat 64 (2048 * s.eth.rxIndex)) (le 1 1 ++ le 1 p ++ le 2 f.bytes.length)]
          eth := { (countRx p s).eth with rxIndex := (s.eth.rxIndex + 1) % 2 ^ s.eth.rxLog2 } }) ∧
      (f.ownSet = true → exec (.ethFrameRx p f) s = .next (msixScan 16 (record 0x0220 (ownerOf s 0x0B p) [(1, p)]
        (modEthPort p (fun q => { q with ringDropped := q.ringDropped + 1 }) (countRx p s)))))))

/-- R149, R150, R153 to R155: a slave port notes each Sync, a two-step one until its Follow_Up, and gives the servo its sample; an
Announce worth keeping is the port's best vector in BMCA mode; a peer delay request is answered within 10 ms, a completed exchange gives
the link delay, and the thresholds decide asCapable.

R149, R152, R154, R156: at each interval the grandmaster sends Sync and Follow_Up on its master ports while VALID is 1, a port its
peer delay request, and a BMCA node its Announces; a slave port that hears no Sync for its receipt time records 0x0205 and, when it is
the servo's, loses the source; one whose Announces stop records 0x0206 and drops its vector. -/
def Obligations.PtpMessagesAndIntervals : Prop :=
  ((∀ (p : Fin 4) (m : SyncMsg) (e : Bool) (s : State), portUp s p = true → domainOf s m.domain = some e →
     (ptpRole (s.ethPort p) e).role = 2 → shaped s = true →
     let noted := modRole p e (fun x => { x with
       lastSync := some s.last.cycles, logSync := some m.logInterval.toInt, lost := false
       waiting := if m.twoStep then some (m.seq, rxStamp s p m.tap, m.correction.toInt) else none }) (countRx p s)
     (m.twoStep = true → exec (.sync p m) s = .next noted) ∧
     (m.twoStep = false → exec (.sync p m) s = .next (msixScan 16
       (syncComplete p e (rxStamp s p m.tap) (ptpTime m.seconds m.ns) m.correction.toInt m.rateOffset.toInt noted)))) ∧
   (∀ (p : Fin 4) (m : FollowUpMsg) (e : Bool) (rx : Time) (corr : Int) (s : State), portUp s p = true → domainOf s m.domain = some e →
     (ptpRole (s.ethPort p) e).role = 2 → (ptpRole (s.ethPort p) e).waiting = some (m.seq, rx, corr) →
     shaped s = true →
     exec (.followUp p m) s = .next (msixScan 16 (syncComplete p e rx (ptpTime m.seconds m.ns) (corr + m.correction.toInt)
       m.rateOffset.toInt (modRole p e (fun x => { x with waiting := none }) (countRx p s))))) ∧
   (∀ (p : Fin 4) (m : AnnounceMsg) (e : Bool) (s : State), portUp s p = true → domainOf s m.domain = some e → s.eth.gptp.mode = 2 →
     m.sourceId ≠ s.eth.gptp.clockId → m.steps.toNat < 255 → (s.ethPort p).asCapable = true →
     (ptpRole (s.ethPort p) e).best = none → shaped s = true →
     ∃ u v, exec (.announce p m) s = .next (msixScan 16 u) ∧ (ptpRole (u.ethPort p) e).best = some v ∧ v.gmId = m.gmId ∧
       v.priority1 = m.priority1.toNat ∧ v.steps = m.steps.toNat ∧ v.sender = m.sourceId ∧
       (ptpRole (u.ethPort p) e).lastAnn = some s.last.cycles ∧
       sansEvents s u = { s with eth := u.eth, last := { s.last with src := u.last.src } }) ∧
   (∀ (p : Fin 4) (seq : Half) (asked : PortId) (tap : Fin 8) (s : State), portSends s p = true → s.eth.gptp.mode ≠ 0 →
     shaped s = true →
     let t2 := fracOf (rxStamp s p tap)
     ∃ u t3, exec (.pdelay p (.request seq asked tap)) s = .next u ∧ t2 ≤ t3 ∧
       (t3 < t2 + 10000000 * 65536 ∨ t3 = fracOf (sendStamp s p 0)) ∧
       u.out = s.out ++ [.ethPdelayResp (ptpHead s p false seq) asked (t2 / 65536).toNat (t2 % 65536),
         .ethPdelayFollowUp (ptpHead s p false seq) asked (t3 / 65536).toNat (t3 % 65536)] ∧
       u = { s with eth := u.eth, out := u.out, free := u.free }) ∧
   (∀ (p : Fin 4) (seq : Half) (seconds : BitVec 48) (ns : Word) (corr : DWord) (t1 : Int) (tap : Fin 8) (s : State),
     portUp s p = true → s.eth.gptp.mode ≠ 0 → (s.ethPort p).req = some (seq, t1) → shaped s = true →
     exec (.pdelay p (.response seq (portId s p) seconds ns corr tap)) s = .next (modEthPort p (fun x => { x with
       resp := some (seq, ptpTime seconds ns + corr.toInt, fracOf (rxStamp s p tap)) }) (countRx p s))) ∧
   (∀ (p : Fin 4) (seq : Half) (seconds : BitVec 48) (ns : Word) (corr : DWord) (t1 t2 t4 : Int) (s : State), portUp s p = true → s.eth.gptp.mode ≠ 0 →
     (s.ethPort p).req = some (seq, t1) → (s.ethPort p).resp = some (seq, t2, t4) → shaped s = true →
     ∃ u, exec (.pdelay p (.responseFollowUp seq (portId s p) seconds ns corr)) s = .next (msixScan 16 u) ∧
       (u.ethPort p).linkDelay = linkDelayOf (u.ethPort p).ratio t1 t2 (ptpTime seconds ns + corr.toInt) t4 ∧
       (u.ethPort p).asCapable = decide ((u.ethPort p).linkDelay ≤ (s.eth.gptp.pdelayThresh * 65536 : Nat)) ∧
       (u.ethPort p).req = none ∧ sansEvents s u = { s with eth := u.eth, last := { s.last with src := u.last.src } })) ∧
  ((∀ (e : Bool) (s : State), isGrandmaster s e = true → s.last.valid = true →
     ∃ u, exec (.syncInterval e) s = .next u ∧ (ptpDomain u e).syncSeq = (ptpDomain s e).syncSeq + 1 ∧
       u.out.length = s.out.length + 2 * (masterPorts s e).length ∧ u = { s with eth := u.eth, out := u.out, free := u.free }) ∧
   (∀ (e : Bool) (s : State), isGrandmaster s e = false ∨ s.last.valid = false → exec (.syncInterval e) s = .next s) ∧
   (∀ (p : Fin 4) (s : State), s.eth.gptp.mode ≠ 0 → portSends s p = true → (s.ethPort p).req = none → shaped s = true →
     (s.ethPort p).lostResponses ≤ 9 →
     ∃ u t1, exec (.pdelayInterval p) s = .next u ∧ (u.ethPort p).pdelaySeq = (s.ethPort p).pdelaySeq + 1 ∧
       (u.ethPort p).req = some ((s.ethPort p).pdelaySeq + 1, t1) ∧
       u.out = s.out ++ [.ethPdelayReq { port := p, domain := 0, source := portId s p, seq := (s.ethPort p).pdelaySeq + 1 }] ∧
       u = { s with eth := u.eth, out := u.out, free := u.free }) ∧
   (∀ (e : Bool) (s : State), s.eth.gptp.mode = 2 → domainOn s e = true →
     ∃ u, exec (.announceInterval e) s = .next u ∧ (ptpDomain u e).annSeq = (ptpDomain s e).annSeq + 1 ∧
       u.out = s.out ++ (masterPorts s e).map (fun p => .ethAnnounce (ptpHead s p e ((ptpDomain s e).annSeq + 1))
         { announced s e with senderPort := p + 1 } s.eth.gptp.timeSource) ∧
       u = { s with eth := u.eth, out := u.out }) ∧
   (∀ (p : Fin 4) (e : Bool) (c : Nat) (s : State), domainOn s e = true → (ptpRole (s.ethPort p) e).role = 2 →
     (ptpRole (s.ethPort p) e).lost = false → (ptpRole (s.ethPort p) e).lastSync = some c → shaped s = true →
     c + s.eth.gptp.syncTimeout * intervalCycles ((ptpRole (s.ethPort p) e).logSync.getD s.eth.gptp.logSync) ≤ s.last.cycles →
     ∃ u, exec (.syncReceiptTimeout p e) s = .next (msixScan 16 u) ∧ (ptpRole (u.ethPort p) e).lost = true ∧
       (¬ (s.last.src.toNat = 0x10 + p ∧ s.last.domain.toNat = bit e) → u.last = s.last) ∧
       u.eth.gptp = s.eth.gptp ∧ u.eth.talkers = s.eth.talkers ∧ u.eth.listeners = s.eth.listeners) ∧
   (∀ (p : Fin 4) (e : Bool) (c : Nat) (s : State), s.eth.gptp.mode = 2 → domainOn s e = true →
     (ptpRole (s.ethPort p) e).lastAnn = some c → shaped s = true →
     c + s.eth.gptp.announceTimeout * intervalCycles ((ptpRole (s.ethPort p) e).logAnn.getD s.eth.gptp.logAnnounce) ≤ s.last.cycles →
     ∃ u, exec (.announceReceiptTimeout p e) s = .next (msixScan 16 u) ∧ (ptpRole (u.ethPort p) e).best = none ∧
       (ptpRole (u.ethPort p) e).lastAnn = none ∧
       sansEvents s u = { s with eth := u.eth, last := { s.last with src := u.last.src } }))

/-- R157 to R163, R165: a listener's packet whose format, rate or channels differ counts in BAD and gives no sample; one judged is late when
its first sample's boundary is too near, early when its last is too far, else its samples are placed; a CRF PDU is measured (log entry 133); a
talker's packet carries what it collected and its presentation time, a CRF PDU the stamps of its MCG's edges, and it leaves at once when the line is
free and no frame waits. Frame: only the ports of 06 and what is sent. -/
def Obligations.AvtpPackets : Prop :=
  (∀ (k : Fin 64) (m : AvtpPkt) (c : AvtpCfg) (s : State), (s.stream false k).cfg = some (.aaf c) →
    streamOn s (s.stream false k) = true → portUp s c.port.toNat = true → m.dest = c.destMac → m.format ≠ c.format ∨ m.nsr ≠ c.nsr ∨ m.channels ≠ c.channels →
    exec (.avtpPacket k m) s = .next (msixScan 16 (modStream false k (fun x => { x with bad := x.bad + 1 })
      (countRx c.port.toNat s)))) ∧
  (∀ (k : Fin 64) (m : AvtpPkt) (c : AvtpCfg) (s : State), (s.stream false k).cfg = some (.aaf c) →
    streamOn s (s.stream false k) = true → portUp s c.port.toNat = true → m.dest = c.destMac → m.format = c.format → m.nsr = c.nsr → m.channels = c.channels →
    m.tv = true →
    exec (.avtpPacket k m) s = .next (msixScan 16 (judgePacket k (nsrRate c.nsr.toNat) (rxStamp s c.port.toNat m.tap)
      (boundaryFrom s (nsrRate c.nsr.toNat) (ofNs (presentation (rxStamp s c.port.toNat m.tap) m.timestamp)))
      (samplesOf (formatBytes c.format.toNat) c.channels.toNat m.payload) (seqGap k m.seq (countRx c.port.toNat s))))) ∧
  (∀ (k : Fin 64) (m : AvtpPkt) (c : CrfCfg) (s : State), (s.stream false k).cfg = some (.crf c) →
    streamOn s (s.stream false k) = true → portUp s c.port.toNat = true → m.dest = c.destMac →
    (m.crfType ≠ 1 → exec (.avtpPacket k m) s = .next (msixScan 16 (modStream false k (fun x => { x with bad := x.bad + 1 })
      (countRx c.port.toNat s)))) ∧
    (m.crfType = 1 → let t := seqGap k m.seq (countRx c.port.toNat s)
      exec (.avtpPacket k m) s = .next (msixScan 16 (modStream false k (fun x => measureCrf c t
        (if (s.stream false k).seq = some (m.seq - 1) then (s.stream false k).crfLast else none) m.stamps
        { x with state := 1, packets := x.packets + 1 }) t)))) ∧
  (∀ (k fs : Nat) (rx : Time) (b : Int) (samples : List (List Word)) (s : State), shaped s = true → k < 64 →
    let u := judgePacket k fs rx b samples s
    let late := boundaryBefore s fs b rx 2
    let early := boundaryAfter s fs (b + samples.length - 1) rx 128
    (u.stream false k).next = some (b + samples.length) ∧ (u.stream false k).state = 1 ∧
    (u.stream false k).late = (s.stream false k).late + (if late then 1 else 0) ∧
    (u.stream false k).early = (s.stream false k).early + (if !late && early then 1 else 0) ∧
    (u.stream false k).packets = (s.stream false k).packets + (if late || early then 0 else 1) ∧
    (u.stream false k).buf = (if late || early then (s.stream false k).buf else placeSamples b samples (s.stream false k).buf) ∧
    sansEvents s u = { s with eth := u.eth }) ∧
  (∀ (k : Fin 64) (c : AvtpCfg) (s : State), (s.stream true k).cfg = some (.aaf c) → (s.stream true k).state = 1 →
    (s.stream true k).collected ≠ [] → (s.stream true k).nextSend ≤ s.last.cycles → portSends s c.port.toNat = true → shaped s = true →
    ∃ u, exec (.avtpTalkerInterval k) s = .next u ∧ (u.stream true k).collected = [] ∧
      (u.stream true k).sent = (s.stream true k).sent + 1 ∧
      (u.stream true k).firstB = (s.stream true k).firstB + (s.stream true k).collected.length ∧
      (lineIdle s c.port.toNat = true → u.out = s.out ++ [.avtp {
        port := c.port.toNat, stream := k, dest := c.destMac
        source := (s.ethPort c.port.toNat).mac.getD 0, priority := (if c.cls.toNat = 0 then 3 else 2)
        vid := (s.ethPort c.port.toNat).vid, streamId := c.streamId, seq := (s.stream true k).sent
        body := .aaf true c.format c.nsr c.channels
          (BitVec.ofInt 32 (boundaryNs s (nsrRate c.nsr.toNat) (s.stream true k).firstB c.presOffset.toNat))
          (payloadOf (formatBytes c.format.toNat) (s.stream true k).collected) }]) ∧
      u = { s with eth := u.eth, out := u.out }) ∧
  (∀ (k : Fin 64) (c : CrfCfg) (ages : List Nat) (s : State), (s.stream true k).cfg = some (.crf c) → (s.stream true k).state = 1 →
    streamOn s (s.stream true k) = true → portSends s c.port.toNat = true → shaped s = true →
    let m := s.mcg c.mcg.toNat
    let edge := fun (i : Nat) => (s.stream true k).firstB + (i * c.tsInterval.toNat : Nat)
    (m.mode = 1 ∧ boundaryAfter s (mcgHz m.mult m.family) (edge (c.tsPerPdu.toNat - 1)) s.now 0 = false) ∨
      (m.mode = 2 ∧ ages.length = c.tsPerPdu.toNat) →
    ∃ u, exec (.crfPduSend { stream := k, ages }) s = .next u ∧ (u.stream true k).sent = (s.stream true k).sent + 1 ∧
      (lineIdle s c.port.toNat = true → u.out = s.out ++ [.avtp {
        port := c.port.toNat, stream := k, dest := c.destMac
        source := (s.ethPort c.port.toNat).mac.getD 0, priority := (if c.cls.toNat = 0 then 3 else 2)
        vid := (s.ethPort c.port.toNat).vid, streamId := c.streamId, seq := (s.stream true k).sent
        body := .crf 1 c.baseFreq c.tsInterval (if m.mode = 1 then
          (List.range c.tsPerPdu.toNat).map fun i => crfStamp s (mcgHz m.mult m.family) (edge i) else ages.map (edgeStampNs s)) }]) ∧
      u = { s with eth := u.eth, out := u.out })

/-! Time pins (07). -/

/-- R173, R174, R178, R179, R184, R191, R193, R194: the commands of group 0x03. Frame: only the pin, the path or the FSG named. -/
def Obligations.PinCommands : Prop :=
  (∀ (r : Req) (c : TpinCfg) (s : State), runsAtOnce (.tpinConfig r c) s = true → shaped s = true →
    ((s.pin c.pin.toNat).falls ≠ [] → Answers (.tpinConfig r c) s .ok []
      (modPin c.pin.toNat (fun n => { n with pendingCfg := some (c, s.now) }) s)) ∧
    ((s.pin c.pin.toNat).falls = [] → ∃ u, Answers (.tpinConfig r c) s .ok [] u ∧
      (u.pin c.pin.toNat).mode = c.mode.toNat ∧ (u.pin c.pin.toNat).width = c.width.toNat ∧
      (u.pin c.pin.toNat).period = c.period.toNat ∧ (u.pin c.pin.toNat).actions = [] ∧ (u.pin c.pin.toNat).reports = [] ∧
      (u.pin c.pin.toNat).lost = 0 ∧ (∀ p, p ≠ c.pin.toNat → u.pin p = s.pin p) ∧ sansEvents s u = { s with trig := u.trig })) ∧
  (∀ (r : Req) (pin action policy : Byte) (time : Stamp) (s : State), runsAtOnce (.tpinSchedule r pin action policy time) s = true →
    shaped s = true →
    ∃ u h a, Answers (.tpinSchedule r pin action policy time) s .ok
        (le 2 h ++ le 1 ((s.pin pin.toNat).actions.length + 1) ++ le 1 0) u ∧
      (u.pin pin.toNat).actions = (s.pin pin.toNat).actions ++ [a] ∧ a.handle = h ∧ a.time = timeOf time ∧
      a.action = action.toNat ∧ (∀ p, p ≠ pin.toNat → u.pin p = s.pin p) ∧ u = { s with trig := u.trig }) ∧
  (∀ (r : Req) (pin : Byte) (handle : Half) (s : State), runsAtOnce (.tpinCancel r pin handle) s = true → shaped s = true →
    ∃ u n, Answers (.tpinCancel r pin handle) s .ok (le 2 n ++ le 2 0) u ∧
      n + (u.pin pin.toNat).actions.length = (s.pin pin.toNat).actions.length ∧
      (∀ a ∈ (s.pin pin.toNat).actions, a.time ≤ s.now + ofNs 1000 → a ∈ (u.pin pin.toNat).actions) ∧
      (∀ p, p ≠ pin.toNat → u.pin p = s.pin p) ∧ u = { s with trig := u.trig }) ∧
  (∀ (r : Req) (pin max_ : Byte) (s : State), runsAtOnce (.tpinCaptureRead r pin max_) s = true → shaped s = true →
    ∃ u k, k ≤ max_.toNat ∧ (r.origin = none → k = min max_.toNat (s.pin pin.toNat).reports.length) ∧
      Answers (.tpinCaptureRead r pin max_) s .ok (le 1 k ++ le 1 ((s.pin pin.toNat).reports.length - k) ++ le 2 0 ++
        leBits 4 (s.pin pin.toNat).lost ++ ((s.pin pin.toNat).reports.take k).flatMap reportBytes) u ∧
      u = modPin pin.toNat (fun n => { n with reports := n.reports.drop k }) s) ∧
  (∀ (r : Req) (c : ReflexCfg) (s : State), runsAtOnce (.reflexConfig r c) s = true → shaped s = true →
    ∃ u, Answers (.reflexConfig r c) s .ok (leInt 4 (u.path c.path.toNat).trim) u ∧
      (u.path c.path.toNat).mode = c.mode.toNat ∧ (u.path c.path.toNat).inPin = c.inPin.toNat ∧
      (u.path c.path.toNat).outPin = c.outPin.toNat ∧ (u.path c.path.toNat).delay = c.delay.toNat ∧
      (u.path c.path.toNat).width = c.width.toNat ∧
      (u.path c.path.toNat).trim = trimOf s.last.cal c.path.toNat c.delay.toNat c.inPin.toNat c.outPin.toNat ∧
      (∀ m, m ≠ c.path.toNat → u.path m = s.path m) ∧ u = { s with trig := u.trig }) ∧
  (∀ (r : Req) (c : WindowCfg) (s : State), runsAtOnce (.reflexWindow r c) s = true → shaped s = true →
    ∃ u, Answers (.reflexWindow r c) s .ok [] u ∧ (u.path c.path.toNat).base = c.base.toNat ∧
      (u.path c.path.toNat).openAt = c.openAt.toNat ∧ (u.path c.path.toNat).length = c.length.toNat ∧
      (u.path c.path.toNat).period = c.period.toNat ∧ (u.path c.path.toNat).mode = (s.path c.path.toNat).mode ∧
      (u.path c.path.toNat).trim = (s.path c.path.toNat).trim ∧ (u.path c.path.toNat).used = none ∧
      (∀ m, m ≠ c.path.toNat → u.path m = s.path m) ∧ u = { s with trig := u.trig }) ∧
  (∀ (r : Req) (c : FsgCfg) (s : State), runsAtOnce (.fsgConfig r c) s = true → shaped s = true →
    ∃ u, Answers (.fsgConfig r c) s .ok [] u ∧
      ((s.fsg c.fsg.toNat).running = false → (u.fsg c.fsg.toNat).cfg = some (fsgSetOf c)) ∧
      ((s.fsg c.fsg.toNat).running = true → (u.fsg c.fsg.toNat).cfg = (s.fsg c.fsg.toNat).cfg ∧
        (u.fsg c.fsg.toNat).change = some (fsgSetOf c, s.now + ofNs 20000)) ∧
      (∀ k, k ≠ c.fsg.toNat → u.fsg k = s.fsg k) ∧ u = { s with trig := u.trig }) ∧
  (∀ (r : Req) (k : Byte) (s : State), runsAtOnce (.fsgStart r k) s = true → shaped s = true →
    ∃ u, Answers (.fsgStart r k) s .ok [] u ∧ (u.fsg k.toNat).running = true ∧ (u.fsg k.toNat).cfg = (s.fsg k.toNat).cfg ∧
      (∀ c, (s.fsg k.toNat).cfg = some c → (u.fsg k.toNat).k = fsgFrom c s.now) ∧
      (∀ j, j ≠ k.toNat → u.fsg j = s.fsg j) ∧ u = { s with trig := u.trig }) ∧
  (∀ (r : Req) (k : Byte) (s : State), runsAtOnce (.fsgStop r k) s = true →
    Answers (.fsgStop r k) s .ok [] (modFsg k.toNat stopFsg s))

/-- R40, R53, R174 to R180, R186 to R190, R200, R201: the pin events. A capture edge while the pin captures it is reported, or counts in LOST when it
comes less than 4.0 ns after the last; a scheduled action and a grid pulse start where their launch falls in this cycle, not within 4.0 ns of the
pin's previous edge; a late action fires at the first such position with its report; a pulse ends at its width; the pins of an FSG launch their edges
early by their delays, a frame begins at its grid start, or is skipped with event 0x0303; a gate follows its window; TIME_LATCH of an Eyelet takes
the reported time (Table 4.12). -/
def Obligations.PinEvents : Prop :=
  (∀ (p : Fin 32) (f : Bool) (tap : Fin 8) (near : Bool) (s : State), (s.pin p).mode = 1 → trigRuns s = true →
    (s.pin p).z = false → (if f then (s.pin p).edge.getLsbD 1 else (s.pin p).edge.getLsbD 0) = true →
    inRange (ofQuarter (captureOf s p tap)) = true →
    exec (.captureEdge p f tap near) s = .next (msixScan 16 (capture p f (ofQuarter (captureOf s p tap)) (elapsedQ s + tap)
      ((List.range 16).foldl (reflexPass p (ofQuarter (captureOf s p tap)) (elapsedQ s + tap) near)
        (modPin p (fun n => { n with level := !f }) s))))) ∧
  (∀ (p : Fin 32) (f : Bool) (t : Time) (at_ : Nat) (s : State), shaped s = true → s.last.src.toNat ≠ 0x40 + p →
    (tooSoon (s.pin p).lastEdge at_ = true → ∃ u, capture p f t at_ s = u ∧
      sansEvents s u = modPin p (fun n => { n with lost := n.lost + 1 }) s) ∧
    (tooSoon (s.pin p).lastEdge at_ = false → (s.pin p).reports.length < 16 → capture p f t at_ s =
      modPin p (fun n => { n with lastEdge := some at_, reports := n.reports ++ [⟨t, bit f, 0⟩] }) s)) ∧
  (∀ (p : Fin 32) (a : PinAction) (s : State), (s.pin p).mode = 2 → pinsRun s p = true →
    (s.pin p).actions.filter (fun a => a.late) = [] → earliest (s.pin p).actions = some a →
    let at_ := edgePos (s.pin p) (elapsedAt s (launchOf s p a.time))
    (dueNow s (launchOf s p a.time) = true → inCycle s at_ = true →
      exec (.scheduledAction p) s = .next (msixScan 16 (fireAction p a at_ s))) ∧
    (dueNow s (launchOf s p a.time) = false → exec (.scheduledAction p) s = .next s)) ∧
  (∀ (p : Fin 32) (a : PinAction) (s : State), (s.pin p).mode = 2 → pinsRun s p = true →
    earliest ((s.pin p).actions.filter fun a => a.late) = some a → (s.pin p).falls = [] →
    inCycle s (edgePos (s.pin p) (elapsedQ s)) = true →
    exec (.scheduledAction p) s = .next (msixScan 16 (report p ⟨timeAt s (edgePos (s.pin p) (elapsedQ s)), 3, a.handle⟩
      (fireAction p a (edgePos (s.pin p) (elapsedQ s)) s)))) ∧
  (∀ (p : Fin 32) (g : Time) (s : State), (s.pin p).next = some g → pinsRun s p = true → dueNow s (launchOf s p g) = true →
    (s.pin p).falls = [] → heldBack s (s.pin p) = false →
    let at_ := edgePos (s.pin p) (elapsedAt s (launchOf s p g))
    inCycle s at_ = true →
    exec (.gridPulse p) s = .next (startPulse p (s.pin p).width at_
      (modPin p (fun n => { n with next := some (g + ofFrac (pinPeriod n)) }) s))) ∧
  (∀ (p : Fin 32) (e : Nat) (rest : List Nat) (s : State), (s.pin p).falls = e :: rest → inCycle s (edgePos (s.pin p) e) = true →
    (s.pin p).pendingCfg = none →
    exec (.pulseTrailingEdge p) s =
      .next (msixScan 16 (modPin p (fun n => { n with falls := rest }) (drive p false (edgePos (s.pin p) e) s)))) ∧
  (∀ (k : Fin 8) (c : FsgSet) (s : State), (s.fsg k).running = true → (s.fsg k).cfg = some c → trigRuns s = true →
    dueNow s (fsgStart c (s.fsg k).k) = false → (s.fsg k).skip = none → (s.fsg k).change = none →
    exec (.fsgFrameStart k) s = .next (launchEarly k c (s.fsg k).k s)) ∧
  (∀ (k : Fin 8) (c : FsgSet) (s : State), (s.fsg k).running = true → (s.fsg k).cfg = some c → trigRuns s = true →
    dueNow s (fsgStart c (s.fsg k).k) = true →
    ((s.fsg k).skip = none → (s.fsg k).change = none →
      exec (.fsgFrameStart k) s = .next (modFsg k (fun f => { f with k := f.k + 1 }) (beginFrame k c (s.fsg k).k s))) ∧
    (∀ cause, (s.fsg k).skip = some cause → ∃ u, exec (.fsgFrameStart k) s = .next u ∧
      sansEvents s u = modFsg k (fun f => { f with k := f.k + 1, skip := none, skips := f.skips + 1 }) s)) ∧
  (∀ (m : Fin 16) (s : State), trigRuns s = true → exec (.gateBoundary m) s = .next (modPath m (syncGate s s.now) s)) ∧
  (∀ (t : Fin 16) (s : State), eyeletAny s t = true →
    exec (.eyTimeLatch t) s = .next (modTenant t (fun n => { n with
      latch := reportStamp s, latchServo := BitVec.ofNat 2 s.last.servo.code }) s))

/-! The Prieth fabric (08). -/

/-- R226, R234, R237, R238, R240, R242: PLINK_ENUMERATE makes the node the root of a new epoch; PLINK_AUDIO_MAP waits for its port's next
frame start; FABRIC_PREPARE, when it is accepted, judges this node and begins to count; FABRIC_APPLY, accepted, is broadcast and waits for its time;
FABRIC_ABORT ends the commit. When a class 2 command of these ends, its reply carries what was counted. -/
def Obligations.FabricCommands : Prop :=
  (∀ (r : Req) (flags : Byte) (s : State), accepted (.plinkEnumerate r flags) s = true → r.cls = 2 → r.group = 0 →
    (s.tenant r.tenant).class2 = [] →
    ∃ u, exec (.plinkEnumerate r flags) s = .next (msixScan 16 u) ∧ u.plink.root = true ∧ u.plink.rooted = true ∧
      u.plink.addr = 0 ∧ u.plink.depth = 0 ∧ u.plink.epoch = s.plink.epoch + 1 ∧ u.plink.enumRun.isSome = true ∧ u.last = s.last) ∧
  (∀ (r : Req) (c : MapCfg) (s : State), runsAtOnce (.plinkAudioMap r c) s = true →
    Answers (.plinkAudioMap r c) s .ok [] (modPl c.port.toNat (fun q => { q with pendingMap := q.pendingMap ++ [c] }) s)) ∧
  (∀ (r : Req) (fid tenant : Byte) (group : Half) (s : State), accepted (.fabricPrepare r fid tenant group) s = true → r.cls = 2 →
    r.group = 0 →
    ∃ u f, exec (.fabricPrepare r fid tenant group) s = .next (msixScan 16 u) ∧ u.plink.fabric = some f ∧ f.fid = fid.toNat ∧
      f.tenant = tenant.toNat ∧ f.by_ = r.tenant ∧ f.group = group.toNat ∧ f.prepared = false ∧ f.ready + f.idle + f.failed = 1 ∧
      (f.ready = 1 ↔ judge tenant.toNat group.toNat s = 0) ∧
      (f.ready = 1 → u.plink.armed = some { fid := fid.toNat, tenant := tenant.toNat, group := group.toNat }) ∧
      (f.ready = 0 → u.plink.armed = s.plink.armed)) ∧
  (∀ (r : Req) (fid : Byte) (s : State), accepted (.fabricApply r fid) s = true → r.group = 0 →
    ∃ u, exec (.fabricApply r fid) s = .next (msixScan 16 u) ∧ u.plink.fabric.any (fun f => f.applied && f.fid = fid.toNat) = true ∧
      (u.tenant r.tenant).pend.any (fun p => p.cmd = .fabricApply r fid && p.timed && p.due = applyTime r.apply) = true) ∧
  (∀ (r : Req) (fid : Byte) (s : State), runsAtOnce (.fabricAbort r fid) s = true →
    ∃ u, Answers (.fabricAbort r fid) s .ok [] u ∧ u.plink.fabric = none ∧
      (∀ a, armedWaiting s = some a → a.fid = fid.toNat → u.plink.armed = none) ∧ u.last = s.last) ∧
  (∀ (t : Fin 16) (ok : Bool) (rb : BitVec 256) (r : Req) (flags : Byte) (s : State),
    endsWell t (.plinkEnumerate r flags) s = true → EndsAs t ok rb (.plinkEnumerate r flags) s .ok
      (le 2 s.plink.nodes ++ le 2 s.plink.blockedAll ++ le 1 s.plink.maxDepth ++ le 1 0 ++ leBits 2 s.plink.epoch)
      (reattachNext { s with plink := { s.plink with enumRun := none } })) ∧
  (∀ (t : Fin 16) (ok : Bool) (rb : BitVec 256) (r : Req) (fid tenant : Byte) (group : Half) (f : FabricRun) (s : State),
    endsWell t (.fabricPrepare r fid tenant group) s = true → s.plink.fabric = some f →
    EndsAs t ok rb (.fabricPrepare r fid tenant group) s .ok
      (le 2 f.ready ++ le 2 f.idle ++ le 2 f.failed ++ le 2 (s.plink.nodes - (f.ready + f.idle + f.failed)) ++
        le 2 f.firstFailed ++ le 2 0)
      { s with plink := { s.plink with fabric := some { f with prepared := true } } })

/-- R206, R208 to R210, R217 to R219, R223: comma alignment takes a port to SYNCING, its loss or 437.5 us without a valid time cell to DOWN;
a frame whose time cell is wrong counts in FRAMES_BAD, a right one gives the peer; a frame is launched once for its index: its SFD and the 33,264
bytes from TIME on, with at most 32 command cells behind their directory; a command cell for this node is delivered, another one is queued on its
route, an empty one ignored. -/
def Obligations.LinkEvents : Prop :=
  (∀ (p : Fin 4) (s : State), plinkRuns s = true → laneUp s p = true → (s.pl p).st = 0 → shaped s = true →
    ∃ u, exec (.commaAlign p) s = .next (msixScan 16 u) ∧
      sansEvents s u = modPl p (fun q => { q with st := 1, goodRun := 0, dMean := [], lastRx := none, rxFrame := none }) s) ∧
  (∀ (p : Fin 4) (s : State), (s.pl p).st ≠ 0 → shaped s = true →
    (∃ u, exec (.commaLoss p) s = .next (msixScan 16 (settleClass2 u)) ∧ (u.pl p).st = 0 ∧ (u.pl p).goodRun = 0 ∧
      (∀ q, q ≠ p.val → (u.pl q).st = (s.pl q).st) ∧ ((s.pl p).role = 1 → u.plink.rooted = false)) ∧
    (∃ u, exec (.linkTimeout p) s = .next (msixScan 16 (settleClass2 u)) ∧ (u.pl p).st = 0 ∧ (u.pl p).goodRun = 0 ∧
      (∀ q, q ≠ p.val → (u.pl q).st = (s.pl q).st) ∧ ((s.pl p).role = 1 → u.plink.rooted = false))) ∧
  (∀ (p : Fin 4) (f : PlFrame) (s : State), hears s p = true → shaped s = true →
    (f.time = none → ∃ u, exec (.plinkFrame p f) s = .next (msixScan 16 (settleClass2 u)) ∧
      (u.pl p).framesBad = (s.pl p).framesBad + 1 ∧ (u.pl p).goodRun = 0 ∧
      sansEvents s u = modPl p (fun _ => u.pl p) s) ∧
    (∀ t, f.time = some t → ∃ u, exec (.plinkFrame p f) s = .next (msixScan 16 (settleClass2 u)) ∧ (u.pl p).peer = t.node ∧
      (u.pl p).goodRun = (s.pl p).goodRun + 1 ∧
      (u.pl p).lastRx = some (frameIndex (timeOf t.txTime), quarterOf (timeOf t.txTime), quarterOf (s.now + ofQuarter f.tap)))) ∧
  (∀ (p : Fin 4) (s : State), plinkRuns s = true → laneUp s p = true →
    (s.pl p).txLog.head?.any (fun x => x.1 = frameIndex (launchIndex s * frameU)) = false →
    (s.pl p).launched.any (fun e => decide (elapsedQ s < e + 268000)) = false → shaped s = true →
    (s.pl p).tailDue = false →
    ∃ u time e0 audio, exec (.plinkFrameLaunch p) s = .next (msixScan 16 u) ∧
      (let cells := (takeCells (s.pl p).queue).1
       let bytes := frameBytes time e0 (dirBytes cells) (cellBytes cells) audio
       u.out = s.out ++ [.plFrame p ([.k 0xBC, .k 0x3C] ++ bytes.map .d)] ∧ bytes.length = 33264 ∧ cells.length ≤ 32) ∧
      (u.pl p).queue = (takeCells (s.pl p).queue).2 ∧ (u.pl p).pendingMap = [] ∧ (u.pl p).tailDue = true ∧
      u = { s with out := u.out, plink := u.plink, free := u.free }) ∧
  (∀ (p : Fin 4) (c : CmdCell) (s : State), c.used = false → exec (.commandCell p c) s = .next s) ∧
  (∀ (p : Fin 4) (c : CmdCell) (s : State), hears s p = true → c.used = true →
    (s.plink.rooted = true → c.dest.toNat = s.plink.addr →
      (c.isReply = true → exec (.commandCell p c) s = .next (msixScan 16 (remoteReply c.tenant c.bytes s))) ∧
      (c.isReply = false → exec (.commandCell p c) s = .next (msixScan 16 (cellPacket c s)))) ∧
    (¬ (s.plink.rooted = true ∧ c.dest.toNat = s.plink.addr) → (routePort s c.dest.toNat).isSome = true →
      exec (.commandCell p c) s = .next (msixScan 16 (queueCell {
        isReply := c.isReply, dest := c.dest.toNat, origin := c.origin.toNat, tenant := c.tenant, bytes := c.bytes } s))))

/-- R227, R228, R234, R236 to R240: the express cells and their limits of time. A node takes the address of an ENUM, or rejects it as a
root or in the same epoch; ENUM_DONE and ENUM_REJECT go on with the next port; PREPARE is judged and counted; APPLY commits the armed
group when its time lies 20 us off, ABORT and 1 s without APPLY disarm it. REMOTE_REPLY_TIMEOUT answers S_TIMEOUT (R89). -/
def Obligations.FabricCells : Prop :=
  (∀ (p : Fin 4) (addr : BitVec 12) (depth : Byte) (src : Bool) (epoch : Half) (limit : BitVec 12) (s : State), hears s p = true →
    (s.plink.root = true ∨ (s.plink.rooted = true ∧ s.plink.epoch = epoch) →
      exec (.cellEnum p addr depth src epoch limit) s = .next (msixScan 16 (sendExpress p (.enumReject 1 epoch) s))) ∧
    (s.plink.root = false → ¬ (s.plink.rooted = true ∧ s.plink.epoch = epoch) → shaped s = true →
      ∃ u, exec (.cellEnum p addr depth src epoch limit) s = .next (msixScan 16 u) ∧ u.plink.rooted = true ∧
        u.plink.addr = addr.toNat ∧ u.plink.depth = depth.toNat ∧ u.plink.epoch = epoch ∧ (u.pl p).role = 1)) ∧
  (∀ (p : Fin 4) (next : BitVec 13) (epoch : Half) (s : State), awaits s p epoch = true →
    exec (.cellEnumDone p next epoch) s = .next (msixScan 16 (settleClass2 (enumDone p next.toNat s)))) ∧
  (∀ (p : Fin 4) (reason : Byte) (epoch : Half) (s : State), awaits s p epoch = true →
    exec (.cellEnumReject p reason epoch) s =
      .next (msixScan 16 (settleClass2 (enumStep id (blockPort p reason.toNat s))))) ∧
  (∀ (p : Fin 4) (fid : Byte) (tenant : Fin 16) (group : Half) (s : State), hears s p = true → (s.pl p).role = 1 →
    ∃ u f, exec (.cellPrepare p fid tenant group) s = .next (msixScan 16 u) ∧ u.plink.fabric = some f ∧ f.fid = fid.toNat ∧
      f.by_ = 16 ∧ f.ready + f.idle + f.failed = 1 ∧ (judge tenant group.toNat s = 0 ↔ f.ready = 1) ∧
      (f.ready = 1 → u.plink.armed = some { fid := fid.toNat, tenant := tenant, group := group.toNat })) ∧
  (∀ (p : Fin 4) (fid : Byte) (a b c d : Half) (f : FabricRun) (s : State), hears s p = true → (s.pl p).role = 2 →
    (s.pl p).acked = false → s.plink.fabric = some f → f.fid = fid.toNat → f.prepared = false →
    exec (.cellPrepareAck p fid a b c d) s = .next (msixScan 16 (settleClass2 (settlePrepare
      (modPl p (fun q => { q with acked := true }) { s with plink := { s.plink with fabric := some { f with
        ready := f.ready + a.toNat, idle := f.idle + b.toNat, failed := f.failed + c.toNat
        firstFailed := min f.firstFailed d.toNat } } }))))) ∧
  (∀ (p : Fin 4) (fid : Byte) (time : Stamp) (a : Armed) (s : State), hears s p = true → (s.pl p).role = 1 →
    armedWaiting s = some a → a.fid = fid.toNat →
    (s.now + ofNs 20000 ≤ applyTime time → ∃ u, exec (.cellApply p fid time) s = .next (msixScan 16 u) ∧
      u.plink.armed = some { a with due := some (applyTime time) }) ∧
    (applyTime time < s.now + ofNs 20000 → ∃ u, exec (.cellApply p fid time) s = .next (msixScan 16 u) ∧ u.plink.armed = none)) ∧
  (∀ (p : Fin 4) (fid : Byte) (time : Stamp) (a : Armed) (f : FabricRun) (s : State), hears s p = true → (s.pl p).role = 1 →
    armedWaiting s = some a → a.fid ≠ fid.toNat → s.plink.fabric = some f → f.fid = fid.toNat →
    (groupOf (s.tenant f.tenant) f.group).isSome = true →
    ∃ u, exec (.cellApply p fid time) s = .next (msixScan 16 u) ∧ u.plink.armed = none) ∧
  (∀ (p : Fin 4) (fid : Byte) (a : Armed) (s : State), hears s p = true → (s.pl p).role = 1 → armedWaiting s = some a →
    a.fid = fid.toNat → ∃ u, exec (.cellAbort p fid) s = .next (msixScan 16 u) ∧ u.plink.armed = none) ∧
  (∀ (f : FabricRun) (s : State), s.plink.fabric = some f → f.by_ ≠ 16 → f.prepared = false →
    exec .prepareTimeout s =
      .next (msixScan 16 (settleClass2 { s with plink := { s.plink with fabric := some { f with prepared := true } } }))) ∧
  (∀ (a : Armed) (s : State), armedWaiting s = some a → ∃ u, exec .armTimeout s = .next (msixScan 16 u) ∧
    u.plink.armed = none ∧ sansEvents s u = { s with plink := u.plink, tenants := u.tenants }) ∧
  (∀ (t : Fin 16) (tag : Half) (x : Half × Half × Nat) (s : State),
    (s.tenant t).remote.find? (fun x => x.2.1 = tag && x.2.2 = 0) = some x →
    exec (.remoteReplyTimeout t tag) s = .next (msixScan 16 (post t false { status := .timeout, opcode := x.1, tag, done := nowNs s }
      (modTenant t (fun n => { n with remote := n.remote.map fun y => if y = x then (y.1, y.2.1, 2) else y }) s))))

/-! Audio ports (09). -/

/-- R246, R250, R261 to R266: the commands of group 0x05. Frame: only the port or the MCG named, and for the first MCG the grid (R245). -/
def Obligations.AudioCommands : Prop :=
  (∀ (r : Req) (mcg mode family mult : Byte) (window : Half) (s : State), runsAtOnce (.mcgConfig r mcg mode family mult window) s = true →
    shaped s = true →
    ∃ u, Answers (.mcgConfig r mcg mode family mult window) s .ok [] u ∧
      u.mcg mcg.toNat = { mode := mode.toNat, family := family.toNat, mult := mult.toNat, window := window.toNat, began := s.now } ∧
      (∀ m, m ≠ mcg.toNat → u.mcg m = s.mcg m) ∧
      sansEvents s u = { s with audio := { s.audio with mcgs := u.audio.mcgs, grid := u.audio.grid } }) ∧
  (∀ (r : Req) (c : AportCfg) (s : State), runsAtOnce (.aportConfig r c) s = true →
    Answers (.aportConfig r c) s .ok [] (modAport c.port.toNat (fun _ =>
      { cfg := some c, family := (s.mcg c.mcg.toNat).family, mcg := c.mcg.toNat, rate := c.rate.toNat }) s)) ∧
  (∀ (r : Req) (p : Byte) (s : State), runsAtOnce (.aportStart r p) s = true → shaped s = true →
    ∃ u, Answers (.aportStart r p) s .ok [] u ∧ (u.aport p.toNat).startReq = true ∧ (u.aport p.toNat).stopReq = false ∧
      (u.aport p.toNat).cfg = (s.aport p.toNat).cfg ∧ (∀ q, q ≠ p.toNat → u.aport q = s.aport q) ∧ u = { s with audio := u.audio }) ∧
  (∀ (r : Req) (p : Byte) (s : State), runsAtOnce (.aportStop r p) s = true → shaped s = true →
    ∃ u, Answers (.aportStop r p) s .ok [] u ∧
      ((s.aport p.toNat).st = 0 → u.aport p.toNat = { s.aport p.toNat with startReq := false }) ∧
      ((s.aport p.toNat).st = 4 → (u.aport p.toNat).st = 0 ∧ (u.aport p.toNat).sdo = []) ∧
      ((s.aport p.toNat).st = 3 → u.aport p.toNat = s.aport p.toNat) ∧
      ((s.aport p.toNat).st = 2 → u.aport p.toNat = { s.aport p.toNat with stopReq := true }) ∧
      (∀ q, q ≠ p.toNat → u.aport q = s.aport q) ∧ u = { s with audio := u.audio }) ∧
  (∀ (r : Req) (p : Byte) (tx rx : Word) (s : State), runsAtOnce (.aportMask r p tx rx) s = true → shaped s = true →
    ∃ u, Answers (.aportMask r p tx rx) s .ok [] u ∧
      ((s.aport p.toNat).st = 0 ∨ (s.aport p.toNat).st = 4 → u.aport p.toNat = { s.aport p.toNat with txMask := tx, rxMask := rx }) ∧
      ((s.aport p.toNat).st = 2 → u.aport p.toNat = { s.aport p.toNat with change := some (.mask tx rx false) }) ∧
      (∀ q, q ≠ p.toNat → u.aport q = s.aport q) ∧ u = { s with audio := u.audio }) ∧
  (∀ (r : Req) (p mcg rate : Byte) (s : State), runsAtOnce (.aportRate r p mcg rate) s = true → shaped s = true →
    ∃ u, Answers (.aportRate r p mcg rate) s .ok [] u ∧
      ((s.aport p.toNat).st = 0 ∨ (s.aport p.toNat).st = 4 → (u.aport p.toNat).mcg = mcg.toNat ∧ (u.aport p.toNat).rate = rate.toNat ∧
        (u.aport p.toNat).family = (s.mcg mcg.toNat).family) ∧
      ((s.aport p.toNat).st = 2 → u.aport p.toNat =
        { s.aport p.toNat with change := some (.rate mcg.toNat rate.toNat (s.mcg mcg.toNat).family false) }) ∧
      (∀ q, q ≠ p.toNat → u.aport q = s.aport q) ∧ u = { s with audio := u.audio })

/-- R247, R249, R251 to R256, R260, R265 to R269: a port that waits begins its pre-roll at a frame start and carries samples after it, its
slots at the bit clocks of its format; it is stopped at the end of its post-roll; four good frames of a slave port give lock, a wrong one
drops it; a change ends when its fades end; the rate switches at a common boundary; a measuring MCG forms its window's frequency and phase
from its edges. Frame: only that port or MCG. -/
def Obligations.AudioEvents : Prop :=
  (∀ (p : Fin 8) (sdi : List Bool) (c : AportCfg) (s : State), (s.aport p).cfg = some c → frameOk s p c = true →
    frameDue s (s.aport p) = true → shaped s = true →
    ((s.aport p).st = 0 ∨ (s.aport p).st = 4 → (s.aport p).startReq = true → (s.aport p).stopReq = false →
      ∃ u, exec (.portFrameStart p sdi) s = .next (msixScan 16 u) ∧ (u.aport p).st = 1 ∧ (u.aport p).frames = (s.aport p).frames + 1 ∧
        (u.aport p).left = prerollLen c - 1 ∧ (u.aport p).clocks = true ∧ u = modAport p (fun _ => u.aport p) s) ∧
    ((s.aport p).st = 2 → (s.aport p).stopReq = false → (s.aport p).change = none →
      ∃ u, exec (.portFrameStart p sdi) s = .next (msixScan 16 u) ∧ (u.aport p).st = 2 ∧ (u.aport p).frames = (s.aport p).frames + 1 ∧
        (u.aport p).recv = some ((s.aport p).rxMask, (maskSlots (s.aport p).rxMask).map (wordIn c sdi)) ∧
        (u.aport p).sdo.length = c.frameBits.toNat ∧
        (∀ j, j < c.frameBits.toNat → (nth (u.aport p).sdo j = none ↔
          ∀ k i, slotAt c j = some (k, i) → (s.aport p).txMask.getLsbD k = false)) ∧
        (onGrid s (s.aport p) = true → (u.aport p).frameB = some (portBoundary s (s.aport p))) ∧
        sansEvents s u = modAport p (fun _ => u.aport p) s)) ∧
  (∀ (p : Fin 8) (s : State), (s.aport p).st = 1 → (s.aport p).left = 0 →
    exec (.prerollEnd p) s = .next (modAport p (fun q => { q with st := 2 }) s)) ∧
  (∀ (p : Fin 8) (s : State), (s.aport p).st = 3 → (s.aport p).stopping = false → (s.aport p).left = 0 →
    exec (.postrollEnd p) s = .next (modAport p portStopped s)) ∧
  (∀ (p : Fin 8) (bits : Nat) (tap : Fin 8) (c : AportCfg) (t0 : Time) (s : State), (s.aport p).cfg = some c →
    slaveRuns (s.aport p) = true → domainUp s (8 + p) = true → shaped s = true →
    ((s.aport p).lastSync = none → exec (.slaveFrameSync p bits tap) s =
      .next (modAport p (fun q => { q with lastSync := edgeStamp s tap }) s)) ∧
    (∀ t, (s.aport p).lastSync = some t0 → edgeStamp s tap = some t → bits = c.frameBits.toNat → periodOk (s.aport p) t0 t = true →
      3 ≤ (s.aport p).goodRun →
      ∃ u, exec (.slaveFrameSync p bits tap) s = .next (msixScan 16 u) ∧ (u.aport p).locked = true ∧ (u.aport p).goodRun = 4 ∧
        (u.aport p).lastSync = some t ∧ u = modAport p (fun _ => u.aport p) s) ∧
    ((s.aport p).lastSync = some t0 → bits ≠ c.frameBits.toNat →
      ∃ u, exec (.slaveFrameSync p bits tap) s = .next (msixScan 16 u) ∧ (u.aport p).locked = false ∧ (u.aport p).goodRun = 0 ∧
        sansEvents s u = modAport p (fun _ => u.aport p) s ∧
        (carries (s.aport p) = true → (u.aport p).underruns = (s.aport p).underruns + 2)) ∧
    (∃ u, exec (.slaveFrameTimeout p) s = .next (msixScan 16 u) ∧ (u.aport p).locked = false ∧ (u.aport p).lastSync = none ∧
      sansEvents s u = modAport p (fun _ => u.aport p) s)) ∧
  (∀ (p : Fin 8) (tx : Bool) (c : AportCfg) (s : State), (s.aport p).cfg = some c → (s.aport p).st = 3 →
    (s.aport p).stopping = true → (s.aport p).change = none → (s.aport p).inp.overrun = false → (s.aport p).outp.overrun = false →
    fadesEnded (s.aport p).inp = true → fadesEnded (s.aport p).outp = true → s.pwr.entering = .none →
    exec (.fadeComplete p tx) s =
      .next (msixScan 16 (modAport p (fun q => { q with stopping := false, left := postrollLen c, inp := emptyFifo, recv := none }) s))) ∧
  (∀ (p : Fin 8) (c : AportCfg) (m r fam : Nat) (s : State), (s.aport p).cfg = some c →
    (s.aport p).change = some (.rate m r fam true) → fadesEnded (s.aport p).outp = true → fadesEnded (s.aport p).inp = true →
    commonBoundary (portFs (s.aport p)) (fsOf fam r) (boundaryUpTo s (portFs (s.aport p)) s.now) = true → shaped s = true →
    ∃ u, exec (.aportRateSwitch p) s = .next (msixScan 16 u) ∧ (u.aport p).mcg = m ∧ (u.aport p).rate = r ∧ (u.aport p).family = fam ∧
      (u.aport p).change = none ∧ (u.aport p).st = (if isMaster c then 1 else 4) ∧ (u.aport p).outp = emptyFifo ∧
      (u.aport p).inp = emptyFifo ∧ sansEvents s u = modAport p (fun _ => u.aport p) s) ∧
  (∀ (m : Fin 4) (first last : Int) (edges : Nat) (s : State), (s.mcg m).mode = 2 → domainUp s (4 + m) = true →
    timeUnitUp s fenceMcg = true → windowEnd (s.mcg m) ≤ s.now → (s.mcg m).began ≤ ofQuarter first → first < last →
    ofQuarter last ≤ windowEnd (s.mcg m) →
    exec (.mcgWindowEnd m edges { first, last }) s = .next (modMcg m (fun g => { g with
      clockOk := true, began := windowEnd g, phase := phaseOf s (fsOf g.family 0) (ofQuarter last)
      ppb := freqPpb (fsOf g.family 0) (ofQuarter first) (ofQuarter last) edges }) s))

/-! Prism and the Mirror (10). -/

/-- R288 to R292, R297, R322: at a swap grid point a tenant's waiting command takes effect, its bank flips and SWAPS counts: a crosspoint
has its gain or ramps away, a sink its source, an input class or a bus its settings, a slot of a core its new parameter. A commit whose
commands fit one epoch closes its group. Frame: no unit changes hands, the Last stays. -/
def Obligations.SwapTakesEffect : Prop :=
  (∀ (t : Fin 16) (p : Pending) (r : Req) (s : State), ctlHalted s = false → fwRuns s = true → mirrorUp s = true →
    swapOutranked s t = false → shaped s = true → (s.tenant t).pend = [p] → swapsAt s t (swapPoint s t) p = true → reqOf p.cmd = some r → r.tenant = t →
    (∀ q, p.cmd ≠ .groupCommit q) → (opInfo p.cmd).fences.any (stoppedByHoldover s) = false →
    ∃ u, exec (.mirrorSwap t) s = .next (msixScan 16 u) ∧ (u.tenant t).pend = [] ∧
      (u.tenant t).mirror.swaps = (s.tenant t).mirror.swaps + 1 ∧ (u.tenant t).mirror.bankB = !(s.tenant t).mirror.bankB ∧
      u.last = s.last ∧ u.owners = s.owners ∧ u.store = s.store ∧
      (∀ l1 i l2, p.cmd = .prismXpSet r (l1 ++ i :: l2) → (∀ j ∈ l2, ¬ (j.source = i.source ∧ j.bus = i.bus)) →
        ∃ x ∈ u.prism.xps, x.source = i.source.toNat ∧ x.bus = i.bus.toNat ∧ x.code = i.gain.toInt ∧ x.clearing = false) ∧
      (∀ l i, p.cmd = .prismXpClear r l → i ∈ l → xpLive u i.source.toNat i.bus.toNat = false) ∧
      (∀ sink src flags, p.cmd = .prismRoute r sink src flags →
        (src ≠ 0xFFFF → ∃ x ∈ u.prism.routes, x.sink = sink.toNat ∧ x.source = some src.toNat) ∧
        (src = 0xFFFF → ∀ x ∈ u.prism.routes, x.sink = sink.toNat → x.source = none)) ∧
      (∀ src cls wind, p.cmd = .prismInputClass r src cls wind →
        (let q := (assoc u.prism.classes src.toNat).getD {}
         q.change.getD (q.cls, q.wind) = (cls.toNat, wind.toNat))) ∧
      (∀ b fam rate mode range, p.cmd = .prismBusConfig r b fam rate mode range → b.toNat < 128 →
        (u.bus b.toNat).family = fam.toNat ∧ (u.bus b.toNat).rate = rate.toNat ∧ (u.bus b.toNat).auto = decide (mode.toNat = 1) ∧
        (u.bus b.toNat).steps = 0 ∧
        (u.bus b.toNat).range = (if mode.toNat = 1 then (s.bus b.toNat).range else range.toNat)) ∧
      (∀ b range, p.cmd = .prismBusRange r b range → b.toNat < 128 → (u.bus b.toNat).range = range.toNat ∧
        (∀ k, k ≠ b.toNat → u.bus k = s.bus k)) ∧
      (∀ l1 i l2 h, p.cmd = .lensParam r (l1 ++ i :: l2) → (∀ j ∈ l2, j.core ≠ i.core) → i.core.toNat < 8 → i.slot.toNat < 4 →
        ownerOf s 4 i.core.toNat = t → coreShaped (s.core i.core.toNat) = true → i.word.toNat < h.params →
        (nth (s.core i.core.toNat).slots i.slot.toNat).kernel = some h →
        paramOf (u.core i.core.toNat) (nth (u.core i.core.toNat).slots i.slot.toNat) h i.word.toNat = i.value) ∧
      (∀ scene, p.cmd = .sceneRecall r scene → ∀ e ∈ entriesIn p.copied (p.copied.length / 8), peekLe e 0 1 = 4 →
        (∀ f ∈ entriesIn p.copied (p.copied.length / 8), peekLe f 0 1 = 4 → peekLe f 1 1 = peekLe e 1 1 → f = e) →
        ownerOf s 3 (peekLe e 1 1) = t → peekLe e 1 1 < 128 → (u.bus (peekLe e 1 1)).family = peekLe e 2 1 ∧
        (u.bus (peekLe e 1 1)).rate = peekLe e 3 1)) ∧
  (∀ (t : Fin 16) (p : Pending) (r : Req) (g : Group) (s : State), ctlHalted s = false → fwRuns s = true → mirrorUp s = true →
    swapOutranked s t = false → (s.tenant t).pend = [p] → swapsAt s t (swapPoint s t) p = true → p.cmd = .groupCommit r → r.tenant = t →
    s.plink.armed = none → groupOf (s.tenant t) r.group.toNat = some g → (takeEpoch 0 g.staged).2 = [] →
    g.staged.all (fun x => (opInfo x.cmd).groupable) = true → t.val < s.tenants.length →
    ∃ u, exec (.mirrorSwap t) s = .next (msixScan 16 u) ∧ (u.tenant t).pend = [] ∧ groupOf (u.tenant t) r.group.toNat = none ∧
      (u.tenant t).mirror.swaps = (s.tenant t).mirror.swaps + 1 ∧ u.last = s.last)

/-- R271, R289, R293 to R296, R299: PRISM_DIRECT_GAIN sets a gain at once; SCENE_DELETE takes a scene from the directory; MIRROR_CONFIG
sets the swap grid and restarts SWAPS; SCENE_STORE, when it ends, has put the image of the tenant's active state where it was told and
its entry into the directory; the loader's filling ends; a sample boundary of Prism changes no tenant, no page and not the Last. -/
def Obligations.MirrorCommands : Prop :=
  (∀ (r : Req) (src : Half) (bus : Byte) (gain : Half) (s : State), runsAtOnce (.prismDirectGain r src bus gain) s = true →
    Answers (.prismDirectGain r src bus gain) s .ok [] { s with prism := { s.prism with xps := s.prism.xps.map fun x =>
      if x.source = src.toNat && x.bus = bus.toNat then { x with code := gain.toInt, ramp := none } else x } }) ∧
  (∀ (r : Req) (scene : Byte) (s : State), runsAtOnce (.sceneDelete r scene) s = true →
    Answers (.sceneDelete r scene) s .ok []
      (modTenant r.tenant (fun n => { n with scenes := n.scenes.filter fun x => x.scene ≠ scene.toNat }) s)) ∧
  (∀ (r : Req) (family rate block : Byte) (len : Half) (s : State), runsAtOnce (.mirrorConfig r family rate block len) s = true →
    Answers (.mirrorConfig r family rate block len) s .ok [] (modTenant r.tenant (fun n => { n with mirror := { n.mirror with
      family := family.toNat, rate := rate.toNat, block := block.toNat, rampLen := len.toNat, swaps := 0 } }) s)) ∧
  (∀ (t : Fin 16) (ok : Bool) (rb : BitVec 256) (r : Req) (scene : Byte) (page : Half) (offset : Word) (s : State),
    endsWell t (.sceneStore r scene page offset) s = true → (sceneEntries s t).length ≤ 4096 →
    offset.toNat + 64 + 8 * (sceneEntries s t).length ≤ 65536 → t.val < s.tenants.length →
    ∃ u, EndsAs t ok rb (.sceneStore r scene page offset) s .ok
        (le 2 (sceneEntries s t).length ++ le 2 0 ++ leBits 4 (sceneImage s t scene.toNat).2) u ∧
      sceneOf u t scene.toNat = some { scene := scene.toNat, page := page.toNat, offset := offset.toNat
                                       entries := (sceneEntries s t).length, bytes := (sceneImage s t scene.toNat).1.length } ∧
      u = modTenant t (fun n => { n with scenes := (u.tenant t).scenes })
        (storePoke (page.toNat * pageSize + offset.toNat) (sceneImage s t scene.toNat).1 s)) ∧
  (∀ (t : Fin 16) (p : Pending) (l1 l2 : List Pending) (s : State), t.val < s.tenants.length → (s.tenant t).pend = l1 ++ p :: l2 →
    atSwap p.cmd = true → p.loaded = false → l1.all (fun q => !atSwap q.cmd || q.loaded) = true →
    exec (.mirrorLoaderFilled t) s =
      .next (modTenant t (fun n => { n with pend := l1 ++ { p with loaded := true } :: l2 }) s)) ∧
  (∀ (family : Bool) (rate : Fin 3) (s : State), prismRuns s = true →
    ∃ u, exec (.prismSample family rate) s = .next (msixScan 16 u) ∧ u.last = s.last ∧ u.tenants = s.tenants ∧ u.owners = s.owners ∧
      u.store = s.store ∧ u.pwr = s.pwr ∧ u.eth.ports = s.eth.ports ∧ u.trig = s.trig)

/-- R283 to R286: a bus forms the word of its sum in the range in force; in auto mode a sum above the threshold takes the smallest range
that fits from the next sample on, with STEPS counted; after fs/2 samples below the lower threshold the bus steps one range down. In
fixed mode the range stays. Frame: no other bus changes. -/
def Obligations.BusRanges : Prop :=
  (∀ (sums : List (Nat × Int)) (s : State) (b : Nat), b < 128 → shaped s = true →
    let q := s.bus b
    let v := valueOf sums b
    let u := busStage sums s b
    (u.bus b).formed = busWord v q.range ∧ (u.bus b).formedS = rangeS q.range ∧ (∀ k, k ≠ b → u.bus k = s.bus k) ∧
      (q.auto = false → (u.bus b).range = q.range ∧ (u.bus b).steps = q.steps) ∧
      (q.auto = true → q.range < 2 → aboveUp v q.range = true → q.range < fitRange v ∧ (u.bus b).range = fitRange v ∧
        (u.bus b).steps = q.steps + 1 ∧ (u.bus b).below = 0) ∧
      (q.auto = true → (2 ≤ q.range ∨ aboveUp v q.range = false) → (u.bus b).range = q.range ∧
        (u.bus b).below = (if 0 < q.range ∧ belowDown v q.range = true then q.below + 1 else 0))) ∧
  (∀ (b : Fin 128) (s : State), shaped s = true → (s.bus b).auto = true → 0 < (s.bus b).range →
    fsOf (s.bus b).family (s.bus b).rate ≤ 2 * (s.bus b).below →
    ∃ u, exec (.busRangeStepDown b) s = .next (msixScan 16 u) ∧ (u.bus b).range = (s.bus b).range - 1 ∧ (u.bus b).below = 0 ∧
      (u.bus b).steps = (s.bus b).steps + 1 ∧ sansEvents s u = modBus b (fun _ => u.bus b) s)

/-! Lens cores (11). -/

/-- R302, R321, R323, R324, R327 to R330: LENS_LOAD, when it ends, has copied a good image into its slot or tells what is wrong; LENS_CHAIN,
LENS_START and LENS_DEADLINE set what the next block start takes; LENS_STOP at class 0 fades the running slots it names from the next output
boundary on; a block start moves each slot on; a missed deadline counts and
fades the outputs; a clear leaves the memories zero and the slots EMPTY. Frame: only the core named. -/
def Obligations.LensCommands : Prop :=
  (∀ (t : Fin 16) (ok : Bool) (rb : BitVec 256) (r : Req) (core slot : Byte) (page : Half) (offset : Word) (s : State),
    endsWell t (.lensLoad r core slot page offset) s = true → r.tenant = t → core.toNat < 8 → slot.toNat < 4 → shaped s = true →
    (firstFailed (loadChecks t core slot page offset s) = none →
      ∃ u, (let k := kernelOf (kernelImage s page offset).1
            EndsAs t ok rb (.lensLoad r core slot page offset) s .ok (leBits 4 k.crc ++ le 4 (k.fix + k.per * 64)) u ∧
            nth (u.core core.toNat).slots slot.toNat = { st := 1, kernel := some k } ∧
            sansEvents s u = modLens core.toNat (loadKernel slot.toNat k (kernelImage s page offset).2) s)) ∧
    (∀ st, firstFailed (loadChecks t core slot page offset s) = some st →
      ∃ u, EndsAs t ok rb (.lensLoad r core slot page offset) s st [] u ∧ sansEvents s u = s)) ∧
  (∀ (r : Req) (g : ChainCfg) (s : State), runsAtOnce (.lensChain r g) s = true →
    Answers (.lensChain r g) s .ok [] (modLens g.core.toNat (fun c => { c with
      family := g.family.toNat, rate := g.rate.toNat, block := g.block.toNat
      slots := updAt c.slots g.slot.toNat fun q => { q with st := 2, chain := some g } }) s)) ∧
  (∀ (r : Req) (core slots : Byte) (s : State), runsAtOnce (.lensStart r core slots) s = true → shaped s = true →
    ∃ u, Answers (.lensStart r core slots) s .ok [] u ∧
      (∀ k, k < 4 → (nth (u.core core.toNat).slots k).startReq =
        (slots.getLsbD k || (nth (s.core core.toNat).slots k).startReq)) ∧
      (∀ k, k < 4 → (nth (u.core core.toNat).slots k).st = (nth (s.core core.toNat).slots k).st) ∧
      (u.core core.toNat).overruns = 0 ∧ (u.core core.toNat).faults = 0 ∧ (u.core core.toNat).cyclesMax = 0 ∧
      (∀ n, n ≠ core.toNat → u.core n = s.core n) ∧ u = { s with lens := u.lens }) ∧
  (∀ (r : Req) (core slots : Byte) (s : State), runsAtOnce (.lensStop r core slots) s = true → shaped s = true →
    ∃ u, Answers (.lensStop r core slots) s .ok [] u ∧
      (∀ k, k < 4 → slots.getLsbD k = true → (nth (u.core core.toNat).slots k).startReq = false ∧
        ((nth (s.core core.toNat).slots k).st = 3 → (nth (u.core core.toNat).slots k).st = 4 ∧
          (nth (u.core core.toNat).slots k).fadeAt = some (boundaryFrom s (coreFs (s.core core.toNat)) s.now)) ∧
        ((nth (s.core core.toNat).slots k).st ≠ 3 → (nth (u.core core.toNat).slots k).st = (nth (s.core core.toNat).slots k).st)) ∧
      (∀ k, k < 4 → slots.getLsbD k = false → nth (u.core core.toNat).slots k = nth (s.core core.toNat).slots k) ∧
      (∀ n, n ≠ core.toNat → u.core n = s.core n) ∧ u = { s with lens := u.lens }) ∧
  (∀ (r : Req) (core strikes : Byte) (guard : Half) (s : State), runsAtOnce (.lensDeadline r core strikes guard) s = true →
    Answers (.lensDeadline r core strikes guard) s .ok []
      (modLens core.toNat (fun c => { c with deadlineSet := some (strikes.toNat, guard.toNat) }) s)) ∧
  (∀ (n : Fin 8) (s : State), lensBlocks s n = true → (s.core n).run = none → shaped s = true →
    ∃ u, exec (.blockStart n) s = .next (msixScan 16 u) ∧ (u.core n).inBlk = [] ∧
      (∀ k, k < 4 → (nth (u.core n).slots k).st =
        (slotAtStart (s.core n).block (boundaryUpTo s (coreFs (s.core n)) s.now / (s.core n).block) (nth (s.core n).slots k)).st) ∧
      ((s.core n).slots.all (fun q => q.st = 2 && !q.startReq) = true → (u.core n).run = none)) ∧
  (∀ (n : Fin 8) (run : LensRun) (s : State), (s.core n).run = some run → (s.core n).aborting = false → (s.core n).discard = false →
    s.dbg.halted.getLsbD (1 + n) = false → (s.core n).strikesSet = 0 → deadlinePast s (s.core n) run.out = true → shaped s = true →
    ∃ u, exec (.deadlineMiss n) s = .next (msixScan 16 u) ∧ (u.core n).overruns = (s.core n).overruns + 1 ∧ (u.core n).missed = true ∧
      (abortPoint (s.core n) = true → (u.core n).run = none) ∧ (abortPoint (s.core n) = false → (u.core n).aborting = true) ∧
      sansEvents s u = modLens n (fun _ => u.core n) s) ∧
  (∀ (n : Fin 8) (s : State), (s.core n).clearing = true → shaped s = true →
    ∃ u, exec (.coreMemoryClearDone n) s = .next (msixScan 16 u) ∧ (u.core n).pm = [] ∧ (u.core n).xm = [] ∧ (u.core n).ym = [] ∧
      (u.core n).slots.all (fun q => q.st = 0 && q.kernel.isNone) = true ∧ u = modLens n (fun _ => u.core n) s)

/-- Tables 11.8 and 11.9, R310: an instruction of class ALU or MAC executed once reads its operands and its moves' registers as they are
at its start, writes the result and the flags stated, then its moves, and goes on to the next instruction. Frame: nothing but its own
core, and one free value drawn. The tables below spell each operation. -/
def Obligations.LensComputes : Prop :=
  ∀ (n : Fin 8) (x y : Move) (s : State), (s.core n).rep = none → movesRun (s.core n) x y = true →
    let moved := fun (i : Instr) (f : LensCore → LensCore) => lensReady n i s = true →
      ∃ c, withMoves ((Config.freeBits s.free).setWidth 16) x y none f (s.core n) = .ok c ∧
        exec i s = .next (msixScan 16 (modLens n (fun _ => nextInstr 1 c) { s with free := s.free + 1 }))
    (∀ (d a b : BitVec 4),
      (let alu := fun (i : Instr) (f : LensCore → Word) => moved i (fun c => setZN (f c) (putD d (f c) c))
       let sat := fun (i : Instr) (f : LensCore → Int) => moved i (fun c =>
         setZN (sat32r (f c)).1 (putD d (sat32r (f c)).1 { c with sat := (sat32r (f c)).2 }))
       sat (.lAdd n d a b x y) (fun c => (getD_ c a).toInt + (getD_ c b).toInt) ∧
       sat (.lSub n d a b x y) (fun c => (getD_ c a).toInt - (getD_ c b).toInt) ∧
       alu (.lAnd n d a b x y) (fun c => getD_ c a &&& getD_ c b) ∧
       alu (.lOr n d a b x y) (fun c => getD_ c a ||| getD_ c b) ∧
       alu (.lXor n d a b x y) (fun c => getD_ c a ^^^ getD_ c b) ∧
       (∀ sh : BitVec 6, sat (.lAsl n d a sh x y) (fun c => (getD_ c a).toInt * 2 ^ sh.toNat) ∧
         alu (.lAsr n d a sh x y) (fun c => (getD_ c a).sshiftRight sh.toNat) ∧
         alu (.lLsr n d a sh x y) (fun c => getD_ c a >>> sh.toNat)) ∧
       sat (.lAbs n d a x y) (fun c => (getD_ c a).toInt.natAbs) ∧
       sat (.lNeg n d a x y) (fun c => -(getD_ c a).toInt) ∧
       alu (.lMin n d a b x y) (fun c => if (getD_ c a).toInt ≤ (getD_ c b).toInt then getD_ c a else getD_ c b) ∧
       alu (.lMax n d a b x y) (fun c => if (getD_ c b).toInt ≤ (getD_ c a).toInt then getD_ c a else getD_ c b) ∧
       alu (.lMov n d a x y) (fun c => getD_ c a) ∧
       moved (.lCmp n a b x y) (fun c => { c with z := getD_ c a = getD_ c b, n := (getD_ c a).toInt < (getD_ c b).toInt }) ∧
       moved (.lPar n x y) id)) ∧
    (∀ (a : BitVec 3) (p q : BitVec 4) (neg : Bool),
      (let w := (getD_ (s.core n) p).toInt
       moved (.lMpy n a p q false neg x y) (fun c => putA a.toNat (signed neg (w * (getD_ c q).toInt)) c) ∧
       moved (.lMac n a p q false neg x y) (fun c =>
         { putA a.toNat (satA (getA c a.toNat + signed neg (w * (getD_ c q).toInt))) c with
           sat := decide (getA c a.toNat + signed neg (w * (getD_ c q).toInt) ≠
             satA (getA c a.toNat + signed neg (w * (getD_ c q).toInt))) }) ∧
       moved (.lMpy4 n a p q false neg x y) (fun c => (fourProducts c a q neg w).foldl (fun c v => putA v.1 v.2 c) c) ∧
       moved (.lMac4 n a p q false neg x y) (fun c => accumAll (fourProducts c a q neg w) c) ∧
       moved (.lMac2e n a p q neg x y) (fun c => accumAll [(a.toNat, signed neg (roundWide ((Config.freeBits s.free).setWidth 16)
         (((getD_ c (p + 1)).toInt * 2 ^ 32 + (getD_ c p).toNat) * (getD_ c q).toInt)))] c) ∧
       moved (.lMac2c n a p q neg x y) (fun c => accumAll [
         (a.toNat, signed neg ((getD_ c p).toInt * (getD_ c q).toInt - (getD_ c (p + 1)).toInt * (getD_ c (q + 1)).toInt)),
         (a.toNat + 1, signed neg ((getD_ c p).toInt * (getD_ c (q + 1)).toInt + (getD_ c (p + 1)).toInt * (getD_ c q).toInt))] c) ∧
       moved (.lClr n a x y) (putA a.toNat 0) ∧
       moved (.lClr4 n a x y) (fun c => (List.range 4).foldl (fun c j => putA (a.toNat + j) 0 c) c) ∧
       (∀ sh : BitVec 5, moved (.lRnd n p a sh x y) (fun c =>
         putD p (sat32r (roundAcc (getA c a.toNat) sh)).1 { c with sat := (sat32r (roundAcc (getA c a.toNat) sh)).2 })) ∧
       moved (.lMva n a p x y) (fun c => putA a.toNat ((getD_ c p).toInt * 2 ^ 31) c)))

/-- Tables 11.7 and 11.10, R312, R313, R317 to R319, R325, R444: control, immediate and bus instructions, each executed where no REP
repeats it. BRK halts its core where the session's scope covers it, else it acts as NOP. A store reaches the Store with the core's tag,
and is refused by an error flagged in BE. A word that spells no instruction is a kernel fault. -/
def Obligations.LensControlAndTransfers : Prop :=
  ∀ (n : Fin 8) (s : State), (s.core n).rep = none →
    let c := s.core n
    let turns := fun (i : Instr) (r : LensCore) => lensReady n i s = true → exec i s = .next (msixScan 16 (modLens n (fun _ => r) s))
    turns (.lNop n) (nextInstr 1 c) ∧
    (∀ k : LensRun, c.run = some k → c.discard = false →
      (let c1 := { c with cycles := c.cycles + 1 }
       let out := match (nth c.slots k.slot).kernel with | some h => readOutput c1 h k.blk | none => []
       let c2 := if k.init then c1 else { c1 with slots := updAt c.slots k.slot (fun q => { q with outq := q.outq ++ [(k.out, out)] }) }
       (k.rest = [] → turns (.lEnd n) (finishBlock k.out c2)) ∧
       (∀ slot init more, k.rest = (slot, init) :: more → turns (.lEnd n) (enterKernel k.blk k.out slot init more c2)))) ∧
    (∀ (cc : BitVec 4) (t : BitVec 13), turns (.lBr n cc t) (if condHolds c cc.toNat then branchTo t.toNat c else nextInstr 1 c)) ∧
    (∀ t : BitVec 13, c.calls.length < 4 →
      turns (.lCall n t) { c with calls := (c.pc + 1) :: c.calls, pc := t.toNat, cycles := c.cycles + 2 }) ∧
    (∀ k l, c.calls = k :: l → lensReady n (.lRet n) s = true → exec (.lRet n) s = .next (msixScan 16
      (modLens n (fun _ => { c with calls := l, pc := k, cycles := c.cycles + 2 }) { s with free := s.free + 1 }))) ∧
    (∀ (rot reg : Bool) (dc : BitVec 4) (count : Half) (e : BitVec 13) (k : Nat),
      k = (if reg then (getD_ c dc).toNat % 65536 else count.toNat) → k ≠ 0 → classOf (pmWord c e.toNat) ≠ 0 → c.loops.length < 4 →
      turns (.lLoop n rot reg dc count e) { c with
        loops := { start := c.pc + 1, last := e.toNat, count := k, rotOuter := c.rot, rot := rot, first := true } :: c.loops
        rot := if rot then 0 else c.rot
        cache := if c.pc + 1 ≤ e.toNat ∧ e.toNat < c.pc + 1 + 16 then some (c.pc + 1, e.toNat) else c.cache
        pc := c.pc + 1, cycles := c.cycles + 1 }) ∧
    (∀ (rot reg : Bool) (dc : BitVec 4) (count : Half) (e : BitVec 13), (if reg then (getD_ c dc).toNat % 65536 else count.toNat) = 0 →
      classOf (pmWord c e.toNat) ≠ 0 →
      turns (.lLoop n rot reg dc count e) (afterInstr 5 e.toNat { c with cycles := c.cycles + 1 })) ∧
    (∀ (reg : Bool) (dc : BitVec 4) (count : BitVec 13) (k : Nat), k = (if reg then (getD_ c dc).toNat % 8192 else count.toNat) →
      k ≤ 4096 → (classOf (pmWord c (c.pc + 1)) = 1 ∨ classOf (pmWord c (c.pc + 1)) = 2) →
      turns (.lRep n reg dc count) (if k = 0 then afterInstr 5 (c.pc + 1) { c with cycles := c.cycles + 1 }
        else { c with rep := some k, pc := c.pc + 1, cycles := c.cycles + 1 })) ∧
    (lensReady n (.lBrk n) s = true →
      (scopeCovers s (1 + n.val) = false → exec (.lBrk n) s = .next (msixScan 16 (modLens n (fun _ => nextInstr 1 c) s))) ∧
      (scopeCovers s (1 + n.val) = true → ∃ u, exec (.lBrk n) s = .next (msixScan 16 u) ∧ u.dbg.halted.getLsbD (1 + n.val) = true)) ∧
    (∀ (r : BitVec 6) (imm : Word) (c1 : LensCore), writeSel r.toNat imm c = .ok c1 → turns (.lLdi n r imm) (nextInstr 1 c1)) ∧
    (∀ (r1 r2 : BitVec 6) (c1 : LensCore), writeSel r1.toNat (readSel c r2.toNat) c = .ok c1 →
      turns (.lMvr n r1 r2) (nextInstr 1 c1)) ∧
    (∀ (d a : BitVec 4) (addr : Nat), (getD_ c a).toNat = addr → addr % 4 = 0 → addr < 2 ^ 24 → storeHeld s (6 + n.val) = false → noCopy s = true →
      ownerOf s 5 (pageOf addr) = ownerOf s 4 n →
      (let step := fun (g : LensCore → LensCore) (u : State) =>
         modLens n (fun c => nextInstr (busCycles s 1) { g c with be := false }) (granted 0 (6 + n.val) u)
       (lensReady n (.lLds n d a) s = true → exec (.lLds n d a) s = .next (msixScan 16
         (step (putD d (BitVec.ofNat 32 (unle (storeBytes s addr 4)))) s))) ∧
       (lensReady n (.lSts n d a) s = true → exec (.lSts n d a) s = .next (msixScan 16
         (step id (storePoke addr (leBits 4 (getD_ c d)) s)))) ∧
       (lensReady n (.lLks n d a) s = true → ∃ u, exec (.lLks n d a) s = .next (msixScan 16 u) ∧
         u.store.lock = some { master := 6 + n.val, line := addr / 32 } ∧ u.store.cells = s.store.cells ∧
         u.core n = nextInstr (busCycles s 1) { putD d (BitVec.ofNat 32 (unle (storeBytes s addr 4))) c with be := false }) ∧
       (lensReady n (.lUns n d a) s = true → s.store.timedOut.contains (6 + n.val) = false → s.dbg.apWait = none →
         ∃ u, exec (.lUns n d a) s = .next (msixScan 16 u) ∧ u.store.cells = (storePoke addr (leBits 4 (getD_ c d)) s).store.cells ∧
           (s.store.lock.any (fun k => k.line = addr / 32) = true → u.store.lock = none) ∧
           u.core n = nextInstr (busCycles s 1) { c with be := false }))) ∧
    (∀ (p : BitVec 3) (a n1 : BitVec 4) (addr : Nat), (getD_ c a).toNat = addr → burstOk addr (n1.toNat + 1) = true →
      storeHeld s (6 + n.val) = false → noCopy s = true → ownerOf s 5 (pageOf addr) = ownerOf s 4 n →
      (nth c.p p.toNat).toNat + 8 * (n1.toNat + 1) ≤ localWords →
      (lensReady n (.lLdb n p a n1) s = true → ∃ u, exec (.lLdb n p a n1) s = .next (msixScan 16 u) ∧ (u.core n).be = false ∧
        (u.core n).xm = localPoke c.xm (nth c.p p.toNat).toNat ((List.range (8 * (n1.toNat + 1))).map fun i =>
          BitVec.ofNat 32 (peekLe (storeBytes s addr (32 * (n1.toNat + 1))) (4 * i) 4)) ∧ u.store.cells = s.store.cells) ∧
      (lensReady n (.lStb n p a n1) s = true → ∃ u, exec (.lStb n p a n1) s = .next (msixScan 16 u) ∧ (u.core n).be = false ∧
        (u.core n).xm = c.xm ∧ u.store.cells = (storePoke addr ((List.range (8 * (n1.toNat + 1))).flatMap fun i =>
          leBits 4 (localGet c.xm ((nth c.p p.toNat).toNat + i))) s).store.cells))

/-- R132, R313: whatever a Lens instruction does, no other core changes, no unit changes hands, the Last, the tenants' commands and the
power state stay, and no byte written in a page that the core's holder does not hold changes. -/
def Obligations.LensIsolation : Prop :=
  ∀ (i : Instr) (n : Fin 8) (s t : State), coreOf i = some n → exec i s = .next t →
    (∀ m, m ≠ n.val → t.core m = s.core m) ∧ t.last = s.last ∧ t.owners = s.owners ∧ t.store.owner = s.store.owner ∧
    t.store.keys = s.store.keys ∧ t.pwr = s.pwr ∧ (∀ k, (t.tenant k).pend = (s.tenant k).pend) ∧ t.prism = s.prism ∧
    t.audio = s.audio ∧ t.eth = s.eth ∧ t.plink = s.plink ∧ t.trig = s.trig ∧
    (s.dbg.apWait = none → noCopy s = true → ∀ key off, off < 2 ^ 24 → ownerOf s 5 (pageOf off) ≠ ownerOf s 4 n →
      assoc t.store.cells (cellKey key off) = assoc s.store.cells (cellKey key off))

/-- Tables 11.5 to 11.10: every Lens instruction that the tables allow is read back from its word, with every operand at every value. -/
def Obligations.LensWordsRoundTrip : Prop :=
  ∀ (i : Instr) (n : Fin 8) (w : BitVec 64), coreOf i = some n → lensLegal i = true → lensEncode i = some w → lensDecode n w = some i

/-! The Store (05), the recorder (13) and the watchdog (14). -/

/-- R135, R138: bytes written within a page read back under its key, and every other byte listed under the key of its page reads as
before. PAGE_WRITE and FW_WRITE store at their offset, PAGE_COPY all bytes of its page; nothing but the Store changes.

R132, R127, R128: the Store answers a granted transaction of its page's owner with its bytes, or takes the bytes enabled; a
transaction with another tag gets zeros with an error response and event 0x0901, and writes nothing. A locked sequence that gets no
write ends, with event 0x0902, and its late write is answered with an error. R452: the retention trip counts as a loss of the Store. -/
def Obligations.StorePagesAndAccesses : Prop :=
  ((∀ (off k : Nat) (l : List Byte) (s : State), off < 2 ^ 24 → off % pageSize + l.length ≤ pageSize → keyOf s.store (pageOf off) = some k →
     (∀ i, i < l.length → storeByte (storePoke off l s) (off + i) = nth l i) ∧
     (∀ a j, a < 2 ^ 24 → (a < off ∨ off + l.length ≤ a) → keyOf s.store (pageOf a) = some j →
       (assoc s.store.cells (cellKey j a)).isSome = true → storeByte (storePoke off l s) a = storeByte s a) ∧
     storePoke off l s = { s with store := { s.store with cells := (storePoke off l s).store.cells, writes := s.store.writes + l.length } }) ∧
   (∀ (r : Req) (page : Half) (offset : Word) (data : List Byte) (s : State), runsAtOnce (.pageWrite r page offset data) s = true →
     Answers (.pageWrite r page offset data) s .ok [] (storePoke (page.toNat * pageSize + offset.toNat) data s)) ∧
   (∀ (t : Fin 16) (ok : Bool) (rb : BitVec 256) (r : Req) (src dst : Half) (s : State), endsWell t (.pageCopy r src dst) s = true →
     ∀ line, copyOf (s.tenant t) = some (src.toNat, dst.toNat, line) → line ≤ 1024 →
       EndsAs t ok rb (.pageCopy r src dst) s .ok [] (storePoke (dst.toNat * pageSize + 64 * line)
         (storeBytes s (src.toNat * pageSize + 64 * line) (64 * (1024 - line))) s)) ∧
   (∀ (t : Fin 16) (src dst line upTo : Nat) (s : State), copyOf (s.tenant t) = some (src, dst, line) → line ≤ upTo → upTo ≤ 1024 →
     src < 256 → dst < 256 → src ≠ dst → (keyOf s.store src).isSome = true → (keyOf s.store dst).isSome = true →
     (∀ i, i < 64 * (upTo - line) →
       storeByte (copyTo t upTo s) (dst * pageSize + 64 * line + i) = storeByte s (src * pageSize + 64 * line + i)) ∧
     (copyTo t upTo s).store.owner = s.store.owner) ∧
   (∀ (t : Fin 16) (ok : Bool) (rb : BitVec 256) (r : Req) (offset : Word) (data : List Byte) (s : State),
     endsWell t (.fwWrite r offset data) s = true →
     EndsAs t ok rb (.fwWrite r offset data) s .ok [] (storePoke (240 * pageSize + offset.toNat) data s))) ∧
  ((∀ (q : MatrixReq) (s : State), q.target = 0 → domainUp s 2 = true → hasPath q.master.val 0 = true → burstFits q = true →
     (q.master = 1 → s.dbg.session ≠ none) → s.store.lock = none → isLocked q = false → q.cut = none → noCopy s = true →
     s.store.waiting = [] → s.store.bursts = [] →
     let s1 := granted 0 q.master.val s
     let tag := matrixTag s q
     let a := q.addr.toNat
     (q.write = false → tagOk s tag a = true →
       exec (.storeAccess [q]) s = .next (msixScan 16 (emit (.response q.master.val false (storeBytes s1 a (32 * q.beats))) s1))) ∧
     (q.write = true → tagOk s tag a = true →
       exec (.storeAccess [q]) s = .next (msixScan 16 (emit (.response q.master.val false []) (storeWrite a (beatBytes q) s1)))) ∧
     (tagOk s tag a = false → exec (.storeAccess [q]) s = .next (msixScan 16
       (emit (.response q.master.val true (if q.write then [] else List.replicate (32 * q.beats) 0))
         (record 0x0901 tag [(1, q.master.val), (1, pageOf a), (1, tag)] s1))))) ∧
   (∀ (l : StoreLock) (s : State), s.store.lock = some l → l.frozen = false → s.dbg.apWait = none →
     s.tenants.all (fun n => n.taken = []) = true →
     ∃ u, exec .lockTimeout s = .next (msixScan 16 u) ∧ u.store.lock = none ∧ l.master ∈ u.store.timedOut ∧
       sansEvents s u = { s with store := { s.store with lock := none, timedOut := l.master :: s.store.timedOut } }) ∧
   (∀ s : State, exec .storeRetentionTrip s = .next (msixScan 16 { s with store := { s.store with lost := true } })))

/-- R341, R342, R349, R353, R77: an event enters channel B with the next SEQ, overwriting the oldest of 16,384; channel C queues it
when it is in use and the code has tokens and room, the recorder's own codes without tokens, and no more than 72 entries wait. With
the recorder out of service AON holds the first 16 events and counts the rest. Frame: nothing else changes. -/
def Obligations.EventsAreRecorded : Prop :=
  ∀ (code origin : Nat) (fields : List (Nat × Nat)) (s : State),
    let d := packData 8 fields
    let u := record code origin fields s
    d.length = 8 ∧ sansEvents s u = s ∧
    (s.evrec.bService = true → u.evrec.bHead = nextSeq s.evrec.bHead ∧
      u.evrec.ring = { seq := s.evrec.bHead, code, origin, data := d } :: s.evrec.ring.take 16383 ∧
      (s.evrec.cState = 0 ∨ s.evrec.cState = 3 → u.evrec.queue = s.evrec.queue ∧ u.evrec.suppressed = s.evrec.suppressed) ∧
      (s.evrec.cState ≠ 0 → s.evrec.cState ≠ 3 → exemptCode code = true → s.evrec.queue.length < 72 →
        ∃ x, u.evrec.queue = s.evrec.queue ++ [x] ∧ x.code = code ∧ x.origin = origin ∧ x.data = d ∧ x.hours = s.evrec.hours ∧
          x.valid = s.last.valid ∧ x.time = recordTime s) ∧
      (exemptCode code = false → (rateOf s.evrec code).1 = 0 → u.evrec.queue = s.evrec.queue) ∧
      u.evrec.queue.length ≤ max s.evrec.queue.length 72) ∧
    (s.evrec.bService = false → u.evrec = s.evrec ∧
      (s.sys.aonEvents.length < 16 → ∃ h, u.sys.aonEvents = s.sys.aonEvents ++ [h] ∧ h.code = code ∧ h.origin = origin ∧ h.data = d) ∧
      (16 ≤ s.sys.aonEvents.length → u.sys.aonEvents = s.sys.aonEvents ∧ u.sys.aonDropped = s.sys.aonDropped + 1))

/-- Table 13.8, R350, R353, R357, R362: EVREC_RATE sets the rate of one code or of all; EVREC_CONFIG, done well, leaves the descriptor in
the last sector, the regions erased and channel C in service from slot 0; EVREC_ERASE erases a slot, or everything with the descriptor;
EVREC_READ changes nothing and shows a tenant other than Root its own records since it opened; EVREC_FLUSH starts a dump and answers with
what it wrote. -/
def Obligations.RecorderCommands : Prop :=
  (∀ (r : Req) (code rate : Half) (burst : Byte) (s : State), runsAtOnce (.evrecRate r code rate burst) s = true →
    ∃ u, Answers (.evrecRate r code rate burst) s .ok [] u ∧ (∀ k, (code = 0xFFFF ∨ k = code.toNat) →
        rateOf u.evrec k = (rate.toNat, burst.toNat)) ∧
      (∀ k, code ≠ 0xFFFF → k ≠ code.toNat → rateOf u.evrec k = rateOf s.evrec k) ∧
      u = { s with evrec := { s.evrec with rates := u.evrec.rates, rateAll := u.evrec.rateAll, buckets := u.evrec.buckets } }) ∧
  (∀ (t : Fin 16) (rb : BitVec 256) (r : Req) (c n d : Word) (tick : Half) (s : State), endsWell t (.evrecConfig r c n d tick) s = true →
    ∃ u, EndsAs t true rb (.evrecConfig r c n d tick) s .ok [] u ∧
      (let new : Descriptor := { cBase := c.toNat, cSize := n.toNat, dumpBase := d.toNat, tick := tick.toNat }
       u.evrec.desc = some new ∧ flashBytes u.evrec.flash descAddr 32 = descBytes new ∧ u.evrec.cState = 2 ∧ u.evrec.writePos = 0 ∧
       (∀ a, a < descAddr ∨ descAddr + 4096 ≤ a → flashByte u.evrec.flash a =
         if (c.toNat ≤ a ∧ a < c.toNat + 8192) ∨ (d.toNat ≤ a ∧ a < d.toNat + 2 * dumpSize) then 0xFF else flashByte s.evrec.flash a)) ∧
      sansEvents s u = s) ∧
  (∀ (t : Fin 16) (rb : BitVec 256) (r : Req) (target : Byte) (d : Descriptor) (s : State), endsWell t (.evrecErase r target) s = true →
    s.evrec.desc = some d →
    ∃ u, EndsAs t true rb (.evrecErase r target) s .ok [] u ∧ sansEvents s u = s ∧
      (target ≠ 2 → u.evrec.desc = some d ∧ flashErased u.evrec.flash (dumpAddr d target.toNat) dumpSize = true ∧
        (∀ a, a < dumpAddr d target.toNat ∨ dumpAddr d target.toNat + dumpSize ≤ a →
          flashByte u.evrec.flash a = flashByte s.evrec.flash a)) ∧
      (target = 2 → u.evrec.desc = none ∧ flashErased u.evrec.flash d.cBase d.cSize = true ∧
        flashErased u.evrec.flash d.dumpBase (2 * dumpSize) = true ∧ flashErased u.evrec.flash descAddr 4096 = true)) ∧
  (∀ (t : Fin 16) (ok : Bool) (rb : BitVec 256) (r : Req) (ch max_ : Byte) (from_ : Word) (s : State),
    endsWell t (.evrecRead r ch max_ from_) s = true →
    ∃ res, EndsAs t ok rb (.evrecRead r ch max_ from_) s .ok res s ∧ (nth res 4).toNat ≤ max_.toNat) ∧
  (∀ (t : Nat) (from_ : Word) (x : Nat × List Byte) (s : State), t ≠ 0 → x ∈ channelRecords s t 1 from_ →
    ∃ y ∈ s.evrec.ring, y.origin = t ∧ (y.seq = (s.tenant t).openB ∨ newer y.seq (s.tenant t).openB = true) ∧ x = (y.seq.toNat, bBytes y)) ∧
  (∀ (r : Req) (s : State), accepted (.evrecFlush r) s = true → r.cls = 2 → (s.tenant r.tenant).class2 = [] →
    ∃ u, exec (.evrecFlush r) s = .next u ∧
      u.evrec.dump.map (fun d => (d.slot, d.trigger, d.flush)) = (freeSlot s).map (fun k => (k, 0, true))) ∧
  (∀ (t : Fin 16) (ok : Bool) (rb : BitVec 256) (r : Req) (f c k : Nat) (s : State), endsWell t (.evrecFlush r) s = true →
    s.evrec.flushed = some (f, c, k) →
    EndsAs t ok rb (.evrecFlush r) s .ok (le 4 f ++ le 4 c ++ le 1 k ++ le 3 0) { s with evrec := { s.evrec with flushed := none } })

/-- R354, R355, R357, R360, R366, R480: the scan puts channel C into service behind its newest record; a program writes the oldest
queued entry into its slot, and a failed one passes the rest of the sector over and keeps the entry; an erase empties its sector; a dump
page writes the header or the next records, and the last one marks the slot complete; HOURS passes the next multiple of TICK. -/
def Obligations.RecorderFlashSteps : Prop :=
  (∀ (d : Descriptor) (s : State), s.evrec.desc = some d → s.evrec.cState = 1 → s.evrec.bService = true →
    ∃ u, exec .channelCScanDone s = .next (msixScan 16 u) ∧ u.evrec.cState = 2 ∧ u.evrec.settled = true ∧
      u.evrec.flash = s.evrec.flash ∧
      (match newestRec (cRecords s.evrec.flash d) with
        | some x => u.evrec.cHead = nextSeq (recSeq x.2) ∧
          (s.evrec.settled = false → u.evrec.hours = s.evrec.hours + peekLe x.2 8 4 ∧ u.evrec.cycles = min (peekLe x.2 12 3 + 1) 0xFFFFFF)
        | none => u.evrec.cHead = 0 ∧ u.evrec.writePos = 0 ∧
          (s.evrec.settled = false → u.evrec.hours = s.evrec.hours ∧ u.evrec.cycles = 1)) ∧
      sansEvents s u = { s with
        pwr := { s.pwr with modeEvent := u.pwr.modeEvent }
        tenants := s.tenants.map fun n => if n.markDue then { n with openC := u.evrec.cHead, markDue := false } else n }) ∧
  (∀ (d : Descriptor) (x : CEntry) (rest : List CEntry) (s : State), s.evrec.desc = some d → s.evrec.queue = x :: rest →
    s.evrec.cState = 2 → s.evrec.eraseQ.contains (sectorAddr d (s.evrec.writePos / 128)) = false → 4 ≤ x.data.length →
    let a := d.cBase + 32 * s.evrec.writePos
    (∃ u, exec (.channelCProgramDone true) s = .next (msixScan 16 u) ∧ u.evrec.queue = rest ∧ u.evrec.cHead = nextSeq s.evrec.cHead ∧
      flashBytes u.evrec.flash a 32 = cBytes s.evrec.cHead s.evrec.cycles x ∧
      (∀ b, b < a ∨ a + 32 ≤ b → flashByte u.evrec.flash b = flashByte s.evrec.flash b) ∧
      (s.evrec.writePos % 128 ≠ 127 → u.evrec.writePos = s.evrec.writePos + 1) ∧ u = { s with evrec := u.evrec }) ∧
    (∃ u, exec (.channelCProgramDone false) s = .next (msixScan 16 u) ∧ u.evrec.nvmErrors = s.evrec.nvmErrors + 1 ∧
      u.evrec.failures = s.evrec.failures + 1 ∧ (s.evrec.failures < 2 → u.evrec.queue = s.evrec.queue ∧ u.evrec.cState = 2) ∧
      (2 ≤ s.evrec.failures → u.evrec.queue = [] ∧ u.evrec.cState = 3 ∧ isFenced u fenceEvrec = true))) ∧
  (∀ (a : Nat) (rest : List Nat) (s : State), s.evrec.eraseQ = a :: rest →
    (∃ u, exec (.sectorEraseDone true) s = .next (msixScan 16 u) ∧ u.evrec.eraseQ = rest ∧ flashErased u.evrec.flash a 4096 = true ∧
      (∀ b, b < a ∨ a + 4096 ≤ b → flashByte u.evrec.flash b = flashByte s.evrec.flash b) ∧ u = { s with evrec := u.evrec }) ∧
    (∃ u, exec (.sectorEraseDone false) s = .next (msixScan 16 u) ∧ u.evrec.nvmErrors = s.evrec.nvmErrors + 1 ∧
      flashErased u.evrec.flash a 4096 = false)) ∧
  (∀ (d : Dump) (c : Descriptor) (s : State), s.evrec.dump = some d → s.evrec.desc = some c →
    (s.evrec.cState = 2 → s.evrec.queue = []) →
    (d.header = false → s.evrec.settled = true →
      ∃ u, exec (.dumpPageDone true) s = .next (msixScan 16 u) ∧ u.evrec.dump = some { d with header := true } ∧
        flashBytes u.evrec.flash (dumpAddr c d.slot) 32 = headerBytes s.evrec.cycles d ∧ u = { s with evrec := u.evrec }) ∧
    (d.header = true → nextPage s.evrec d ≠ [] →
      ∃ u, exec (.dumpPageDone true) s = .next (msixScan 16 u) ∧
        u.evrec.dump = some { d with index := d.index + (nextPage s.evrec d).length } ∧
        (let bs := (nextPage s.evrec d).flatMap bBytes
         flashBytes u.evrec.flash (dumpAddr c d.slot + 4096 + 16 * d.index) bs.length = bs) ∧ u = { s with evrec := u.evrec }) ∧
    (d.header = true → d.counted = true → nextPage s.evrec d = [] →
      ∃ u, exec (.dumpPageDone true) s = .next (msixScan 16 u) ∧ u.evrec.dump = none ∧
        flashByte u.evrec.flash (dumpAddr c d.slot + 32) = 0 ∧ sansEvents s u = { s with pwr := u.pwr })) ∧
  (∀ (d : Descriptor) (s : State), s.evrec.desc = some d → d.tick ≠ 0 → s.evrec.bService = true →
    ∃ u, exec .operatingTimeMark s = .next (msixScan 16 u) ∧ u.evrec.hours = (s.evrec.hours / d.tick + 1) * d.tick ∧
      u.evrec.hoursTicks = 0 ∧ sansEvents s u = { s with sys := { s.sys with aonTicks := u.sys.aonTicks } })

/-- R367, R370 to R374 (Table 14.3), R379: how a key write and the edge c = P are judged, and what expiry does on its edge: grace,
interrupt, cause and c retained, FAULT_N low, every pin to high impedance. An edge of AON_FAST with no command waiting counts c (the
model's choice, log entry 1), and with WD_SRC 1 the firmware's keys land within the bounds of R373 (log entry 139): KEY2 restarts the
period before W + (P - W)/2 has passed. -/
def Obligations.WatchdogJudges : Prop :=
  (∀ (v : Word) (s : State), wdSrc s = false → s.wdog.running = true → s.wdog.grace = false →
    let expires := fun (cause : Nat) => ∃ u, exec (.wdogServe v) s = .next (msixScan 16 u) ∧ u.wdog.grace = true ∧ u.wdog.cause = cause ∧
      u.wdog.cRetained = s.wdog.c ∧ faultN u = false ∧ u.trig = (freezePins s).trig ∧ u.last = s.last ∧ u.store = s.store
    if v = 0xA7E1 then exec (.wdogServe v) s = .next (msixScan 16 { s with wdog := { s.wdog with armed := true } })
    else if v = 0x5C0B then
      if s.wdog.armed = false then expires 2
      else if s.wdog.c < wdW s then expires 1
      else exec (.wdogServe v) s = .next (msixScan 16 { s with
        wdog := { s.wdog with c := 0, armed := false, periods := s.wdog.periods + 1 } })
    else expires 3) ∧
  (∀ (v : Word) (s : State), wdSrc s = true → exec (.wdogServe v) s = .next s) ∧
  (∀ s : State, s.wdog.running = true → s.wdog.grace = false → wdFrozen s = false → ¬ (fwServes s = true ∧ s.wdog.c < fwLast s) →
    ∃ u, exec .watchdogExpiry s = .next (msixScan 16 u) ∧ u.wdog.grace = true ∧ u.wdog.cause = 0 ∧ u.wdog.cRetained = wdP s ∧
      faultN u = false ∧ u.trig = (freezePins s).trig) ∧
  (∀ s : State, s.pending = [] → s.sys.clkOk.getLsbD 0 = true → s.store.waiting = [] → s.store.bursts = [] →
    s.tenants.all (fun n => n.taken = []) = true →
    ∃ u, step s = .next (msixScan 16 u) ∧ u.sys.aonTicks = s.sys.aonTicks + 1 ∧
      (s.wdog.running = false ∨ s.wdog.grace = true ∨ wdFrozen s = true → u.wdog = s.wdog) ∧
      (s.wdog.running = true → s.wdog.grace = false → wdFrozen s = false →
        (s.wdog.c + 1 < wdP s →
          (fwServes s = false → u.wdog = { s.wdog with c := s.wdog.c + 1 }) ∧
          (fwServes s = true → s.wdog.c + 2 < fwEdge s → s.wdog.armed = false → u.wdog = { s.wdog with c := s.wdog.c + 1 }) ∧
          (fwServes s = true → s.wdog.c + 2 = fwEdge s → s.wdog.armed = false →
            u.wdog = { s.wdog with c := s.wdog.c + 1, armed := true }) ∧
          (fwServes s = true → fwEdge s = s.wdog.c + 1 → s.wdog.armed = true →
            u.wdog = { s.wdog with c := 0, armed := false, periods := s.wdog.periods + 1 })) ∧
        (wdP s ≤ s.wdog.c + 1 → u.wdog.grace = true ∧ u.wdog.cause = 0))) ∧
  (∀ s : State, fwFirst s ≤ fwEdge s ∧ fwEdge s ≤ fwLast s)

/-- R369, R109, R377, R381: WDOG_CONFIG sets PERIOD once per boot and a second one answers S_LOCKED with event 0x0005 and changes nothing;
WDOG_COUNT_CLEAR sets the count to 0 and records event 0x0B03 with the count before; the grace ends with every domain reset and the count
one higher, to 255. -/
def Obligations.WatchdogCommands : Prop :=
  (∀ (r : Req) (period : Half) (s : State), runsAtOnce (.wdogConfig r period) s = true →
    Answers (.wdogConfig r period) s .ok []
      { s with wdog := { s.wdog with period := period.toNat, c := 0, armed := false, locked := true, periods := s.wdog.periods + 1 } }) ∧
  (∀ (r : Req) (period : Half) (s : State), reaches (.wdogConfig r period) s = true → r.cls = 0 → r.group = 0 → r.tenant = 0 →
    s.wdog.locked = true →
    Answers (.wdogConfig r period) s .locked [] (record 0x0005 0 [(1, 0), (2, 0x0B01), (4, period.toNat)] s)) ∧
  (∀ (r : Req) (s : State), runsAtOnce (.wdogCountClear r) s = true →
    Answers (.wdogCountClear r) s .ok (le 1 s.wdog.count ++ le 3 0)
      (record 0x0B03 0x10 [(2, sat16 s.wdog.count)] { s with wdog := { s.wdog with count := 0 } })) ∧
  (∀ (env : StartEnv) (s : State), s.wdog.grace = true →
    ∃ u, exec (.graceEnd env) s = .next u ∧ u.wdog.grace = false ∧ u.wdog.count = min 255 (s.wdog.count + 1) ∧
      (canStart s = false → u.sys.running = false ∧ u.sys.rst = 0x1FFFFFFE) ∧
      (canStart s = true → u.sys.kind = .watchdog))

/-! Power, holdover and the Shank (15). -/

/-- R387, R390, R406, R407, Table 15.6: POWER_MODE goes from QUIET to RUN, from RUN to QUIET, where the media units are gated when every
sink has faded out, and into SLEEP, where it cancels what every tenant still has to do; CORE_CLOCK asks for a frequency and answers old
and new; HOLD_CONFIG and BALANCE_CONFIG set their parameters, and a CELLS that changes discards the readings. -/
def Obligations.PowerCommands : Prop :=
  (∀ (r : Req) (mode flags : Byte) (wake : Stamp) (s : State), runsAtOnce (.powerMode r mode flags wake) s = true → shaped s = true →
    ∃ u, Answers (.powerMode r mode flags wake) s .ok [] u ∧ u.last = s.last ∧ u.owners = s.owners ∧
      (mode = 0 → s.pwr.mode = .quiet → u.pwr = { s.pwr with mode := .run } ∧ u.prism.gated = false) ∧
      (mode = 0 → s.pwr.mode = .run → u = s) ∧ (mode = 1 → s.pwr.mode = .quiet → u = s) ∧
      (mode = 1 → s.pwr.mode = .run → u.pwr.mode = .quiet ∧ (sinksFaded u = true → u.pwr.entering = .none ∧ u.prism.gated = true) ∧
        (sinksFaded u = false → u.pwr.entering = .quiet ∧ u.prism.gated = s.prism.gated)) ∧
      (mode = 2 → u.pwr = { s.pwr with entering := .sleep, wakeAt := if flags.getLsbD 0 then some (timeOf wake) else none } ∧
        ∀ t, t < 16 → (u.tenant t).pend = [] ∧ (u.tenant t).class2 = [] ∧ (u.tenant t).groups = [])) ∧
  (∀ (r : Req) (mhz : Half) (s : State), runsAtOnce (.coreClock r mhz) s = true →
    Answers (.coreClock r mhz) s .ok (le 2 s.sys.coreMhz ++ le 2 (coreFor s mhz.toNat))
      (record 0x0C09 r.tenant [(4, s.sys.coreMhz), (4, coreFor s mhz.toNat)]
        { s with sys := { s.sys with coreReq := mhz.toNat, coreMhz := coreFor s mhz.toNat } })) ∧
  (∀ (r : Req) (c : HoldCfg) (s : State), runsAtOnce (.holdConfig r c) s = true →
    Answers (.holdConfig r c) s .ok [] { s with pwr := { s.pwr with
      en := c.en = 1, after := c.after.toNat, keep := c.keep.setWidth 3, holdTime := c.holdTime.toNat, vMin := c.vMin.toNat
      shunt := c.shunt.toNat, current := if c.shunt = 0 then 0 else s.pwr.current } }) ∧
  (∀ (r : Req) (c : BalanceCfg) (s : State), runsAtOnce (.balanceConfig r c) s = true →
    ∃ u, Answers (.balanceConfig r c) s .ok [] u ∧ u = { s with pwr := u.pwr } ∧ u.pwr.cells = c.cells.toNat ∧
      u.pwr.balMode = decide (c.mode = 1) ∧ u.pwr.charge = decide (c.charge = 1) ∧ u.pwr.balTimeout = c.balTimeout.toNat ∧
      u.pwr.balTarget = c.balTarget.toNat ∧ u.pwr.balWindow = c.balWindow.toNat ∧ u.pwr.vOv = c.vOv.toNat ∧
      u.pwr.chgEn = (u.pwr.charge && s.pwr.mainOk && !isFenced s fenceShank && !s.pwr.ovLatch && decide (s.pwr.mode ≠ .off)) ∧
      (c.mode ≠ 1 → u.pwr.sw = 0) ∧ (c.cells.toNat = s.pwr.cells → u.pwr.volts = s.pwr.volts ∧ u.pwr.measured = s.pwr.measured) ∧
      (c.cells.toNat ≠ s.pwr.cells → u.pwr.measured = false ∧ u.pwr.low = 0 ∧ u.pwr.high = 0))

/-- R389 to R392, R394 to R396, R408: an armed trip in RUN or QUIET drives HOLD_EN high and enters HOLDOVER, an unarmed one leaves the
mode; main power that returns is remembered, and 1 ms later HOLD_EN falls and HOLDOVER becomes RUN; the end of HOLD_TIME does what AFTER
says; a silent Shank ends HOLDOVER; at its end the engine is OFF. -/
def Obligations.Holdover : Prop :=
  (∀ s : State, s.pwr.mode = .run ∨ s.pwr.mode = .quiet → s.pwr.tripped = false →
    ∃ u, exec .powerFailTrip s = .next (msixScan 16 u) ∧ u.pwr.mainOk = false ∧ u.pwr.tripped = true ∧ u.pwr.chgEn = false ∧
      u.pwr.tripTicks = s.sys.aonTicks ∧ u.sys.fuses = s.sys.fuses ∧
      (holdArmed s = true → u.pwr.mode = .holdover ∧ u.pwr.holdEn = true ∧ u.pwr.sw = 0) ∧
      (holdArmed s = false → u.pwr.mode = s.pwr.mode ∧ u.pwr.holdEn = s.pwr.holdEn ∧ sansEvents s u = { s with pwr := u.pwr })) ∧
  (∀ s : State, s.pwr.mode ≠ .off → s.pwr.mainOk = false →
    ∃ u, exec .mainPowerReturn s = .next (msixScan 16 u) ∧ u.pwr.mainOk = true ∧ u.pwr.released = decide (s.pwr.mode = .holdover) ∧
      u.pwr.mode = s.pwr.mode ∧ u.pwr.holdEn = s.pwr.holdEn ∧ u = { s with pwr := u.pwr }) ∧
  (∀ s : State, s.pwr.mainOk = true → s.pwr.holdEn = true →
    (s.pwr.mode ≠ .holdover → exec .holdEnRelease s = .next (msixScan 16 { s with pwr := { s.pwr with holdEn := false } })) ∧
    (s.pwr.mode = .holdover → s.pwr.released = true → ∃ u, exec .holdEnRelease s = .next (msixScan 16 u) ∧ u.pwr.mode = .run ∧
      u.pwr.holdEn = false ∧ u.pwr.entering = .none ∧
      (s.sys.running = true → u.prism.gated = false ∧ u.sys.coreMhz = coreFor s s.sys.coreReq))) ∧
  (∀ s : State, s.pwr.holdTime ≠ 0 → s.pwr.mode = .holdover → s.pwr.timeEnded = false →
    ∃ u, exec .holdTimeEnd s = .next (msixScan 16 u) ∧ u.pwr.timeEnded = true ∧ sansEvents s u = { s with pwr := u.pwr } ∧
      (s.pwr.ending = false → s.pwr.entering ≠ .sleep → s.evrec.dump = none → s.sys.running = true →
        (s.pwr.after = 0 → u.pwr.entering = .sleep ∧ u.pwr.ending = false) ∧ (s.pwr.after ≠ 0 → u.pwr.ending = true))) ∧
  (∀ s : State, s.pwr.mode = .holdover → s.pwr.ending = false →
    ∃ u, exec .shankSilent s = .next (msixScan 16 u) ∧ u.pwr.ending = true ∧ sansEvents s u = { s with pwr := u.pwr }) ∧
  (∀ s : State, s.pwr.mode = .holdover → s.pwr.ending = true →
    ∃ u, exec .holdoverEnd s = .next (msixScan 16 u) ∧ u.pwr.mode = .off ∧ u.pwr.holdEn = false ∧ u.pwr.chgEn = false ∧
      u.pwr.sw = 0 ∧ faultN u = false ∧ u.last = { s.last with coarse := true } ∧ u.sys.fuses = s.sys.fuses)

/-- R397 to R401, R403, R450: a measurement stores the reading of each cell and its marks, and ends HOLDOVER below V_MIN; on a tick the
switches of its parity close as R400 says while balancing runs, all others open; the heartbeat keeps balancing alive; a cell above V_OV
drives CHG_EN low until it has cleared; the temperature alarm has its hysteresis. -/
def Obligations.ShankEvents : Prop :=
  (∀ (cells : List Half) (nv : BitVec 32) (s : State), shankRuns s = true → belowShank s cells = true →
    ∃ u, exec (.cellMeasurement cells nv) s = .next (msixScan 16 u) ∧ u.pwr.measured = false ∧ u.pwr.ovLatch = false ∧
      holdArmed u = false ∧ u = { s with pwr := u.pwr }) ∧
  (∀ (cells : List Half) (nv : BitVec 32) (s : State), shankRuns s = true → belowShank s cells = false →
    ∃ u, exec (.cellMeasurement cells nv) s = .next (msixScan 16 u) ∧ u.pwr.measured = true ∧ u.pwr.volts.length = 12 ∧
      (∀ i, i < 12 → i < s.pwr.cells → nth u.pwr.volts i = cellReading s i (nth cells i) ∧
        u.pwr.low.getLsbD i = decide (nth u.pwr.volts i < 10 * (s.pwr.balTarget - s.pwr.balWindow)) ∧
        u.pwr.high.getLsbD i = decide (10 * s.pwr.vOv < nth u.pwr.volts i)) ∧
      (s.pwr.shunt = 0 → u.pwr.current = 0) ∧
      (s.pwr.mode = .holdover → stackMv u < s.pwr.vMin → u.pwr.ending = true) ∧
      (s.pwr.mode = .run ∨ s.pwr.mode = .quiet → sansEvents s u = { s with pwr := u.pwr })) ∧
  (∀ s : State, ∃ u, exec .balanceTick s = .next (msixScan 16 u) ∧ u = { s with pwr := u.pwr } ∧ u.pwr.tickOdd = !s.pwr.tickOdd ∧
    (balances s = false → u.pwr.sw = 0) ∧
    (balances s = true → ∀ i, i < 12 → u.pwr.sw.getLsbD i = (decide (i < s.pwr.cells) && decide (i % 2 = bit s.pwr.tickOdd) &&
      (decide (10 * (s.pwr.balTarget + s.pwr.balWindow) < nth s.pwr.volts i) ||
        (s.pwr.prevSw.getLsbD i && decide (10 * s.pwr.balTarget < nth s.pwr.volts i)))))) ∧
  (∀ s : State, s.pwr.mode ≠ .off → ∃ u, exec .heartbeat s = .next (msixScan 16 u) ∧
    sansEvents s u = { s with pwr := { s.pwr with hbOk := true, hbLost := false } }) ∧
  (∀ s : State, s.pwr.hbOk = true → isFenced s fenceShank = false → exec .heartbeatTimeout s =
    .next (msixScan 16 { s with pwr := { s.pwr with sw := 0, prevSw := 0, hbOk := false, hbLost := true } })) ∧
  (∀ (cell : Fin 12) (mv : Half) (s : State), cell.val < s.pwr.cells → s.pwr.vOv < mv.toNat →
    ∃ u, exec (.cellOvervoltage cell mv) s = .next (msixScan 16 u) ∧
      sansEvents s u = { s with pwr := { s.pwr with ovLatch := true, chgEn := false } }) ∧
  (∀ s : State, exec .chgEnRecovery s = .next (msixScan 16 { s with pwr := { s.pwr with
    ovLatch := false, chgEn := s.pwr.charge && s.pwr.mainOk && !isFenced s fenceShank && decide (s.pwr.mode ≠ .off) } })) ∧
  (∀ (theta : Half) (s : State), s.last.hot = false → 12000 < theta.toInt → exec (.thetaHigh theta) s =
    .next (msixScan 16 (record 0x0C0A 0x10 [(4, theta.toInt.toNat)] { s with last := { s.last with hot := true } }))) ∧
  (∀ (theta : Half) (s : State), s.last.hot = true → theta.toInt < 11500 → ∃ u, exec (.thetaLow theta) s = .next (msixScan 16 u) ∧
    sansEvents s u = { s with last := { s.last with hot := false } })

/-! Starts, images and fuses (16). -/

/-- R73, R384, R388, R407, R409, R416, R423, R427, R430, R435, R459: SLEEP, a fall of RESET_N and EXTEST put every domain but AON into
reset, the session closed and the coarse counter carrying the Last; a wake source raises the rails, and the start that follows runs;
RESET_N runs a start, which stays at L0 when the fuses or the floor fail and reaches L1 on a good image; a self-test marks its unit, fenced
when it failed; PCIE_PERST_N holds the PCIE domain; SPITn_CS_N discards an incomplete word. -/
def Obligations.StartsAndResets : Prop :=
  (∀ s : State, s.pwr.entering = .sleep → s.evrec.queue = [] → s.evrec.dump = none → sinksFaded s = true → noCopy s = true →
    ∃ u, exec .sleepEntry s = .next (msixScan 16 u) ∧ u.pwr.mode = .sleep ∧ u.pwr.pwrSleep = true ∧ u.sys.rst = 0x1FFFFFFE ∧
      u.last = { s.last with coarse := true } ∧ u.store.cells = s.store.cells ∧ u.store.owner = s.store.owner) ∧
  (∀ (source : WakeSource) (s : State), s.pwr.mode = .sleep → s.pwr.pwrSleep = true →
    (source = .wakeAt → ∃ t, s.pwr.wakeAt = some t ∧ t ≤ s.now) → (source = .mainSense → s.pwr.tripped = true) →
    ∃ u, exec (.wake source) s = .next (msixScan 16 u) ∧ u.pwr.pwrSleep = false ∧ u.pwr.wakeAt = none ∧ u.pwr.mode = .sleep ∧
      u.pwr.mainOk = (s.pwr.mainOk || decide (source = .mainSense)) ∧ u = { s with pwr := u.pwr }) ∧
  (∀ (env : StartEnv) (s : State), s.pwr.mode = .sleep → s.pwr.pwrSleep = false → s.sys.resetN = true → s.dbg.extest = false →
    clocksFor s = true →
    ∃ u, exec (.wakeRelease env) s = .next (msixScan 16 u) ∧ u.sys.kind = .wake ∧ u.sys.shadow = s.sys.shadow ∧
      u.pwr.mode = (if s.pwr.mainOk then .run else .holdover)) ∧
  (∀ s : State, s.pwr.mode ≠ .off → s.sys.resetN = true →
    ∃ u, exec .resetNAssert s = .next (msixScan 16 u) ∧ u.sys.resetN = false ∧ u.sys.rst = 0x1FFFFFFE ∧ faultN u = false ∧
      u.dbg.session = none ∧ u.last = { s.last with coarse := true } ∧ u.pwr = s.pwr) ∧
  (∀ s : State, s.pwr.mode ≠ .off → s.dbg.extest = false →
    ∃ u, exec .extest s = .next (msixScan 16 u) ∧ u.dbg.extest = true ∧ u.sys.rst = 0x1FFFFFFE ∧ faultN u = false ∧
      u.dbg.session = none ∧ u.last = { s.last with coarse := true } ∧ u.pwr = s.pwr ∧
      u.sys.nvmBalls = { csN := .boundary, ck := .boundary, dq := .boundary }) ∧
  (∀ (ir : BitVec 5) (env : StartEnv) (s : State), s.dbg.extest = true →
    (ir ≠ 0 → ∃ u, exec (.extestExit { ir, env }) s = .next (msixScan 16 u) ∧ u.dbg.extest = false ∧ u.dbg.tapIr = ir ∧
      (s.sys.resetN = true → clocksFor s = true → s.pwr.mode = .run → u.sys.kind = .warm ∧ u.dbg.extestStart = true)) ∧
    (ir = 0 → exec (.extestExit { ir, env }) s = .next s)) ∧
  (∀ (env : StartEnv) (s : State), s.pwr.mode = .run → s.sys.resetN = false → s.dbg.extest = false → clocksFor s = true →
    ∃ u, exec (.resetNRelease env) s = .next (msixScan 16 u) ∧ u.sys.resetN = true ∧
      u.sys.kind = (if s.sys.begun then .warm else .cold) ∧ u.sys.shadow = s.sys.fuses ∧ u.sys.fuses = s.sys.fuses ∧
      (env.fuseCrcOk = false ∨ env.floorOk = false → u.sys.running = false ∧ levelOf u = 0) ∧
      (∀ x : FwSlot, env.fuseCrcOk = true → env.floorOk = true → env.straps.toNat < 4 → env.progA = none → env.progB = none →
        s.sys.imageA = some x → s.sys.imageB = none → bootFault { s with sys := { s.sys with shadow := s.sys.fuses } } x = 0 →
        u.sys.running = true ∧ u.sys.fwVersion = x.version ∧ u.sys.slotB = false ∧ u.wdog.running = true ∧ u.wdog.c = 0 ∧
        u.wdog.period = 4096 ∧ u.wdog.locked = false ∧ u.sys.nvmBalls = { csN := .high, ck := .low, dq := .low })) ∧
  (∀ (unit : Fin 21) (pass : Bool) (cause : Byte) (s : State), s.sys.running = true → s.sys.tested.getLsbD unit = false →
    ∃ u, exec (.selfTestDone unit pass cause) s = .next (msixScan 16 u) ∧ u.sys.tested = setBit s.sys.tested unit true ∧
      u.sys.fenced = (if pass then s.sys.fenced else setBit s.sys.fenced unit true) ∧ u.last = s.last ∧ u.owners = s.owners ∧
      u.store = s.store ∧ u.tenants = s.tenants) ∧
  (∀ s : State, (s.store.bursts = [] → s.store.waiting = [] → s.store.lock = none →
      exec (.pciePerst true) s = .next (msixScan 16 { s with sys := { s.sys with perstN := false, rst := setBit s.sys.rst 24 true } })) ∧
    (s.sys.running = true → s.pwr.mode ≠ .holdover → s.sys.clkOk.getLsbD 24 = true → isFenced s 18 = false →
      ∃ u, exec (.pciePerst false) s = .next (msixScan 16 u) ∧ u.sys.perstN = true ∧ u.sys.rst = setBit s.sys.rst 24 false) ∧
    (s.sys.running = false → exec (.pciePerst false) s = .next (msixScan 16 { s with sys := { s.sys with perstN := true } }))) ∧
  (∀ (port : Fin 2) (s : State), exec (.spitCsNRise port) s =
    .next { s with sys := { s.sys with spiWord := s.sys.spiWord.filter fun x => x.1 ≠ port.val } })

/-- R110, R111, R416: FUSE_PROGRAM leaves in its field what the array reads back, marked as programmed when the field is write-once, and
answers S_INTERNAL when that is not what was asked for; the AON shadow keeps its values. R114, R420: FW_COMMIT of a good image writes it
into the slot that did not boot, with the next SEQ, or answers why not. Frame: no other fuse, and not the slot that booted. -/
def Obligations.FusesAndImages : Prop :=
  (∀ (t : Fin 16) (ok : Bool) (rb : BitVec 256) (r : Req) (field : Half) (value : BitVec 256) (w : Nat) (once ctr hidden : Bool)
    (s : State), endsWell t (.fuseProgram r field value) s = true → fuseKind field.toNat = some (w, once, ctr, hidden) →
    (s.sys.fuses.any fun x => x.field = field.toNat) = true →
    let read := BitVec.ofNat 256 (rb.toNat % 2 ^ w)
    ∃ u, EndsAs t ok rb (.fuseProgram r field value) s
        (if read = fuseRequest ctr (fuseOf s field.toNat) value then .ok else .internal) [] u ∧
      (fuseOf u field.toNat).value = read ∧ (fuseOf u field.toNat).programmed = ((fuseOf s field.toNat).programmed || once) ∧
      (∀ f, f ≠ field.toNat → fuseOf u f = fuseOf s f) ∧
      sansEvents s u = { s with sys := { s.sys with fuses := u.sys.fuses } }) ∧
  (∀ (t : Fin 16) (ok : Bool) (rb : BitVec 256) (r : Req) (size : Word) (s : State), endsWell t (.fwCommit r size) s = true →
    s.sys.hostBoot = false →
    (∀ st, commitFault s size.toNat = st → st ≠ .ok → EndsAs t ok rb (.fwCommit r size) s st [] s) ∧
    (commitFault s size.toNat = .ok →
      let img := stagedImage s size.toNat
      ∃ u, EndsAs t ok rb (.fwCommit r size) s (if ok then .ok else .internal) (if ok then (img.drop 4).take 4 else []) u ∧
        (let new := if ok then some (imageSlot img (nextSeq s.sys.bootSeq)) else none
         sansEvents s u = { s with sys := { s.sys with
           imageA := if s.sys.slotB then new else s.sys.imageA, imageB := if s.sys.slotB then s.sys.imageB else new } })))

/-! Debug access (17). -/

/-- R436 to R440: DBG_OPEN opens a session of source 3; DBG_CLOSE and the end of its duration close it: every core resumes and
DBG_WDFREEZE is 1; a challenge draws a nonce, which a response uses up: an accepted one opens a session of source 2, and others count; a
debug read reaches the Store under the session's scope alone. -/
def Obligations.DebugSessions : Prop :=
  (∀ (r : Req) (scope : Byte) (duration : Half) (s : State), runsAtOnce (.dbgOpen r scope duration) s = true →
    Answers (.dbgOpen r scope duration) s .ok [] (record 0x0E01 0x10 [(1, 3), (1, scope.toNat), (4, duration.toNat)]
      { s with dbg := { s.dbg with session := some { source := 3, scope := scope.toNat, left := some duration.toNat
                                                     since := s.sys.aonTicks } } })) ∧
  (∀ (r : Req) (s : State), runsAtOnce (.dbgClose r) s = true →
    (s.dbg.session = none → Answers (.dbgClose r) s .ok [] s) ∧
    (s.dbg.session ≠ none → ∃ u, Answers (.dbgClose r) s .ok [] u ∧ u.dbg.session = none ∧ u.dbg.halted = 0 ∧ u.dbg.haltReq = 0 ∧
      u.dbg.wdFreeze = true ∧ u.lens = s.lens ∧ u.last = s.last ∧ u.tenants = s.tenants)) ∧
  (∀ (x : Session) (n : Nat) (s : State), s.dbg.session = some x → x.left = some n → ctlHalted s = false →
    ∃ u, exec .debugSessionExpiry s = .next (msixScan 16 u) ∧ u.dbg.session = none ∧ u.dbg.halted = 0 ∧ u.dbg.haltReq = 0 ∧
      u.dbg.wdFreeze = true ∧ u.lens = s.lens ∧ u.last = s.last ∧ u.tenants = s.tenants) ∧
  (∀ s : State, s.sys.running = true → s.dbg.extest = false →
    let u := tapLoad 9 s
    (isFenced s fenceEntropy = true → exec .dbgChal s = .next (msixScan 16 { u with dbg := { u.dbg with nonce := none, chal := 0 } })) ∧
    (isFenced s fenceEntropy = false → exec .dbgChal s = .next (msixScan 16 { u with
      store := { s.store with draws := s.store.draws + 1 }
      dbg := { u.dbg with nonce := some s.sys.aonTicks, chal := Config.entropy (s.store.draws + 1) } }))) ∧
  (∀ (scope res : Byte) (d : Half) (x y a b : BitVec 256) (s : State), s.sys.running = true → s.dbg.extest = false →
    ∃ u, exec (.dbgResp scope res d x y a b) s = .next (msixScan 16 u) ∧ u.dbg.nonce = none ∧
      sansEvents s u = { tapLoad 10 s with dbg := u.dbg } ∧
      (responseOk s scope d x.toNat y.toNat a.toNat b.toNat = true → u.dbg.respAccepted = true ∧
        u.dbg.session = some { source := 2, scope := scope.toNat, left := some d.toNat, since := s.sys.aonTicks }) ∧
      (responseOk s scope d x.toNat y.toNat a.toNat b.toNat = false → u.dbg.respAccepted = false ∧ u.dbg.session = s.dbg.session ∧
        u.dbg.refusals = s.dbg.refusals + 1)) ∧
  (∀ (addr w : Word) (consume : Bool) (x : Session) (s : State), s.dbg.session = some x → apBusy s = false → domainUp s 2 = true →
    addr.toNat < 2 ^ 24 → addr.toNat % 4 = 0 → storeHeld s 1 = false → s.dbg.extest = false → noCopy s = true →
    let v := tapLoad 8 s
    (tagOk s x.scope addr.toNat = true → exec (.dbgAp addr w false consume true) s = .next (msixScan 16 { v with dbg := { v.dbg with
      apDone := true, apError := false, apRdata := BitVec.ofNat 32 (unle (storeBytes s addr.toNat 4)) } })) ∧
    (tagOk s x.scope addr.toNat = false → ∃ u, exec (.dbgAp addr w false consume true) s = .next (msixScan 16 u) ∧
      sansEvents s u = { v with dbg := { v.dbg with apDone := true, apError := true, apRdata := 0 } }))

/-- R443, R444, R446: under the engine's scope a write of DBG_HALT asks the cores named to halt, which a core does at its next interruption
point, with event 0x0E04; DBG_RESUME ends that; DBG_STEP runs one instruction of a halted core, which halts again; DBG_LCn_DATA writes the
register selected of a halted core, and no other core. Without a session the writes do nothing. -/
def Obligations.DebugHalts : Prop :=
  (∀ (cores : BitVec 9) (x : Session) (s : State), s.dbg.session = some x → x.scope = 16 →
    ∃ u, exec (.dbgHalt cores) s = .next (msixScan 16 u) ∧ u = { s with dbg := { s.dbg with haltReq := u.dbg.haltReq } } ∧
      (∀ k, k < 9 → u.dbg.haltReq.getLsbD k = (s.dbg.haltReq.getLsbD k || (cores.getLsbD k && !s.dbg.halted.getLsbD k)))) ∧
  (∀ (core : Fin 9) (s : State), s.dbg.haltReq.getLsbD core = true → s.dbg.halted.getLsbD core = false →
    (core.val = 0 ∨ (s.core (core - 1)).run = none ∨ abortPoint (s.core (core - 1)) = true →
      ∃ u, exec (.coreHalted core) s = .next (msixScan 16 u) ∧ u.dbg.halted.getLsbD core = true ∧ u.dbg.haltReq.getLsbD core = false ∧
        (∀ k, k < 9 → k ≠ core → u.dbg.halted.getLsbD k = s.dbg.halted.getLsbD k) ∧ u.lens = s.lens ∧ u.last = s.last) ∧
    (core.val ≠ 0 → (s.core (core - 1)).run ≠ none → abortPoint (s.core (core - 1)) = false → exec (.coreHalted core) s = .next s)) ∧
  (∀ (cores : BitVec 9) (x : Session) (s : State), s.dbg.session = some x → x.scope = 16 → ctlHalted s = false →
    ∃ u, exec (.dbgResume cores) s = .next (msixScan 16 u) ∧
      (∀ k, k < 9 → u.dbg.halted.getLsbD k = (s.dbg.halted.getLsbD k && !cores.getLsbD k)) ∧ u.lens = s.lens ∧ u.last = s.last) ∧
  (∀ (n : Fin 8) (x : Session) (s : State), s.dbg.session = some x → x.scope = 16 → s.dbg.halted.getLsbD (1 + n) = true →
    lensLive s n = true →
    ∃ u, exec (.dbgStep (BitVec.ofNat 9 (2 ^ (1 + n.val)))) s = .next (msixScan 16 u) ∧ u.dbg.halted.getLsbD (1 + n) = true ∧
      u.lens = (lensSteps 4098 n { s with dbg := { s.dbg with halted := setBit s.dbg.halted (1 + n) false } }).lens) ∧
  (∀ (n : Fin 8) (v : Word) (s : State), shaped s = true → scopeCovers s (1 + n) = true → s.dbg.halted.getLsbD (1 + n) = true →
    ∃ u, exec (.dbgLcnDataWrite n v) s = .next (msixScan 16 u) ∧ u.core n = selWrite (nth s.dbg.sel n).toNat v (s.core n) ∧
      (∀ k, k ≠ n → u.core k = s.core k) ∧ u = { s with lens := u.lens } ∧
      ((nth s.dbg.sel n).toNat < 16 → selRead (u.core n) (nth s.dbg.sel n).toNat = v)) ∧
  (∀ (cores : BitVec 9) (n : Fin 8) (v : Word) (s : State), s.dbg.session = none →
    exec (.dbgHalt cores) s = .next (msixScan 16 s) ∧ exec (.dbgResume cores) s = .next (msixScan 16 s) ∧
    exec (.dbgStep cores) s = .next (msixScan 16 s) ∧ exec (.dbgLcnDataWrite n v) s = .next (msixScan 16 s))
end

