-- ==== Sys2Proof/Laws/State.lean ====
section
/-! SUPPORT. What each update of a part of the state leaves: one lemma for each field. -/

namespace Sys2Proof.Machine

/-! modSys. -/

@[simp] theorem modSys_pending (f : Sys → Sys) (s : State) : (modSys f s).pending = s.pending := rfl
@[simp] theorem modSys_free (f : Sys → Sys) (s : State) : (modSys f s).free = s.free := rfl
@[simp] theorem modSys_out (f : Sys → Sys) (s : State) : (modSys f s).out = s.out := rfl
@[simp] theorem modSys_sys (f : Sys → Sys) (s : State) : (modSys f s).sys = f s.sys := rfl
@[simp] theorem modSys_last (f : Sys → Sys) (s : State) : (modSys f s).last = s.last := rfl
@[simp] theorem modSys_tenants (f : Sys → Sys) (s : State) : (modSys f s).tenants = s.tenants := rfl
@[simp] theorem modSys_owners (f : Sys → Sys) (s : State) : (modSys f s).owners = s.owners := rfl
@[simp] theorem modSys_store (f : Sys → Sys) (s : State) : (modSys f s).store = s.store := rfl
@[simp] theorem modSys_eth (f : Sys → Sys) (s : State) : (modSys f s).eth = s.eth := rfl
@[simp] theorem modSys_trig (f : Sys → Sys) (s : State) : (modSys f s).trig = s.trig := rfl
@[simp] theorem modSys_plink (f : Sys → Sys) (s : State) : (modSys f s).plink = s.plink := rfl
@[simp] theorem modSys_audio (f : Sys → Sys) (s : State) : (modSys f s).audio = s.audio := rfl
@[simp] theorem modSys_prism (f : Sys → Sys) (s : State) : (modSys f s).prism = s.prism := rfl
@[simp] theorem modSys_lens (f : Sys → Sys) (s : State) : (modSys f s).lens = s.lens := rfl
@[simp] theorem modSys_evrec (f : Sys → Sys) (s : State) : (modSys f s).evrec = s.evrec := rfl
@[simp] theorem modSys_wdog (f : Sys → Sys) (s : State) : (modSys f s).wdog = s.wdog := rfl
@[simp] theorem modSys_pwr (f : Sys → Sys) (s : State) : (modSys f s).pwr = s.pwr := rfl
@[simp] theorem modSys_dbg (f : Sys → Sys) (s : State) : (modSys f s).dbg = s.dbg := rfl

/-! modLast. -/

@[simp] theorem modLast_pending (f : Last → Last) (s : State) : (modLast f s).pending = s.pending := rfl
@[simp] theorem modLast_free (f : Last → Last) (s : State) : (modLast f s).free = s.free := rfl
@[simp] theorem modLast_out (f : Last → Last) (s : State) : (modLast f s).out = s.out := rfl
@[simp] theorem modLast_sys (f : Last → Last) (s : State) : (modLast f s).sys = s.sys := rfl
@[simp] theorem modLast_last (f : Last → Last) (s : State) : (modLast f s).last = f s.last := rfl
@[simp] theorem modLast_tenants (f : Last → Last) (s : State) : (modLast f s).tenants = s.tenants := rfl
@[simp] theorem modLast_owners (f : Last → Last) (s : State) : (modLast f s).owners = s.owners := rfl
@[simp] theorem modLast_store (f : Last → Last) (s : State) : (modLast f s).store = s.store := rfl
@[simp] theorem modLast_eth (f : Last → Last) (s : State) : (modLast f s).eth = s.eth := rfl
@[simp] theorem modLast_trig (f : Last → Last) (s : State) : (modLast f s).trig = s.trig := rfl
@[simp] theorem modLast_plink (f : Last → Last) (s : State) : (modLast f s).plink = s.plink := rfl
@[simp] theorem modLast_audio (f : Last → Last) (s : State) : (modLast f s).audio = s.audio := rfl
@[simp] theorem modLast_prism (f : Last → Last) (s : State) : (modLast f s).prism = s.prism := rfl
@[simp] theorem modLast_lens (f : Last → Last) (s : State) : (modLast f s).lens = s.lens := rfl
@[simp] theorem modLast_evrec (f : Last → Last) (s : State) : (modLast f s).evrec = s.evrec := rfl
@[simp] theorem modLast_wdog (f : Last → Last) (s : State) : (modLast f s).wdog = s.wdog := rfl
@[simp] theorem modLast_pwr (f : Last → Last) (s : State) : (modLast f s).pwr = s.pwr := rfl
@[simp] theorem modLast_dbg (f : Last → Last) (s : State) : (modLast f s).dbg = s.dbg := rfl

/-! modEvrec. -/

@[simp] theorem modEvrec_pending (f : Evrec → Evrec) (s : State) : (modEvrec f s).pending = s.pending := rfl
@[simp] theorem modEvrec_free (f : Evrec → Evrec) (s : State) : (modEvrec f s).free = s.free := rfl
@[simp] theorem modEvrec_out (f : Evrec → Evrec) (s : State) : (modEvrec f s).out = s.out := rfl
@[simp] theorem modEvrec_sys (f : Evrec → Evrec) (s : State) : (modEvrec f s).sys = s.sys := rfl
@[simp] theorem modEvrec_last (f : Evrec → Evrec) (s : State) : (modEvrec f s).last = s.last := rfl
@[simp] theorem modEvrec_tenants (f : Evrec → Evrec) (s : State) : (modEvrec f s).tenants = s.tenants := rfl
@[simp] theorem modEvrec_owners (f : Evrec → Evrec) (s : State) : (modEvrec f s).owners = s.owners := rfl
@[simp] theorem modEvrec_store (f : Evrec → Evrec) (s : State) : (modEvrec f s).store = s.store := rfl
@[simp] theorem modEvrec_eth (f : Evrec → Evrec) (s : State) : (modEvrec f s).eth = s.eth := rfl
@[simp] theorem modEvrec_trig (f : Evrec → Evrec) (s : State) : (modEvrec f s).trig = s.trig := rfl
@[simp] theorem modEvrec_plink (f : Evrec → Evrec) (s : State) : (modEvrec f s).plink = s.plink := rfl
@[simp] theorem modEvrec_audio (f : Evrec → Evrec) (s : State) : (modEvrec f s).audio = s.audio := rfl
@[simp] theorem modEvrec_prism (f : Evrec → Evrec) (s : State) : (modEvrec f s).prism = s.prism := rfl
@[simp] theorem modEvrec_lens (f : Evrec → Evrec) (s : State) : (modEvrec f s).lens = s.lens := rfl
@[simp] theorem modEvrec_evrec (f : Evrec → Evrec) (s : State) : (modEvrec f s).evrec = f s.evrec := rfl
@[simp] theorem modEvrec_wdog (f : Evrec → Evrec) (s : State) : (modEvrec f s).wdog = s.wdog := rfl
@[simp] theorem modEvrec_pwr (f : Evrec → Evrec) (s : State) : (modEvrec f s).pwr = s.pwr := rfl
@[simp] theorem modEvrec_dbg (f : Evrec → Evrec) (s : State) : (modEvrec f s).dbg = s.dbg := rfl

/-! modPwr. -/

@[simp] theorem modPwr_pending (f : Pwr → Pwr) (s : State) : (modPwr f s).pending = s.pending := rfl
@[simp] theorem modPwr_free (f : Pwr → Pwr) (s : State) : (modPwr f s).free = s.free := rfl
@[simp] theorem modPwr_out (f : Pwr → Pwr) (s : State) : (modPwr f s).out = s.out := rfl
@[simp] theorem modPwr_sys (f : Pwr → Pwr) (s : State) : (modPwr f s).sys = s.sys := rfl
@[simp] theorem modPwr_last (f : Pwr → Pwr) (s : State) : (modPwr f s).last = s.last := rfl
@[simp] theorem modPwr_tenants (f : Pwr → Pwr) (s : State) : (modPwr f s).tenants = s.tenants := rfl
@[simp] theorem modPwr_owners (f : Pwr → Pwr) (s : State) : (modPwr f s).owners = s.owners := rfl
@[simp] theorem modPwr_store (f : Pwr → Pwr) (s : State) : (modPwr f s).store = s.store := rfl
@[simp] theorem modPwr_eth (f : Pwr → Pwr) (s : State) : (modPwr f s).eth = s.eth := rfl
@[simp] theorem modPwr_trig (f : Pwr → Pwr) (s : State) : (modPwr f s).trig = s.trig := rfl
@[simp] theorem modPwr_plink (f : Pwr → Pwr) (s : State) : (modPwr f s).plink = s.plink := rfl
@[simp] theorem modPwr_audio (f : Pwr → Pwr) (s : State) : (modPwr f s).audio = s.audio := rfl
@[simp] theorem modPwr_prism (f : Pwr → Pwr) (s : State) : (modPwr f s).prism = s.prism := rfl
@[simp] theorem modPwr_lens (f : Pwr → Pwr) (s : State) : (modPwr f s).lens = s.lens := rfl
@[simp] theorem modPwr_evrec (f : Pwr → Pwr) (s : State) : (modPwr f s).evrec = s.evrec := rfl
@[simp] theorem modPwr_wdog (f : Pwr → Pwr) (s : State) : (modPwr f s).wdog = s.wdog := rfl
@[simp] theorem modPwr_pwr (f : Pwr → Pwr) (s : State) : (modPwr f s).pwr = f s.pwr := rfl
@[simp] theorem modPwr_dbg (f : Pwr → Pwr) (s : State) : (modPwr f s).dbg = s.dbg := rfl

/-! modDbg. -/

@[simp] theorem modDbg_pending (f : Dbg → Dbg) (s : State) : (modDbg f s).pending = s.pending := rfl
@[simp] theorem modDbg_free (f : Dbg → Dbg) (s : State) : (modDbg f s).free = s.free := rfl
@[simp] theorem modDbg_out (f : Dbg → Dbg) (s : State) : (modDbg f s).out = s.out := rfl
@[simp] theorem modDbg_sys (f : Dbg → Dbg) (s : State) : (modDbg f s).sys = s.sys := rfl
@[simp] theorem modDbg_last (f : Dbg → Dbg) (s : State) : (modDbg f s).last = s.last := rfl
@[simp] theorem modDbg_tenants (f : Dbg → Dbg) (s : State) : (modDbg f s).tenants = s.tenants := rfl
@[simp] theorem modDbg_owners (f : Dbg → Dbg) (s : State) : (modDbg f s).owners = s.owners := rfl
@[simp] theorem modDbg_store (f : Dbg → Dbg) (s : State) : (modDbg f s).store = s.store := rfl
@[simp] theorem modDbg_eth (f : Dbg → Dbg) (s : State) : (modDbg f s).eth = s.eth := rfl
@[simp] theorem modDbg_trig (f : Dbg → Dbg) (s : State) : (modDbg f s).trig = s.trig := rfl
@[simp] theorem modDbg_plink (f : Dbg → Dbg) (s : State) : (modDbg f s).plink = s.plink := rfl
@[simp] theorem modDbg_audio (f : Dbg → Dbg) (s : State) : (modDbg f s).audio = s.audio := rfl
@[simp] theorem modDbg_prism (f : Dbg → Dbg) (s : State) : (modDbg f s).prism = s.prism := rfl
@[simp] theorem modDbg_lens (f : Dbg → Dbg) (s : State) : (modDbg f s).lens = s.lens := rfl
@[simp] theorem modDbg_evrec (f : Dbg → Dbg) (s : State) : (modDbg f s).evrec = s.evrec := rfl
@[simp] theorem modDbg_wdog (f : Dbg → Dbg) (s : State) : (modDbg f s).wdog = s.wdog := rfl
@[simp] theorem modDbg_pwr (f : Dbg → Dbg) (s : State) : (modDbg f s).pwr = s.pwr := rfl
@[simp] theorem modDbg_dbg (f : Dbg → Dbg) (s : State) : (modDbg f s).dbg = f s.dbg := rfl

/-! modWdog. -/

@[simp] theorem modWdog_pending (f : Wdog → Wdog) (s : State) : (modWdog f s).pending = s.pending := rfl
@[simp] theorem modWdog_free (f : Wdog → Wdog) (s : State) : (modWdog f s).free = s.free := rfl
@[simp] theorem modWdog_out (f : Wdog → Wdog) (s : State) : (modWdog f s).out = s.out := rfl
@[simp] theorem modWdog_sys (f : Wdog → Wdog) (s : State) : (modWdog f s).sys = s.sys := rfl
@[simp] theorem modWdog_last (f : Wdog → Wdog) (s : State) : (modWdog f s).last = s.last := rfl
@[simp] theorem modWdog_tenants (f : Wdog → Wdog) (s : State) : (modWdog f s).tenants = s.tenants := rfl
@[simp] theorem modWdog_owners (f : Wdog → Wdog) (s : State) : (modWdog f s).owners = s.owners := rfl
@[simp] theorem modWdog_store (f : Wdog → Wdog) (s : State) : (modWdog f s).store = s.store := rfl
@[simp] theorem modWdog_eth (f : Wdog → Wdog) (s : State) : (modWdog f s).eth = s.eth := rfl
@[simp] theorem modWdog_trig (f : Wdog → Wdog) (s : State) : (modWdog f s).trig = s.trig := rfl
@[simp] theorem modWdog_plink (f : Wdog → Wdog) (s : State) : (modWdog f s).plink = s.plink := rfl
@[simp] theorem modWdog_audio (f : Wdog → Wdog) (s : State) : (modWdog f s).audio = s.audio := rfl
@[simp] theorem modWdog_prism (f : Wdog → Wdog) (s : State) : (modWdog f s).prism = s.prism := rfl
@[simp] theorem modWdog_lens (f : Wdog → Wdog) (s : State) : (modWdog f s).lens = s.lens := rfl
@[simp] theorem modWdog_evrec (f : Wdog → Wdog) (s : State) : (modWdog f s).evrec = s.evrec := rfl
@[simp] theorem modWdog_wdog (f : Wdog → Wdog) (s : State) : (modWdog f s).wdog = f s.wdog := rfl
@[simp] theorem modWdog_pwr (f : Wdog → Wdog) (s : State) : (modWdog f s).pwr = s.pwr := rfl
@[simp] theorem modWdog_dbg (f : Wdog → Wdog) (s : State) : (modWdog f s).dbg = s.dbg := rfl

/-! modStore. -/

@[simp] theorem modStore_pending (f : Store → Store) (s : State) : (modStore f s).pending = s.pending := rfl
@[simp] theorem modStore_free (f : Store → Store) (s : State) : (modStore f s).free = s.free := rfl
@[simp] theorem modStore_out (f : Store → Store) (s : State) : (modStore f s).out = s.out := rfl
@[simp] theorem modStore_sys (f : Store → Store) (s : State) : (modStore f s).sys = s.sys := rfl
@[simp] theorem modStore_last (f : Store → Store) (s : State) : (modStore f s).last = s.last := rfl
@[simp] theorem modStore_tenants (f : Store → Store) (s : State) : (modStore f s).tenants = s.tenants := rfl
@[simp] theorem modStore_owners (f : Store → Store) (s : State) : (modStore f s).owners = s.owners := rfl
@[simp] theorem modStore_store (f : Store → Store) (s : State) : (modStore f s).store = f s.store := rfl
@[simp] theorem modStore_eth (f : Store → Store) (s : State) : (modStore f s).eth = s.eth := rfl
@[simp] theorem modStore_trig (f : Store → Store) (s : State) : (modStore f s).trig = s.trig := rfl
@[simp] theorem modStore_plink (f : Store → Store) (s : State) : (modStore f s).plink = s.plink := rfl
@[simp] theorem modStore_audio (f : Store → Store) (s : State) : (modStore f s).audio = s.audio := rfl
@[simp] theorem modStore_prism (f : Store → Store) (s : State) : (modStore f s).prism = s.prism := rfl
@[simp] theorem modStore_lens (f : Store → Store) (s : State) : (modStore f s).lens = s.lens := rfl
@[simp] theorem modStore_evrec (f : Store → Store) (s : State) : (modStore f s).evrec = s.evrec := rfl
@[simp] theorem modStore_wdog (f : Store → Store) (s : State) : (modStore f s).wdog = s.wdog := rfl
@[simp] theorem modStore_pwr (f : Store → Store) (s : State) : (modStore f s).pwr = s.pwr := rfl
@[simp] theorem modStore_dbg (f : Store → Store) (s : State) : (modStore f s).dbg = s.dbg := rfl

/-! modPrism. -/

@[simp] theorem modPrism_pending (f : Prism → Prism) (s : State) : (modPrism f s).pending = s.pending := rfl
@[simp] theorem modPrism_free (f : Prism → Prism) (s : State) : (modPrism f s).free = s.free := rfl
@[simp] theorem modPrism_out (f : Prism → Prism) (s : State) : (modPrism f s).out = s.out := rfl
@[simp] theorem modPrism_sys (f : Prism → Prism) (s : State) : (modPrism f s).sys = s.sys := rfl
@[simp] theorem modPrism_last (f : Prism → Prism) (s : State) : (modPrism f s).last = s.last := rfl
@[simp] theorem modPrism_tenants (f : Prism → Prism) (s : State) : (modPrism f s).tenants = s.tenants := rfl
@[simp] theorem modPrism_owners (f : Prism → Prism) (s : State) : (modPrism f s).owners = s.owners := rfl
@[simp] theorem modPrism_store (f : Prism → Prism) (s : State) : (modPrism f s).store = s.store := rfl
@[simp] theorem modPrism_eth (f : Prism → Prism) (s : State) : (modPrism f s).eth = s.eth := rfl
@[simp] theorem modPrism_trig (f : Prism → Prism) (s : State) : (modPrism f s).trig = s.trig := rfl
@[simp] theorem modPrism_plink (f : Prism → Prism) (s : State) : (modPrism f s).plink = s.plink := rfl
@[simp] theorem modPrism_audio (f : Prism → Prism) (s : State) : (modPrism f s).audio = s.audio := rfl
@[simp] theorem modPrism_prism (f : Prism → Prism) (s : State) : (modPrism f s).prism = f s.prism := rfl
@[simp] theorem modPrism_lens (f : Prism → Prism) (s : State) : (modPrism f s).lens = s.lens := rfl
@[simp] theorem modPrism_evrec (f : Prism → Prism) (s : State) : (modPrism f s).evrec = s.evrec := rfl
@[simp] theorem modPrism_wdog (f : Prism → Prism) (s : State) : (modPrism f s).wdog = s.wdog := rfl
@[simp] theorem modPrism_pwr (f : Prism → Prism) (s : State) : (modPrism f s).pwr = s.pwr := rfl
@[simp] theorem modPrism_dbg (f : Prism → Prism) (s : State) : (modPrism f s).dbg = s.dbg := rfl

/-! modTenant. -/

@[simp] theorem modTenant_pending (k : Nat) (f : Tenant → Tenant) (s : State) : (modTenant k f s).pending = s.pending := rfl
@[simp] theorem modTenant_free (k : Nat) (f : Tenant → Tenant) (s : State) : (modTenant k f s).free = s.free := rfl
@[simp] theorem modTenant_out (k : Nat) (f : Tenant → Tenant) (s : State) : (modTenant k f s).out = s.out := rfl
@[simp] theorem modTenant_sys (k : Nat) (f : Tenant → Tenant) (s : State) : (modTenant k f s).sys = s.sys := rfl
@[simp] theorem modTenant_last (k : Nat) (f : Tenant → Tenant) (s : State) : (modTenant k f s).last = s.last := rfl
@[simp] theorem modTenant_owners (k : Nat) (f : Tenant → Tenant) (s : State) : (modTenant k f s).owners = s.owners := rfl
@[simp] theorem modTenant_store (k : Nat) (f : Tenant → Tenant) (s : State) : (modTenant k f s).store = s.store := rfl
@[simp] theorem modTenant_eth (k : Nat) (f : Tenant → Tenant) (s : State) : (modTenant k f s).eth = s.eth := rfl
@[simp] theorem modTenant_trig (k : Nat) (f : Tenant → Tenant) (s : State) : (modTenant k f s).trig = s.trig := rfl
@[simp] theorem modTenant_plink (k : Nat) (f : Tenant → Tenant) (s : State) : (modTenant k f s).plink = s.plink := rfl
@[simp] theorem modTenant_audio (k : Nat) (f : Tenant → Tenant) (s : State) : (modTenant k f s).audio = s.audio := rfl
@[simp] theorem modTenant_prism (k : Nat) (f : Tenant → Tenant) (s : State) : (modTenant k f s).prism = s.prism := rfl
@[simp] theorem modTenant_lens (k : Nat) (f : Tenant → Tenant) (s : State) : (modTenant k f s).lens = s.lens := rfl
@[simp] theorem modTenant_evrec (k : Nat) (f : Tenant → Tenant) (s : State) : (modTenant k f s).evrec = s.evrec := rfl
@[simp] theorem modTenant_wdog (k : Nat) (f : Tenant → Tenant) (s : State) : (modTenant k f s).wdog = s.wdog := rfl
@[simp] theorem modTenant_pwr (k : Nat) (f : Tenant → Tenant) (s : State) : (modTenant k f s).pwr = s.pwr := rfl
@[simp] theorem modTenant_dbg (k : Nat) (f : Tenant → Tenant) (s : State) : (modTenant k f s).dbg = s.dbg := rfl
@[simp] theorem modTenant_tenants (k : Nat) (f : Tenant → Tenant) (s : State) : (modTenant k f s).tenants = updAt s.tenants k f := rfl

/-! modPin. -/

@[simp] theorem modPin_pending (k : Nat) (f : Pin → Pin) (s : State) : (modPin k f s).pending = s.pending := rfl
@[simp] theorem modPin_free (k : Nat) (f : Pin → Pin) (s : State) : (modPin k f s).free = s.free := rfl
@[simp] theorem modPin_out (k : Nat) (f : Pin → Pin) (s : State) : (modPin k f s).out = s.out := rfl
@[simp] theorem modPin_sys (k : Nat) (f : Pin → Pin) (s : State) : (modPin k f s).sys = s.sys := rfl
@[simp] theorem modPin_last (k : Nat) (f : Pin → Pin) (s : State) : (modPin k f s).last = s.last := rfl
@[simp] theorem modPin_tenants (k : Nat) (f : Pin → Pin) (s : State) : (modPin k f s).tenants = s.tenants := rfl
@[simp] theorem modPin_owners (k : Nat) (f : Pin → Pin) (s : State) : (modPin k f s).owners = s.owners := rfl
@[simp] theorem modPin_store (k : Nat) (f : Pin → Pin) (s : State) : (modPin k f s).store = s.store := rfl
@[simp] theorem modPin_eth (k : Nat) (f : Pin → Pin) (s : State) : (modPin k f s).eth = s.eth := rfl
@[simp] theorem modPin_plink (k : Nat) (f : Pin → Pin) (s : State) : (modPin k f s).plink = s.plink := rfl
@[simp] theorem modPin_audio (k : Nat) (f : Pin → Pin) (s : State) : (modPin k f s).audio = s.audio := rfl
@[simp] theorem modPin_prism (k : Nat) (f : Pin → Pin) (s : State) : (modPin k f s).prism = s.prism := rfl
@[simp] theorem modPin_lens (k : Nat) (f : Pin → Pin) (s : State) : (modPin k f s).lens = s.lens := rfl
@[simp] theorem modPin_evrec (k : Nat) (f : Pin → Pin) (s : State) : (modPin k f s).evrec = s.evrec := rfl
@[simp] theorem modPin_wdog (k : Nat) (f : Pin → Pin) (s : State) : (modPin k f s).wdog = s.wdog := rfl
@[simp] theorem modPin_pwr (k : Nat) (f : Pin → Pin) (s : State) : (modPin k f s).pwr = s.pwr := rfl
@[simp] theorem modPin_dbg (k : Nat) (f : Pin → Pin) (s : State) : (modPin k f s).dbg = s.dbg := rfl
@[simp] theorem modPin_trig_pins (k : Nat) (f : Pin → Pin) (s : State) : (modPin k f s).trig.pins = updAt s.trig.pins k f := rfl

/-! modPath. -/

@[simp] theorem modPath_pending (k : Nat) (f : Path → Path) (s : State) : (modPath k f s).pending = s.pending := rfl
@[simp] theorem modPath_free (k : Nat) (f : Path → Path) (s : State) : (modPath k f s).free = s.free := rfl
@[simp] theorem modPath_out (k : Nat) (f : Path → Path) (s : State) : (modPath k f s).out = s.out := rfl
@[simp] theorem modPath_sys (k : Nat) (f : Path → Path) (s : State) : (modPath k f s).sys = s.sys := rfl
@[simp] theorem modPath_last (k : Nat) (f : Path → Path) (s : State) : (modPath k f s).last = s.last := rfl
@[simp] theorem modPath_tenants (k : Nat) (f : Path → Path) (s : State) : (modPath k f s).tenants = s.tenants := rfl
@[simp] theorem modPath_owners (k : Nat) (f : Path → Path) (s : State) : (modPath k f s).owners = s.owners := rfl
@[simp] theorem modPath_store (k : Nat) (f : Path → Path) (s : State) : (modPath k f s).store = s.store := rfl
@[simp] theorem modPath_eth (k : Nat) (f : Path → Path) (s : State) : (modPath k f s).eth = s.eth := rfl
@[simp] theorem modPath_plink (k : Nat) (f : Path → Path) (s : State) : (modPath k f s).plink = s.plink := rfl
@[simp] theorem modPath_audio (k : Nat) (f : Path → Path) (s : State) : (modPath k f s).audio = s.audio := rfl
@[simp] theorem modPath_prism (k : Nat) (f : Path → Path) (s : State) : (modPath k f s).prism = s.prism := rfl
@[simp] theorem modPath_lens (k : Nat) (f : Path → Path) (s : State) : (modPath k f s).lens = s.lens := rfl
@[simp] theorem modPath_evrec (k : Nat) (f : Path → Path) (s : State) : (modPath k f s).evrec = s.evrec := rfl
@[simp] theorem modPath_wdog (k : Nat) (f : Path → Path) (s : State) : (modPath k f s).wdog = s.wdog := rfl
@[simp] theorem modPath_pwr (k : Nat) (f : Path → Path) (s : State) : (modPath k f s).pwr = s.pwr := rfl
@[simp] theorem modPath_dbg (k : Nat) (f : Path → Path) (s : State) : (modPath k f s).dbg = s.dbg := rfl
@[simp] theorem modPath_trig_paths (k : Nat) (f : Path → Path) (s : State) : (modPath k f s).trig.paths = updAt s.trig.paths k f := rfl

/-! modFsg. -/

@[simp] theorem modFsg_pending (k : Nat) (f : Fsg → Fsg) (s : State) : (modFsg k f s).pending = s.pending := rfl
@[simp] theorem modFsg_free (k : Nat) (f : Fsg → Fsg) (s : State) : (modFsg k f s).free = s.free := rfl
@[simp] theorem modFsg_out (k : Nat) (f : Fsg → Fsg) (s : State) : (modFsg k f s).out = s.out := rfl
@[simp] theorem modFsg_sys (k : Nat) (f : Fsg → Fsg) (s : State) : (modFsg k f s).sys = s.sys := rfl
@[simp] theorem modFsg_last (k : Nat) (f : Fsg → Fsg) (s : State) : (modFsg k f s).last = s.last := rfl
@[simp] theorem modFsg_tenants (k : Nat) (f : Fsg → Fsg) (s : State) : (modFsg k f s).tenants = s.tenants := rfl
@[simp] theorem modFsg_owners (k : Nat) (f : Fsg → Fsg) (s : State) : (modFsg k f s).owners = s.owners := rfl
@[simp] theorem modFsg_store (k : Nat) (f : Fsg → Fsg) (s : State) : (modFsg k f s).store = s.store := rfl
@[simp] theorem modFsg_eth (k : Nat) (f : Fsg → Fsg) (s : State) : (modFsg k f s).eth = s.eth := rfl
@[simp] theorem modFsg_plink (k : Nat) (f : Fsg → Fsg) (s : State) : (modFsg k f s).plink = s.plink := rfl
@[simp] theorem modFsg_audio (k : Nat) (f : Fsg → Fsg) (s : State) : (modFsg k f s).audio = s.audio := rfl
@[simp] theorem modFsg_prism (k : Nat) (f : Fsg → Fsg) (s : State) : (modFsg k f s).prism = s.prism := rfl
@[simp] theorem modFsg_lens (k : Nat) (f : Fsg → Fsg) (s : State) : (modFsg k f s).lens = s.lens := rfl
@[simp] theorem modFsg_evrec (k : Nat) (f : Fsg → Fsg) (s : State) : (modFsg k f s).evrec = s.evrec := rfl
@[simp] theorem modFsg_wdog (k : Nat) (f : Fsg → Fsg) (s : State) : (modFsg k f s).wdog = s.wdog := rfl
@[simp] theorem modFsg_pwr (k : Nat) (f : Fsg → Fsg) (s : State) : (modFsg k f s).pwr = s.pwr := rfl
@[simp] theorem modFsg_dbg (k : Nat) (f : Fsg → Fsg) (s : State) : (modFsg k f s).dbg = s.dbg := rfl
@[simp] theorem modFsg_trig_fsgs (k : Nat) (f : Fsg → Fsg) (s : State) : (modFsg k f s).trig.fsgs = updAt s.trig.fsgs k f := rfl

/-! modEthPort. -/

@[simp] theorem modEthPort_pending (k : Nat) (f : EthPort → EthPort) (s : State) : (modEthPort k f s).pending = s.pending := rfl
@[simp] theorem modEthPort_free (k : Nat) (f : EthPort → EthPort) (s : State) : (modEthPort k f s).free = s.free := rfl
@[simp] theorem modEthPort_out (k : Nat) (f : EthPort → EthPort) (s : State) : (modEthPort k f s).out = s.out := rfl
@[simp] theorem modEthPort_sys (k : Nat) (f : EthPort → EthPort) (s : State) : (modEthPort k f s).sys = s.sys := rfl
@[simp] theorem modEthPort_last (k : Nat) (f : EthPort → EthPort) (s : State) : (modEthPort k f s).last = s.last := rfl
@[simp] theorem modEthPort_tenants (k : Nat) (f : EthPort → EthPort) (s : State) : (modEthPort k f s).tenants = s.tenants := rfl
@[simp] theorem modEthPort_owners (k : Nat) (f : EthPort → EthPort) (s : State) : (modEthPort k f s).owners = s.owners := rfl
@[simp] theorem modEthPort_store (k : Nat) (f : EthPort → EthPort) (s : State) : (modEthPort k f s).store = s.store := rfl
@[simp] theorem modEthPort_trig (k : Nat) (f : EthPort → EthPort) (s : State) : (modEthPort k f s).trig = s.trig := rfl
@[simp] theorem modEthPort_plink (k : Nat) (f : EthPort → EthPort) (s : State) : (modEthPort k f s).plink = s.plink := rfl
@[simp] theorem modEthPort_audio (k : Nat) (f : EthPort → EthPort) (s : State) : (modEthPort k f s).audio = s.audio := rfl
@[simp] theorem modEthPort_prism (k : Nat) (f : EthPort → EthPort) (s : State) : (modEthPort k f s).prism = s.prism := rfl
@[simp] theorem modEthPort_lens (k : Nat) (f : EthPort → EthPort) (s : State) : (modEthPort k f s).lens = s.lens := rfl
@[simp] theorem modEthPort_evrec (k : Nat) (f : EthPort → EthPort) (s : State) : (modEthPort k f s).evrec = s.evrec := rfl
@[simp] theorem modEthPort_wdog (k : Nat) (f : EthPort → EthPort) (s : State) : (modEthPort k f s).wdog = s.wdog := rfl
@[simp] theorem modEthPort_pwr (k : Nat) (f : EthPort → EthPort) (s : State) : (modEthPort k f s).pwr = s.pwr := rfl
@[simp] theorem modEthPort_dbg (k : Nat) (f : EthPort → EthPort) (s : State) : (modEthPort k f s).dbg = s.dbg := rfl
@[simp] theorem modEthPort_eth_ports (k : Nat) (f : EthPort → EthPort) (s : State) : (modEthPort k f s).eth.ports = updAt s.eth.ports k f := rfl

/-! modPl. -/

@[simp] theorem modPl_pending (k : Nat) (f : PlPort → PlPort) (s : State) : (modPl k f s).pending = s.pending := rfl
@[simp] theorem modPl_free (k : Nat) (f : PlPort → PlPort) (s : State) : (modPl k f s).free = s.free := rfl
@[simp] theorem modPl_out (k : Nat) (f : PlPort → PlPort) (s : State) : (modPl k f s).out = s.out := rfl
@[simp] theorem modPl_sys (k : Nat) (f : PlPort → PlPort) (s : State) : (modPl k f s).sys = s.sys := rfl
@[simp] theorem modPl_last (k : Nat) (f : PlPort → PlPort) (s : State) : (modPl k f s).last = s.last := rfl
@[simp] theorem modPl_tenants (k : Nat) (f : PlPort → PlPort) (s : State) : (modPl k f s).tenants = s.tenants := rfl
@[simp] theorem modPl_owners (k : Nat) (f : PlPort → PlPort) (s : State) : (modPl k f s).owners = s.owners := rfl
@[simp] theorem modPl_store (k : Nat) (f : PlPort → PlPort) (s : State) : (modPl k f s).store = s.store := rfl
@[simp] theorem modPl_eth (k : Nat) (f : PlPort → PlPort) (s : State) : (modPl k f s).eth = s.eth := rfl
@[simp] theorem modPl_trig (k : Nat) (f : PlPort → PlPort) (s : State) : (modPl k f s).trig = s.trig := rfl
@[simp] theorem modPl_audio (k : Nat) (f : PlPort → PlPort) (s : State) : (modPl k f s).audio = s.audio := rfl
@[simp] theorem modPl_prism (k : Nat) (f : PlPort → PlPort) (s : State) : (modPl k f s).prism = s.prism := rfl
@[simp] theorem modPl_lens (k : Nat) (f : PlPort → PlPort) (s : State) : (modPl k f s).lens = s.lens := rfl
@[simp] theorem modPl_evrec (k : Nat) (f : PlPort → PlPort) (s : State) : (modPl k f s).evrec = s.evrec := rfl
@[simp] theorem modPl_wdog (k : Nat) (f : PlPort → PlPort) (s : State) : (modPl k f s).wdog = s.wdog := rfl
@[simp] theorem modPl_pwr (k : Nat) (f : PlPort → PlPort) (s : State) : (modPl k f s).pwr = s.pwr := rfl
@[simp] theorem modPl_dbg (k : Nat) (f : PlPort → PlPort) (s : State) : (modPl k f s).dbg = s.dbg := rfl
@[simp] theorem modPl_plink_ports (k : Nat) (f : PlPort → PlPort) (s : State) : (modPl k f s).plink.ports = updAt s.plink.ports k f := rfl

/-! modAport. -/

@[simp] theorem modAport_pending (k : Nat) (f : Aport → Aport) (s : State) : (modAport k f s).pending = s.pending := rfl
@[simp] theorem modAport_free (k : Nat) (f : Aport → Aport) (s : State) : (modAport k f s).free = s.free := rfl
@[simp] theorem modAport_out (k : Nat) (f : Aport → Aport) (s : State) : (modAport k f s).out = s.out := rfl
@[simp] theorem modAport_sys (k : Nat) (f : Aport → Aport) (s : State) : (modAport k f s).sys = s.sys := rfl
@[simp] theorem modAport_last (k : Nat) (f : Aport → Aport) (s : State) : (modAport k f s).last = s.last := rfl
@[simp] theorem modAport_tenants (k : Nat) (f : Aport → Aport) (s : State) : (modAport k f s).tenants = s.tenants := rfl
@[simp] theorem modAport_owners (k : Nat) (f : Aport → Aport) (s : State) : (modAport k f s).owners = s.owners := rfl
@[simp] theorem modAport_store (k : Nat) (f : Aport → Aport) (s : State) : (modAport k f s).store = s.store := rfl
@[simp] theorem modAport_eth (k : Nat) (f : Aport → Aport) (s : State) : (modAport k f s).eth = s.eth := rfl
@[simp] theorem modAport_trig (k : Nat) (f : Aport → Aport) (s : State) : (modAport k f s).trig = s.trig := rfl
@[simp] theorem modAport_plink (k : Nat) (f : Aport → Aport) (s : State) : (modAport k f s).plink = s.plink := rfl
@[simp] theorem modAport_prism (k : Nat) (f : Aport → Aport) (s : State) : (modAport k f s).prism = s.prism := rfl
@[simp] theorem modAport_lens (k : Nat) (f : Aport → Aport) (s : State) : (modAport k f s).lens = s.lens := rfl
@[simp] theorem modAport_evrec (k : Nat) (f : Aport → Aport) (s : State) : (modAport k f s).evrec = s.evrec := rfl
@[simp] theorem modAport_wdog (k : Nat) (f : Aport → Aport) (s : State) : (modAport k f s).wdog = s.wdog := rfl
@[simp] theorem modAport_pwr (k : Nat) (f : Aport → Aport) (s : State) : (modAport k f s).pwr = s.pwr := rfl
@[simp] theorem modAport_dbg (k : Nat) (f : Aport → Aport) (s : State) : (modAport k f s).dbg = s.dbg := rfl
@[simp] theorem modAport_audio_ports (k : Nat) (f : Aport → Aport) (s : State) : (modAport k f s).audio.ports = updAt s.audio.ports k f := rfl

/-! modMcg. -/

@[simp] theorem modMcg_pending (k : Nat) (f : Mcg → Mcg) (s : State) : (modMcg k f s).pending = s.pending := rfl
@[simp] theorem modMcg_free (k : Nat) (f : Mcg → Mcg) (s : State) : (modMcg k f s).free = s.free := rfl
@[simp] theorem modMcg_out (k : Nat) (f : Mcg → Mcg) (s : State) : (modMcg k f s).out = s.out := rfl
@[simp] theorem modMcg_sys (k : Nat) (f : Mcg → Mcg) (s : State) : (modMcg k f s).sys = s.sys := rfl
@[simp] theorem modMcg_last (k : Nat) (f : Mcg → Mcg) (s : State) : (modMcg k f s).last = s.last := rfl
@[simp] theorem modMcg_tenants (k : Nat) (f : Mcg → Mcg) (s : State) : (modMcg k f s).tenants = s.tenants := rfl
@[simp] theorem modMcg_owners (k : Nat) (f : Mcg → Mcg) (s : State) : (modMcg k f s).owners = s.owners := rfl
@[simp] theorem modMcg_store (k : Nat) (f : Mcg → Mcg) (s : State) : (modMcg k f s).store = s.store := rfl
@[simp] theorem modMcg_eth (k : Nat) (f : Mcg → Mcg) (s : State) : (modMcg k f s).eth = s.eth := rfl
@[simp] theorem modMcg_trig (k : Nat) (f : Mcg → Mcg) (s : State) : (modMcg k f s).trig = s.trig := rfl
@[simp] theorem modMcg_plink (k : Nat) (f : Mcg → Mcg) (s : State) : (modMcg k f s).plink = s.plink := rfl
@[simp] theorem modMcg_prism (k : Nat) (f : Mcg → Mcg) (s : State) : (modMcg k f s).prism = s.prism := rfl
@[simp] theorem modMcg_lens (k : Nat) (f : Mcg → Mcg) (s : State) : (modMcg k f s).lens = s.lens := rfl
@[simp] theorem modMcg_evrec (k : Nat) (f : Mcg → Mcg) (s : State) : (modMcg k f s).evrec = s.evrec := rfl
@[simp] theorem modMcg_wdog (k : Nat) (f : Mcg → Mcg) (s : State) : (modMcg k f s).wdog = s.wdog := rfl
@[simp] theorem modMcg_pwr (k : Nat) (f : Mcg → Mcg) (s : State) : (modMcg k f s).pwr = s.pwr := rfl
@[simp] theorem modMcg_dbg (k : Nat) (f : Mcg → Mcg) (s : State) : (modMcg k f s).dbg = s.dbg := rfl
@[simp] theorem modMcg_audio_mcgs (k : Nat) (f : Mcg → Mcg) (s : State) : (modMcg k f s).audio.mcgs = updAt s.audio.mcgs k f := rfl

/-! modBus. -/

@[simp] theorem modBus_pending (k : Nat) (f : Bus → Bus) (s : State) : (modBus k f s).pending = s.pending := rfl
@[simp] theorem modBus_free (k : Nat) (f : Bus → Bus) (s : State) : (modBus k f s).free = s.free := rfl
@[simp] theorem modBus_out (k : Nat) (f : Bus → Bus) (s : State) : (modBus k f s).out = s.out := rfl
@[simp] theorem modBus_sys (k : Nat) (f : Bus → Bus) (s : State) : (modBus k f s).sys = s.sys := rfl
@[simp] theorem modBus_last (k : Nat) (f : Bus → Bus) (s : State) : (modBus k f s).last = s.last := rfl
@[simp] theorem modBus_tenants (k : Nat) (f : Bus → Bus) (s : State) : (modBus k f s).tenants = s.tenants := rfl
@[simp] theorem modBus_owners (k : Nat) (f : Bus → Bus) (s : State) : (modBus k f s).owners = s.owners := rfl
@[simp] theorem modBus_store (k : Nat) (f : Bus → Bus) (s : State) : (modBus k f s).store = s.store := rfl
@[simp] theorem modBus_eth (k : Nat) (f : Bus → Bus) (s : State) : (modBus k f s).eth = s.eth := rfl
@[simp] theorem modBus_trig (k : Nat) (f : Bus → Bus) (s : State) : (modBus k f s).trig = s.trig := rfl
@[simp] theorem modBus_plink (k : Nat) (f : Bus → Bus) (s : State) : (modBus k f s).plink = s.plink := rfl
@[simp] theorem modBus_audio (k : Nat) (f : Bus → Bus) (s : State) : (modBus k f s).audio = s.audio := rfl
@[simp] theorem modBus_lens (k : Nat) (f : Bus → Bus) (s : State) : (modBus k f s).lens = s.lens := rfl
@[simp] theorem modBus_evrec (k : Nat) (f : Bus → Bus) (s : State) : (modBus k f s).evrec = s.evrec := rfl
@[simp] theorem modBus_wdog (k : Nat) (f : Bus → Bus) (s : State) : (modBus k f s).wdog = s.wdog := rfl
@[simp] theorem modBus_pwr (k : Nat) (f : Bus → Bus) (s : State) : (modBus k f s).pwr = s.pwr := rfl
@[simp] theorem modBus_dbg (k : Nat) (f : Bus → Bus) (s : State) : (modBus k f s).dbg = s.dbg := rfl
@[simp] theorem modBus_prism_buses (k : Nat) (f : Bus → Bus) (s : State) : (modBus k f s).prism.buses = updAt s.prism.buses k f := rfl

/-! modLens. -/

@[simp] theorem modLens_pending (k : Nat) (f : LensCore → LensCore) (s : State) : (modLens k f s).pending = s.pending := rfl
@[simp] theorem modLens_free (k : Nat) (f : LensCore → LensCore) (s : State) : (modLens k f s).free = s.free := rfl
@[simp] theorem modLens_out (k : Nat) (f : LensCore → LensCore) (s : State) : (modLens k f s).out = s.out := rfl
@[simp] theorem modLens_sys (k : Nat) (f : LensCore → LensCore) (s : State) : (modLens k f s).sys = s.sys := rfl
@[simp] theorem modLens_last (k : Nat) (f : LensCore → LensCore) (s : State) : (modLens k f s).last = s.last := rfl
@[simp] theorem modLens_tenants (k : Nat) (f : LensCore → LensCore) (s : State) : (modLens k f s).tenants = s.tenants := rfl
@[simp] theorem modLens_owners (k : Nat) (f : LensCore → LensCore) (s : State) : (modLens k f s).owners = s.owners := rfl
@[simp] theorem modLens_store (k : Nat) (f : LensCore → LensCore) (s : State) : (modLens k f s).store = s.store := rfl
@[simp] theorem modLens_eth (k : Nat) (f : LensCore → LensCore) (s : State) : (modLens k f s).eth = s.eth := rfl
@[simp] theorem modLens_trig (k : Nat) (f : LensCore → LensCore) (s : State) : (modLens k f s).trig = s.trig := rfl
@[simp] theorem modLens_plink (k : Nat) (f : LensCore → LensCore) (s : State) : (modLens k f s).plink = s.plink := rfl
@[simp] theorem modLens_audio (k : Nat) (f : LensCore → LensCore) (s : State) : (modLens k f s).audio = s.audio := rfl
@[simp] theorem modLens_prism (k : Nat) (f : LensCore → LensCore) (s : State) : (modLens k f s).prism = s.prism := rfl
@[simp] theorem modLens_evrec (k : Nat) (f : LensCore → LensCore) (s : State) : (modLens k f s).evrec = s.evrec := rfl
@[simp] theorem modLens_wdog (k : Nat) (f : LensCore → LensCore) (s : State) : (modLens k f s).wdog = s.wdog := rfl
@[simp] theorem modLens_pwr (k : Nat) (f : LensCore → LensCore) (s : State) : (modLens k f s).pwr = s.pwr := rfl
@[simp] theorem modLens_dbg (k : Nat) (f : LensCore → LensCore) (s : State) : (modLens k f s).dbg = s.dbg := rfl
@[simp] theorem modLens_lens (k : Nat) (f : LensCore → LensCore) (s : State) : (modLens k f s).lens = updAt s.lens k f := rfl

/-! emit. -/

@[simp] theorem emit_pending (o : Output) (s : State) : (emit o s).pending = s.pending := rfl
@[simp] theorem emit_free (o : Output) (s : State) : (emit o s).free = s.free := rfl
@[simp] theorem emit_out (o : Output) (s : State) : (emit o s).out = s.out ++ [o] := rfl
@[simp] theorem emit_sys (o : Output) (s : State) : (emit o s).sys = s.sys := rfl
@[simp] theorem emit_last (o : Output) (s : State) : (emit o s).last = s.last := rfl
@[simp] theorem emit_tenants (o : Output) (s : State) : (emit o s).tenants = s.tenants := rfl
@[simp] theorem emit_owners (o : Output) (s : State) : (emit o s).owners = s.owners := rfl
@[simp] theorem emit_store (o : Output) (s : State) : (emit o s).store = s.store := rfl
@[simp] theorem emit_eth (o : Output) (s : State) : (emit o s).eth = s.eth := rfl
@[simp] theorem emit_trig (o : Output) (s : State) : (emit o s).trig = s.trig := rfl
@[simp] theorem emit_plink (o : Output) (s : State) : (emit o s).plink = s.plink := rfl
@[simp] theorem emit_audio (o : Output) (s : State) : (emit o s).audio = s.audio := rfl
@[simp] theorem emit_prism (o : Output) (s : State) : (emit o s).prism = s.prism := rfl
@[simp] theorem emit_lens (o : Output) (s : State) : (emit o s).lens = s.lens := rfl
@[simp] theorem emit_evrec (o : Output) (s : State) : (emit o s).evrec = s.evrec := rfl
@[simp] theorem emit_wdog (o : Output) (s : State) : (emit o s).wdog = s.wdog := rfl
@[simp] theorem emit_pwr (o : Output) (s : State) : (emit o s).pwr = s.pwr := rfl
@[simp] theorem emit_dbg (o : Output) (s : State) : (emit o s).dbg = s.dbg := rfl

end Sys2Proof.Machine
end

