-- ==== Sys2Proof/Laws/Ops.lean ====
section
/-! SUPPORT. What the shared operations can do: tables, recording an event, posting a reply, the interrupts at the end of a step. -/

namespace Sys2Proof.Machine

/-! Tables and bytes. -/

@[simp] theorem length_updAt {α : Type} (l : List α) (i : Nat) (f : α → α) : (updAt l i f).length = l.length := by
  simp [updAt]

theorem nth_updAt_self {α : Type} [Inhabited α] (l : List α) (i : Nat) (f : α → α) (h : i < l.length) :
    nth (updAt l i f) i = f (nth l i) := by
  simp [nth, updAt, List.getD_eq_getElem?_getD, h]

theorem nth_updAt_other {α : Type} [Inhabited α] (l : List α) (i k : Nat) (f : α → α) (h : i ≠ k) :
    nth (updAt l i f) k = nth l k := by
  simp [nth, updAt, List.getD_eq_getElem?_getD, h]

@[simp] theorem length_le (n v : Nat) : (le n v).length = n := by
  induction n generalizing v with
  | zero => rfl
  | succ n ih => simp [le, ih]

@[simp] theorem length_leBits {w : Nat} (n : Nat) (v : BitVec w) : (leBits n v).length = n := by simp [leBits]

@[simp] theorem length_leInt (n : Nat) (v : Int) : (leInt n v).length = n := by simp [leInt]

@[simp] theorem length_leSat (n v : Nat) : (leSat n v).length = n := by simp [leSat]

@[simp] theorem length_stampBytes (w : Stamp) : (stampBytes w).length = 16 := by simp [stampBytes]

@[simp] theorem length_withCrc (l : List Byte) : (withCrc l).length = l.length + 4 := by simp [withCrc]

/-- The number that little-endian bytes spell is the number itself, as far as they hold it (R10). -/
theorem unle_le (n v : Nat) : unle (le n v) = v % 256 ^ n := by
  induction n generalizing v with
  | zero => simp [unle, le, Nat.mod_one]
  | succ n ih =>
    simp only [le, unle, ih, BitVec.toNat_ofNat]
    rw [show 256 ^ (n + 1) = 256 * 256 ^ n from Nat.pow_succ', Nat.mod_mul]

/-! Recording an event. -/

theorem recordB_eq (code origin : Nat) (d : List Byte) (s : State) :
    recordB code origin d s = { s with evrec := (recordB code origin d s).evrec } := rfl

theorem recordC_eq (code origin : Nat) (d : List Byte) (v : Bool) (t h : Nat) (raw : Bool) (s : State) :
    recordC code origin d v t h raw s = { s with evrec := (recordC code origin d v t h raw s).evrec } := by
  suffices h : ∃ e, recordC code origin d v t h raw s = { s with evrec := e } by
    obtain ⟨e, he⟩ := h
    rw [he]
  unfold recordC
  dsimp only
  by_cases h1 : (decide (s.evrec.cState = 0) || decide (s.evrec.cState = 3) ||
      !exemptCode code && decide ((rateOf s.evrec code).1 = 0)) = true
  · rw [if_pos h1]; exact ⟨_, rfl⟩
  · rw [if_neg h1]
    cases exemptCode code <;> (repeat' split) <;> exact ⟨_, rfl⟩

/-- An event changes the recorder, or the events that AON holds, and nothing else. -/
theorem record_eq (code origin : Nat) (d : List (Nat × Nat)) (s : State) :
    record code origin d s =
      { s with
        evrec := (record code origin d s).evrec
        sys := { s.sys with
          aonEvents := (record code origin d s).sys.aonEvents, aonDropped := (record code origin d s).sys.aonDropped } } := by
  unfold record
  dsimp only
  split
  · simp only [modSys]
    split <;> rfl
  · rw [recordC_eq, recordB_eq]

@[simp] theorem record_pending (c o : Nat) (d : List (Nat × Nat)) (s : State) : (record c o d s).pending = s.pending := by rw [record_eq]
@[simp] theorem record_free (c o : Nat) (d : List (Nat × Nat)) (s : State) : (record c o d s).free = s.free := by rw [record_eq]
@[simp] theorem record_out (c o : Nat) (d : List (Nat × Nat)) (s : State) : (record c o d s).out = s.out := by rw [record_eq]
@[simp] theorem record_last (c o : Nat) (d : List (Nat × Nat)) (s : State) : (record c o d s).last = s.last := by rw [record_eq]
@[simp] theorem record_tenants (c o : Nat) (d : List (Nat × Nat)) (s : State) : (record c o d s).tenants = s.tenants := by rw [record_eq]
@[simp] theorem record_owners (c o : Nat) (d : List (Nat × Nat)) (s : State) : (record c o d s).owners = s.owners := by rw [record_eq]
@[simp] theorem record_store (c o : Nat) (d : List (Nat × Nat)) (s : State) : (record c o d s).store = s.store := by rw [record_eq]
@[simp] theorem record_eth (c o : Nat) (d : List (Nat × Nat)) (s : State) : (record c o d s).eth = s.eth := by rw [record_eq]
@[simp] theorem record_trig (c o : Nat) (d : List (Nat × Nat)) (s : State) : (record c o d s).trig = s.trig := by rw [record_eq]
@[simp] theorem record_plink (c o : Nat) (d : List (Nat × Nat)) (s : State) : (record c o d s).plink = s.plink := by rw [record_eq]
@[simp] theorem record_audio (c o : Nat) (d : List (Nat × Nat)) (s : State) : (record c o d s).audio = s.audio := by rw [record_eq]
@[simp] theorem record_prism (c o : Nat) (d : List (Nat × Nat)) (s : State) : (record c o d s).prism = s.prism := by rw [record_eq]
@[simp] theorem record_lens (c o : Nat) (d : List (Nat × Nat)) (s : State) : (record c o d s).lens = s.lens := by rw [record_eq]
@[simp] theorem record_wdog (c o : Nat) (d : List (Nat × Nat)) (s : State) : (record c o d s).wdog = s.wdog := by rw [record_eq]
@[simp] theorem record_pwr (c o : Nat) (d : List (Nat × Nat)) (s : State) : (record c o d s).pwr = s.pwr := by rw [record_eq]
@[simp] theorem record_dbg (c o : Nat) (d : List (Nat × Nat)) (s : State) : (record c o d s).dbg = s.dbg := by rw [record_eq]
@[simp] theorem record_sys_fresh (c o : Nat) (d : List (Nat × Nat)) (s : State) : (record c o d s).sys.fresh = s.sys.fresh := by rw [record_eq]
@[simp] theorem record_sys_begun (c o : Nat) (d : List (Nat × Nat)) (s : State) : (record c o d s).sys.begun = s.sys.begun := by rw [record_eq]
@[simp] theorem record_sys_stopped (c o : Nat) (d : List (Nat × Nat)) (s : State) : (record c o d s).sys.stopped = s.sys.stopped := by rw [record_eq]
@[simp] theorem record_sys_lost (c o : Nat) (d : List (Nat × Nat)) (s : State) : (record c o d s).sys.lost = s.sys.lost := by rw [record_eq]
@[simp] theorem record_sys_nvmBalls (c o : Nat) (d : List (Nat × Nat)) (s : State) : (record c o d s).sys.nvmBalls = s.sys.nvmBalls := by rw [record_eq]
@[simp] theorem record_sys_clkOk (c o : Nat) (d : List (Nat × Nat)) (s : State) : (record c o d s).sys.clkOk = s.sys.clkOk := by rw [record_eq]
@[simp] theorem record_sys_rst (c o : Nat) (d : List (Nat × Nat)) (s : State) : (record c o d s).sys.rst = s.sys.rst := by rw [record_eq]
@[simp] theorem record_sys_pllLock (c o : Nat) (d : List (Nat × Nat)) (s : State) : (record c o d s).sys.pllLock = s.sys.pllLock := by rw [record_eq]
@[simp] theorem record_sys_refOk (c o : Nat) (d : List (Nat × Nat)) (s : State) : (record c o d s).sys.refOk = s.sys.refOk := by rw [record_eq]
@[simp] theorem record_sys_frozen (c o : Nat) (d : List (Nat × Nat)) (s : State) : (record c o d s).sys.frozen = s.sys.frozen := by rw [record_eq]
@[simp] theorem record_sys_slowRc (c o : Nat) (d : List (Nat × Nat)) (s : State) : (record c o d s).sys.slowRc = s.sys.slowRc := by rw [record_eq]
@[simp] theorem record_sys_reqFence (c o : Nat) (d : List (Nat × Nat)) (s : State) : (record c o d s).sys.reqFence = s.sys.reqFence := by rw [record_eq]
@[simp] theorem record_sys_held (c o : Nat) (d : List (Nat × Nat)) (s : State) : (record c o d s).sys.held = s.sys.held := by rw [record_eq]
@[simp] theorem record_sys_running (c o : Nat) (d : List (Nat × Nat)) (s : State) : (record c o d s).sys.running = s.sys.running := by rw [record_eq]
@[simp] theorem record_sys_hostBoot (c o : Nat) (d : List (Nat × Nat)) (s : State) : (record c o d s).sys.hostBoot = s.sys.hostBoot := by rw [record_eq]
@[simp] theorem record_sys_tested (c o : Nat) (d : List (Nat × Nat)) (s : State) : (record c o d s).sys.tested = s.sys.tested := by rw [record_eq]
@[simp] theorem record_sys_fenced (c o : Nat) (d : List (Nat × Nat)) (s : State) : (record c o d s).sys.fenced = s.sys.fenced := by rw [record_eq]
@[simp] theorem record_sys_resetN (c o : Nat) (d : List (Nat × Nat)) (s : State) : (record c o d s).sys.resetN = s.sys.resetN := by rw [record_eq]
@[simp] theorem record_sys_perstN (c o : Nat) (d : List (Nat × Nat)) (s : State) : (record c o d s).sys.perstN = s.sys.perstN := by rw [record_eq]
@[simp] theorem record_sys_bootsel (c o : Nat) (d : List (Nat × Nat)) (s : State) : (record c o d s).sys.bootsel = s.sys.bootsel := by rw [record_eq]
@[simp] theorem record_sys_slotB (c o : Nat) (d : List (Nat × Nat)) (s : State) : (record c o d s).sys.slotB = s.sys.slotB := by rw [record_eq]
@[simp] theorem record_sys_fallback (c o : Nat) (d : List (Nat × Nat)) (s : State) : (record c o d s).sys.fallback = s.sys.fallback := by rw [record_eq]
@[simp] theorem record_sys_kind (c o : Nat) (d : List (Nat × Nat)) (s : State) : (record c o d s).sys.kind = s.sys.kind := by rw [record_eq]
@[simp] theorem record_sys_retained (c o : Nat) (d : List (Nat × Nat)) (s : State) : (record c o d s).sys.retained = s.sys.retained := by rw [record_eq]
@[simp] theorem record_sys_fwVersion (c o : Nat) (d : List (Nat × Nat)) (s : State) : (record c o d s).sys.fwVersion = s.sys.fwVersion := by rw [record_eq]
@[simp] theorem record_sys_fwRollback (c o : Nat) (d : List (Nat × Nat)) (s : State) : (record c o d s).sys.fwRollback = s.sys.fwRollback := by rw [record_eq]
@[simp] theorem record_sys_bootSeq (c o : Nat) (d : List (Nat × Nat)) (s : State) : (record c o d s).sys.bootSeq = s.sys.bootSeq := by rw [record_eq]
@[simp] theorem record_sys_imageA (c o : Nat) (d : List (Nat × Nat)) (s : State) : (record c o d s).sys.imageA = s.sys.imageA := by rw [record_eq]
@[simp] theorem record_sys_imageB (c o : Nat) (d : List (Nat × Nat)) (s : State) : (record c o d s).sys.imageB = s.sys.imageB := by rw [record_eq]
@[simp] theorem record_sys_fuses (c o : Nat) (d : List (Nat × Nat)) (s : State) : (record c o d s).sys.fuses = s.sys.fuses := by rw [record_eq]
@[simp] theorem record_sys_shadow (c o : Nat) (d : List (Nat × Nat)) (s : State) : (record c o d s).sys.shadow = s.sys.shadow := by rw [record_eq]
@[simp] theorem record_sys_coreMhz (c o : Nat) (d : List (Nat × Nat)) (s : State) : (record c o d s).sys.coreMhz = s.sys.coreMhz := by rw [record_eq]
@[simp] theorem record_sys_coreReq (c o : Nat) (d : List (Nat × Nat)) (s : State) : (record c o d s).sys.coreReq = s.sys.coreReq := by rw [record_eq]
@[simp] theorem record_sys_refclkHz (c o : Nat) (d : List (Nat × Nat)) (s : State) : (record c o d s).sys.refclkHz = s.sys.refclkHz := by rw [record_eq]
@[simp] theorem record_sys_aonTicks (c o : Nat) (d : List (Nat × Nat)) (s : State) : (record c o d s).sys.aonTicks = s.sys.aonTicks := by rw [record_eq]
@[simp] theorem record_sys_spiWord (c o : Nat) (d : List (Nat × Nat)) (s : State) : (record c o d s).sys.spiWord = s.sys.spiWord := by rw [record_eq]

@[simp] theorem sansEvents_record (s : State) (c o : Nat) (d : List (Nat × Nat)) (u : State) :
    sansEvents s (record c o d u) = sansEvents s u := by
  rw [record_eq]; rfl

/-! The end of a step. -/

/-- The interrupts of one tenant change what it has seen and what went out. -/
theorem msixTenant_eq (s : State) (t : Nat) :
    msixTenant s t = { s with tenants := (msixTenant s t).tenants, out := (msixTenant s t).out } := by
  unfold msixTenant
  dsimp only
  split
  · rfl
  · split <;> rfl

theorem msixScan_eq (k : Nat) (s : State) :
    msixScan k s = { s with tenants := (msixScan k s).tenants, out := (msixScan k s).out } := by
  induction k with
  | zero => rfl
  | succ k ih => unfold msixScan; rw [msixTenant_eq, ih]

@[simp] theorem msixScan_pending (k : Nat) (s : State) : (msixScan k s).pending = s.pending := by rw [msixScan_eq]
@[simp] theorem msixScan_free (k : Nat) (s : State) : (msixScan k s).free = s.free := by rw [msixScan_eq]
@[simp] theorem msixScan_last (k : Nat) (s : State) : (msixScan k s).last = s.last := by rw [msixScan_eq]
@[simp] theorem msixScan_owners (k : Nat) (s : State) : (msixScan k s).owners = s.owners := by rw [msixScan_eq]
@[simp] theorem msixScan_store (k : Nat) (s : State) : (msixScan k s).store = s.store := by rw [msixScan_eq]
@[simp] theorem msixScan_eth (k : Nat) (s : State) : (msixScan k s).eth = s.eth := by rw [msixScan_eq]
@[simp] theorem msixScan_trig (k : Nat) (s : State) : (msixScan k s).trig = s.trig := by rw [msixScan_eq]
@[simp] theorem msixScan_plink (k : Nat) (s : State) : (msixScan k s).plink = s.plink := by rw [msixScan_eq]
@[simp] theorem msixScan_audio (k : Nat) (s : State) : (msixScan k s).audio = s.audio := by rw [msixScan_eq]
@[simp] theorem msixScan_prism (k : Nat) (s : State) : (msixScan k s).prism = s.prism := by rw [msixScan_eq]
@[simp] theorem msixScan_lens (k : Nat) (s : State) : (msixScan k s).lens = s.lens := by rw [msixScan_eq]
@[simp] theorem msixScan_wdog (k : Nat) (s : State) : (msixScan k s).wdog = s.wdog := by rw [msixScan_eq]
@[simp] theorem msixScan_pwr (k : Nat) (s : State) : (msixScan k s).pwr = s.pwr := by rw [msixScan_eq]
@[simp] theorem msixScan_dbg (k : Nat) (s : State) : (msixScan k s).dbg = s.dbg := by rw [msixScan_eq]
@[simp] theorem msixScan_sys (k : Nat) (s : State) : (msixScan k s).sys = s.sys := by rw [msixScan_eq]
@[simp] theorem msixScan_evrec (k : Nat) (s : State) : (msixScan k s).evrec = s.evrec := by rw [msixScan_eq]

end Sys2Proof.Machine
end

