-- ==== Sys2Proof/Laws/Memory.lean ====
section
/-! SUPPORT. The memories: a read after a write, and the canonical form that every memory operation keeps. -/

namespace Sys2Proof.Machine

/-! Lists of keys and values. -/

theorem rising_cons {α : Type} (p : Nat × α) (l : List (Nat × α)) :
    rising (p :: l) = true ↔ (∀ q ∈ l, p.1 < q.1) ∧ rising l = true := by simp [rising, List.all_eq_true]

/-- Setting a key lists nothing but the old entries and the new one. -/
theorem mem_assocSet {α : Type} (l : List (Nat × α)) (x : Nat) (a : α) (q : Nat × α) (h : q ∈ assocSet l x a) : q = (x, a) ∨ q ∈ l := by
  induction l with
  | nil => simpa [assocSet] using h
  | cons p l ih =>
    obtain ⟨k, v⟩ := p
    simp only [assocSet] at h
    split at h
    · simpa using h
    · split at h
      · rcases List.mem_cons.1 h with h | h
        · exact .inl h
        · exact .inr (List.mem_cons_of_mem _ h)
      · rcases List.mem_cons.1 h with h | h
        · exact .inr (h ▸ List.mem_cons_self)
        · exact (ih h).imp id (List.mem_cons_of_mem _)

theorem rising_assocSet {α : Type} (l : List (Nat × α)) (x : Nat) (a : α) (h : rising l = true) : rising (assocSet l x a) = true := by
  induction l with
  | nil => simp [assocSet, rising]
  | cons p l ih =>
    obtain ⟨k, v⟩ := p
    have hc := (rising_cons _ _).1 h
    simp only [assocSet]
    split
    · rename_i hlt
      refine (rising_cons _ _).2 ⟨fun q hq => ?_, h⟩
      rcases List.mem_cons.1 hq with rfl | hq
      · exact hlt
      · exact Nat.lt_trans hlt (hc.1 q hq)
    · split
      · rename_i heq
        exact (rising_cons _ _).2 ⟨fun q hq => heq ▸ hc.1 q hq, hc.2⟩
      · rename_i h1 h2
        refine (rising_cons _ _).2 ⟨fun q hq => ?_, ih hc.2⟩
        rcases mem_assocSet l x a q hq with rfl | hq
        · exact Nat.lt_of_le_of_ne (Nat.le_of_not_lt h1) h2
        · exact hc.1 q hq

theorem rising_filter {α : Type} (f : Nat × α → Bool) (l : List (Nat × α)) (h : rising l = true) : rising (l.filter f) = true := by
  induction l with
  | nil => rfl
  | cons p l ih =>
    have hc := (rising_cons _ _).1 h
    rw [List.filter_cons]
    split
    · exact (rising_cons _ _).2 ⟨fun q hq => hc.1 q (List.mem_filter.1 hq).1, ih hc.2⟩
    · exact ih hc.2

theorem rising_assocDel {α : Type} (l : List (Nat × α)) (x : Nat) (h : rising l = true) : rising (assocDel l x) = true :=
  rising_filter _ l h

/-- A read of a key just set. -/
theorem assoc_assocSet_same {α : Type} (l : List (Nat × α)) (x : Nat) (a : α) : assoc (assocSet l x a) x = some a := by
  induction l with
  | nil => simp [assocSet, assoc]
  | cons p l ih =>
    obtain ⟨k, v⟩ := p
    simp only [assocSet]
    split
    · simp [assoc]
    · split
      · simp [assoc]
      · rename_i h
        simp [assoc, h, ih]

/-- A read of another key. -/
theorem assoc_assocSet_other {α : Type} (l : List (Nat × α)) (x y : Nat) (a : α) (h : x ≠ y) :
    assoc (assocSet l x a) y = assoc l y := by
  induction l with
  | nil => simp [assocSet, assoc, h]
  | cons p l ih =>
    obtain ⟨k, v⟩ := p
    simp only [assocSet]
    split
    · simp [assoc, h]
    · split
      · rename_i hk
        simp [assoc, hk, h]
      · simp [assoc, ih]

theorem assoc_filter {α : Type} (f : Nat → Bool) (l : List (Nat × α)) (y : Nat) :
    assoc (l.filter fun p => f p.1) y = if f y then assoc l y else none := by
  induction l with
  | nil => simp [assoc]
  | cons p l ih =>
    obtain ⟨k, v⟩ := p
    rw [List.filter_cons]
    by_cases hk : k = y
    · subst hk
      split <;> rename_i hf
      · simp [assoc]
      · simp only [hf, ih]
        rfl
    · split
      · simp [assoc, hk, ih]
      · simp [assoc, hk, ih]

theorem assoc_assocDel {α : Type} (l : List (Nat × α)) (x y : Nat) : assoc (assocDel l x) y = if y = x then none else assoc l y := by
  have h := assoc_filter (fun k => decide (k ≠ x)) l y
  by_cases hy : y = x <;> simp_all [assocDel]

/-! Memories whose unlisted keys read as a known value. -/

theorem canonical_iff {α : Type} [DecidableEq α] (b : α) (l : List (Nat × α)) :
    canonical b l = true ↔ rising l = true ∧ ∀ p ∈ l, p.2 ≠ b := by simp [canonical, List.all_eq_true]

theorem canonical_set {α : Type} [DecidableEq α] (b a : α) (l : List (Nat × α)) (x : Nat) (h : canonical b l = true) (ha : a ≠ b) :
    canonical b (assocSet l x a) = true := by
  obtain ⟨h1, h2⟩ := (canonical_iff b l).1 h
  refine (canonical_iff _ _).2 ⟨rising_assocSet l x a h1, fun p hp => ?_⟩
  rcases mem_assocSet l x a p hp with rfl | hp
  · exact ha
  · exact h2 p hp

theorem canonical_filter {α : Type} [DecidableEq α] (b : α) (f : Nat × α → Bool) (l : List (Nat × α)) (h : canonical b l = true) :
    canonical b (l.filter f) = true := by
  obtain ⟨h1, h2⟩ := (canonical_iff b l).1 h
  exact (canonical_iff _ _).2 ⟨rising_filter f l h1, fun p hp => h2 p (List.mem_filter.1 hp).1⟩

theorem localPut_wf (m : List (Nat × Word)) (w : Nat) (v : Word) (h : canonical 0 m = true) : canonical 0 (localPut m w v) = true := by
  unfold localPut
  split
  · exact canonical_filter 0 _ m h
  · rename_i hv
    exact canonical_set 0 v m w h hv

theorem localPoke_wf (l : List Word) (m : List (Nat × Word)) (w : Nat) (h : canonical 0 m = true) :
    canonical 0 (localPoke m w l) = true := by
  induction l generalizing m w with
  | nil => exact h
  | cons v l ih => exact ih _ _ (localPut_wf m w v h)

/-- A word read after it was written, and a word elsewhere. -/
theorem localGet_localPut (m : List (Nat × Word)) (w y : Nat) (v : Word) :
    localGet (localPut m w v) y = if y = w then v else localGet m y := by
  unfold localGet localPut
  by_cases hy : y = w
  · subst hy
    split <;> simp_all [assoc_assocDel, assoc_assocSet_same]
  · split
    · simp [assoc_assocDel, hy]
    · simp [assoc_assocSet_other m w y v (Ne.symm hy)]

theorem flashPut_wf (l : List Byte) (a : Nat) (c : List (Nat × Byte)) (h : canonical 0xFF c = true) :
    canonical 0xFF (flashPut a l c) = true := by
  induction l generalizing a c with
  | nil => exact h
  | cons b l ih =>
    refine ih _ _ ?_
    split
    · exact canonical_filter _ _ c h
    · rename_i hb
      exact canonical_set _ b c a h hb

theorem flashClear_wf (a n : Nat) (f : Flash) (h : canonical 0xFF f.cells = true) : canonical 0xFF (flashClear a n f).cells = true :=
  canonical_filter _ _ f.cells h

/-- A byte of a cleared range reads erased, and a byte outside it as before. -/
theorem flashByte_flashClear (a n y : Nat) (f : Flash) :
    flashByte (flashClear a n f) y = if a ≤ y ∧ y < a + n then 0xFF else flashByte f y := by
  have h := assoc_filter (fun k => !(decide (a ≤ k) && decide (k < a + n))) f.cells y
  unfold flashByte
  simp only [flashClear]
  rw [h]
  by_cases h1 : a ≤ y <;> by_cases h2 : y < a + n <;> simp [h1, h2]

/-! The Store. -/

theorem storeWf_iff (l : List (Nat × Byte)) :
    storeWf l = true ↔ rising l = true ∧ ∀ p ∈ l, stagingPage (pageOf (p.1 % 2 ^ 24)) = true → p.2 ≠ 0 := by
  simp only [storeWf, Bool.and_eq_true, List.all_eq_true]
  refine and_congr_right fun _ => forall₂_congr fun p _ => ?_
  cases stagingPage (pageOf (p.1 % 2 ^ 24)) <;> simp

theorem putCell_wf (key off : Nat) (b : Byte) (l : List (Nat × Byte)) (hoff : off < 2 ^ 24) (h : storeWf l = true) :
    storeWf (putCell key off b l) = true := by
  obtain ⟨h1, h2⟩ := (storeWf_iff l).1 h
  have hr := rising_filter (fun c => !sameBlock key off c) l h1
  unfold putCell
  simp only
  split
  · refine (storeWf_iff _).2 ⟨rising_assocDel _ _ hr, fun p hp => h2 p ?_⟩
    exact (List.mem_filter.1 (List.mem_filter.1 hp).1).1
  · rename_i hb
    refine (storeWf_iff _).2 ⟨rising_assocSet _ _ _ hr, fun p hp hs => ?_⟩
    rcases mem_assocSet _ _ _ p hp with rfl | hp
    · have hk : cellKey key off % 2 ^ 24 = off := by
        unfold cellKey
        rw [Nat.add_comm, Nat.add_mul_mod_self_right]
        exact Nat.mod_eq_of_lt hoff
      rw [hk] at hs
      intro h0
      exact hb (by simpa [hs] using h0)
    · exact h2 p (List.mem_filter.1 hp).1 hs

theorem wf_iff (s : State) : Memory.wf s = true ↔ storeWf s.store.cells = true ∧ s.lens.all coreMemWf = true ∧
    canonical 0xFF s.evrec.flash.cells = true ∧ (s.tenants.all fun n => rising n.inbox) = true := by
  simp [Memory.wf, and_assoc]

theorem storePut_wf (off : Nat) (b : Byte) (s : State) (hoff : off < 2 ^ 24) (h : Memory.wf s = true) :
    Memory.wf (storePut off b s) = true := by
  have hw := (wf_iff s).1 h
  unfold storePut
  split
  · exact (wf_iff _).2 ⟨putCell_wf _ off b _ hoff hw.1, hw.2⟩
  · exact (wf_iff _).2 hw

theorem storeWrite_wf (l : List (Byte × Bool)) (off : Nat) (s : State) (hoff : off + l.length ≤ 2 ^ 24) (h : Memory.wf s = true) :
    Memory.wf (storeWrite off l s) = true := by
  induction l generalizing off s with
  | nil => exact h
  | cons p l ih =>
    obtain ⟨b, en⟩ := p
    simp only [List.length_cons] at hoff
    refine ih (off + 1) _ (by omega) ?_
    cases en
    · exact h
    · exact storePut_wf off b s (by omega) h

theorem storePoke_wf (l : List Byte) (off : Nat) (s : State) (hoff : off + l.length ≤ 2 ^ 24) (h : Memory.wf s = true) :
    Memory.wf (storePoke off l s) = true := storeWrite_wf _ off s (by simpa using hoff) h

/-! The other memory operations. -/

theorem all_updAt {α : Type} (p : α → Bool) (l : List α) (i : Nat) (f : α → α) (h : l.all p = true)
    (hf : ∀ x, p x = true → p (f x) = true) : (updAt l i f).all p = true := by
  induction l generalizing i with
  | nil => simp [updAt]
  | cons x l ih =>
    simp only [List.all_cons, Bool.and_eq_true] at h
    cases i with
    | zero => simp [updAt, h.2, hf x h.1]
    | succ i =>
      have := ih i h.2
      simp_all [updAt]

theorem inboxCells_rising (bs : List Byte) (off k : Nat) (l : List (Nat × Byte)) (h : rising l = true) :
    rising ((bs.zipIdx k).foldl (fun l x => assocSet l (off + x.2) x.1) l) = true := by
  induction bs generalizing k l with
  | nil => exact h
  | cons b bs ih => exact ih (k + 1) _ (rising_assocSet l _ b h)

theorem inboxWrite_wf (t off : Nat) (bs : List Byte) (s : State) (h : Memory.wf s = true) : Memory.wf (inboxWrite t off bs s) = true := by
  have hw := (wf_iff s).1 h
  unfold inboxWrite
  simp only
  split
  · exact h
  · exact (wf_iff _).2 ⟨hw.1, hw.2.1, hw.2.2.1, all_updAt _ _ _ _ hw.2.2.2 fun n hn => inboxCells_rising bs off 0 _ hn⟩

theorem putLocal_wf (n o : Nat) (v : Word) (s : State) (h : Memory.wf s = true) : Memory.wf (putLocal n o v s) = true := by
  have hw := (wf_iff s).1 h
  refine (wf_iff _).2 ⟨hw.1, all_updAt _ _ _ _ hw.2.1 fun c hc => ?_, hw.2.2⟩
  simp only [coreMemWf, Bool.and_eq_true] at hc
  obtain ⟨⟨hp, hx⟩, hy⟩ := hc
  split
  · simp only [coreMemWf, Bool.and_eq_true]
    exact ⟨⟨localPut_wf _ _ v hp, hx⟩, hy⟩
  · split
    · simp only [coreMemWf, Bool.and_eq_true]
      exact ⟨⟨hp, localPut_wf _ _ v hx⟩, hy⟩
    · simp only [coreMemWf, Bool.and_eq_true]
      exact ⟨⟨hp, hx⟩, localPut_wf _ _ v hy⟩

theorem flashSpoil_wf (a n : Nat) (s : State) (h : Memory.wf s = true) : Memory.wf (flashSpoil a n s) = true := by
  have hw := (wf_iff s).1 h
  exact (wf_iff _).2 ⟨hw.1, hw.2.1, flashPut_wf _ a _ hw.2.2.1, hw.2.2.2⟩

theorem storePowerUp_wf (e : Bool) (s : State) (h : Memory.wf s = true) : Memory.wf (storePowerUp e s) = true := by
  have hw := (wf_iff s).1 h
  cases e <;> exact (wf_iff _).2 ⟨rfl, hw.2⟩

/-- Memory lists nothing after reset. -/
theorem reset_memory_wf : Memory.wf State.reset = true := by decide +kernel

end Sys2Proof.Machine
end

