-- ==== Sys2Proof/Laws/PerInstr.lean ====
section
/-! SUPPORT. One lemma per row: a row has a packet header exactly when it has an opcode, and exactly then a meaning that the
interpreter runs; its classes are classes of R100, and a groupable opcode may be class 0 (R104). -/

namespace Sys2Proof.Laws.Row

open Sys2Proof Sys2Proof.Machine

/-- What the opcode tables agree on for a row. -/
def Statement (i : Instr) : Prop :=
  ((reqOf i).isSome = true ↔ (opInfo i).op ≠ 0) ∧ (reqOf i).isSome = (meaningOf i).isSome ∧
    (∀ c ∈ (opInfo i).classes, c ≤ 2) ∧ ((opInfo i).groupable = true → 0 ∈ (opInfo i).classes)

/-- What the opcode tables agree on for one opcode. -/
def infoOk (o : OpInfo) : Bool := o.op ≠ 0 && o.classes.all (fun c => c ≤ 2) && (!o.groupable || o.classes.contains 0)

/-- A row with a packet header. -/
theorem packet {i : Instr} {r : Req} {m : Meaning} (h : reqOf i = some r) (hm : meaningOf i = some m)
    (ho : infoOk (opInfo i) = true) : Statement i := by
  simp only [infoOk, Bool.and_eq_true, decide_eq_true_eq, List.all_eq_true, Bool.or_eq_true, Bool.not_eq_true'] at ho
  refine ⟨by simp [h, ho.1.1], by simp [h, hm], fun c hc => by simpa using ho.1.2 c hc, fun hg => ?_⟩
  have := ho.2
  simpa [hg] using this

/-- A row without one. -/
theorem event {i : Instr} (h : reqOf i = none) (hm : meaningOf i = none) (ho : opInfo i = { op := 0 }) : Statement i := by
  refine ⟨by simp [h, ho], by simp [h, hm], by simp [ho], by simp [ho]⟩

theorem sysInfo (r : Req) : Statement (.sysInfo r) := packet rfl rfl rfl
theorem tenantOpen (r : Req) (tenant transports : Byte) : Statement (.tenantOpen r tenant transports) := packet rfl rfl rfl
theorem tenantClose (r : Req) (tenant : Byte) : Statement (.tenantClose r tenant) := packet rfl rfl rfl
theorem grant (r : Req) (tenant type : Byte) (first count : Half) : Statement (.grant r tenant type first count) := packet rfl rfl rfl
theorem revoke (r : Req) (tenant type : Byte) (first count : Half) : Statement (.revoke r tenant type first count) := packet rfl rfl rfl
theorem groupCommit (r : Req) : Statement (.groupCommit r) := packet rfl rfl rfl
theorem groupAbort (r : Req) : Statement (.groupAbort r) := packet rfl rfl rfl
theorem groupStatus (r : Req) : Statement (.groupStatus r) := packet rfl rfl rfl
theorem fuseRead (r : Req) (field : Half) : Statement (.fuseRead r field) := packet rfl rfl rfl
theorem fuseProgram (r : Req) (field : Half) (value : BitVec 256) : Statement (.fuseProgram r field value) := packet rfl rfl rfl
theorem fwWrite (r : Req) (offset : Word) (data : List Byte) : Statement (.fwWrite r offset data) := packet rfl rfl rfl
theorem fwCommit (r : Req) (size : Word) : Statement (.fwCommit r size) := packet rfl rfl rfl
theorem timeGet (r : Req) : Statement (.timeGet r) := packet rfl rfl rfl
theorem timeSet (r : Req) (time : Stamp) (utcOffset flags : Half) : Statement (.timeSet r time utcOffset flags) := packet rfl rfl rfl
theorem timeStep (r : Req) (offset : DWord) : Statement (.timeStep r offset) := packet rfl rfl rfl
theorem timeAdjust (r : Req) (offset : DWord) (slew : Word) : Statement (.timeAdjust r offset slew) := packet rfl rfl rfl
theorem rateSet (r : Req) (rate : Word) : Statement (.rateSet r rate) := packet rfl rfl rfl
theorem sourceSet (r : Req) (src domain : Byte) : Statement (.sourceSet r src domain) := packet rfl rfl rfl
theorem servoConfig (r : Req) (stepThr lockThr unlockThr slewMax : Word) (lockCount loopBw : Half) : Statement (.servoConfig r stepThr lockThr unlockThr slewMax lockCount loopBw) := packet rfl rfl rfl
theorem lastStatus (r : Req) : Statement (.lastStatus r) := packet rfl rfl rfl
theorem calSet (r : Req) (item index sub : Byte) (value : Word) : Statement (.calSet r item index sub value) := packet rfl rfl rfl
theorem calGet (r : Req) (item index sub : Byte) : Statement (.calGet r item index sub) := packet rfl rfl rfl
theorem ethPortConfig (r : Req) (port mode : Byte) (vid : Half) (mac : BitVec 48) : Statement (.ethPortConfig r port mode vid mac) := packet rfl rfl rfl
theorem ethPortStatus (r : Req) (port : Byte) : Statement (.ethPortStatus r port) := packet rfl rfl rfl
theorem gptpConfig (r : Req) (cfg : GptpCfg) : Statement (.gptpConfig r cfg) := packet rfl rfl rfl
theorem gptpPortRole (r : Req) (port role domains : Byte) : Statement (.gptpPortRole r port role domains) := packet rfl rfl rfl
theorem gptpStatus (r : Req) (domain : Byte) : Statement (.gptpStatus r domain) := packet rfl rfl rfl
theorem avtpTalkerConfig (r : Req) (cfg : AvtpCfg) : Statement (.avtpTalkerConfig r cfg) := packet rfl rfl rfl
theorem avtpListenerConfig (r : Req) (cfg : AvtpCfg) : Statement (.avtpListenerConfig r cfg) := packet rfl rfl rfl
theorem avtpStreamStart (r : Req) (dir stream : Byte) : Statement (.avtpStreamStart r dir stream) := packet rfl rfl rfl
theorem avtpStreamStop (r : Req) (dir stream : Byte) : Statement (.avtpStreamStop r dir stream) := packet rfl rfl rfl
theorem avtpStreamStatus (r : Req) (dir stream : Byte) : Statement (.avtpStreamStatus r dir stream) := packet rfl rfl rfl
theorem crfConfig (r : Req) (cfg : CrfCfg) : Statement (.crfConfig r cfg) := packet rfl rfl rfl
theorem cbsConfig (r : Req) (port : Byte) (idleA idleB : Word) : Statement (.cbsConfig r port idleA idleB) := packet rfl rfl rfl
theorem ethRxFilter (r : Req) (ports actions rlog2 : Byte) (base : DWord) : Statement (.ethRxFilter r ports actions rlog2 base) := packet rfl rfl rfl
theorem tpinConfig (r : Req) (cfg : TpinCfg) : Statement (.tpinConfig r cfg) := packet rfl rfl rfl
theorem tpinSchedule (r : Req) (pin action policy : Byte) (time : Stamp) : Statement (.tpinSchedule r pin action policy time) := packet rfl rfl rfl
theorem tpinCancel (r : Req) (pin : Byte) (handle : Half) : Statement (.tpinCancel r pin handle) := packet rfl rfl rfl
theorem tpinCaptureRead (r : Req) (pin max : Byte) : Statement (.tpinCaptureRead r pin max) := packet rfl rfl rfl
theorem reflexConfig (r : Req) (cfg : ReflexCfg) : Statement (.reflexConfig r cfg) := packet rfl rfl rfl
theorem reflexWindow (r : Req) (cfg : WindowCfg) : Statement (.reflexWindow r cfg) := packet rfl rfl rfl
theorem fsgConfig (r : Req) (cfg : FsgCfg) : Statement (.fsgConfig r cfg) := packet rfl rfl rfl
theorem fsgStart (r : Req) (fsg : Byte) : Statement (.fsgStart r fsg) := packet rfl rfl rfl
theorem fsgStop (r : Req) (fsg : Byte) : Statement (.fsgStop r fsg) := packet rfl rfl rfl
theorem fsgStatus (r : Req) (fsg : Byte) : Statement (.fsgStatus r fsg) := packet rfl rfl rfl
theorem plinkStatus (r : Req) (port : Byte) : Statement (.plinkStatus r port) := packet rfl rfl rfl
theorem plinkEnumerate (r : Req) (flags : Byte) : Statement (.plinkEnumerate r flags) := packet rfl rfl rfl
theorem plinkTopology (r : Req) : Statement (.plinkTopology r) := packet rfl rfl rfl
theorem plinkAudioMap (r : Req) (cfg : MapCfg) : Statement (.plinkAudioMap r cfg) := packet rfl rfl rfl
theorem fabricPrepare (r : Req) (fid tenant : Byte) (group : Half) : Statement (.fabricPrepare r fid tenant group) := packet rfl rfl rfl
theorem fabricApply (r : Req) (fid : Byte) : Statement (.fabricApply r fid) := packet rfl rfl rfl
theorem fabricAbort (r : Req) (fid : Byte) : Statement (.fabricAbort r fid) := packet rfl rfl rfl
theorem plinkDelayGet (r : Req) (port : Byte) : Statement (.plinkDelayGet r port) := packet rfl rfl rfl
theorem mcgConfig (r : Req) (mcg mode family mult : Byte) (window : Half) : Statement (.mcgConfig r mcg mode family mult window) := packet rfl rfl rfl
theorem mcgMeasure (r : Req) (mcg : Byte) : Statement (.mcgMeasure r mcg) := packet rfl rfl rfl
theorem aportConfig (r : Req) (cfg : AportCfg) : Statement (.aportConfig r cfg) := packet rfl rfl rfl
theorem aportStart (r : Req) (port : Byte) : Statement (.aportStart r port) := packet rfl rfl rfl
theorem aportStop (r : Req) (port : Byte) : Statement (.aportStop r port) := packet rfl rfl rfl
theorem aportMask (r : Req) (port : Byte) (txMask rxMask : Word) : Statement (.aportMask r port txMask rxMask) := packet rfl rfl rfl
theorem aportRate (r : Req) (port mcg rate : Byte) : Statement (.aportRate r port mcg rate) := packet rfl rfl rfl
theorem aportStatus (r : Req) (port : Byte) : Statement (.aportStatus r port) := packet rfl rfl rfl
theorem prismInputClass (r : Req) (source : Half) (cls wind : Byte) : Statement (.prismInputClass r source cls wind) := packet rfl rfl rfl
theorem prismXpSet (r : Req) (items : List XpItem) : Statement (.prismXpSet r items) := packet rfl rfl rfl
theorem prismXpClear (r : Req) (items : List XpKey) : Statement (.prismXpClear r items) := packet rfl rfl rfl
theorem prismRoute (r : Req) (sink source : Half) (flags : Byte) : Statement (.prismRoute r sink source flags) := packet rfl rfl rfl
theorem prismBusConfig (r : Req) (bus family rate mode range : Byte) : Statement (.prismBusConfig r bus family rate mode range) := packet rfl rfl rfl
theorem prismBusRange (r : Req) (bus range : Byte) : Statement (.prismBusRange r bus range) := packet rfl rfl rfl
theorem prismDirectGain (r : Req) (source : Half) (bus : Byte) (gain : Half) : Statement (.prismDirectGain r source bus gain) := packet rfl rfl rfl
theorem prismStatus (r : Req) (bus : Byte) : Statement (.prismStatus r bus) := packet rfl rfl rfl
theorem sceneStore (r : Req) (scene : Byte) (page : Half) (offset : Word) : Statement (.sceneStore r scene page offset) := packet rfl rfl rfl
theorem sceneRecall (r : Req) (scene : Byte) : Statement (.sceneRecall r scene) := packet rfl rfl rfl
theorem sceneDelete (r : Req) (scene : Byte) : Statement (.sceneDelete r scene) := packet rfl rfl rfl
theorem sceneList (r : Req) : Statement (.sceneList r) := packet rfl rfl rfl
theorem mirrorConfig (r : Req) (family rate block : Byte) (rampLen : Half) : Statement (.mirrorConfig r family rate block rampLen) := packet rfl rfl rfl
theorem mirrorStatus (r : Req) : Statement (.mirrorStatus r) := packet rfl rfl rfl
theorem lensLoad (r : Req) (core slot : Byte) (page : Half) (offset : Word) : Statement (.lensLoad r core slot page offset) := packet rfl rfl rfl
theorem lensChain (r : Req) (cfg : ChainCfg) : Statement (.lensChain r cfg) := packet rfl rfl rfl
theorem lensStart (r : Req) (core slots : Byte) : Statement (.lensStart r core slots) := packet rfl rfl rfl
theorem lensStop (r : Req) (core slots : Byte) : Statement (.lensStop r core slots) := packet rfl rfl rfl
theorem lensParam (r : Req) (items : List LensItem) : Statement (.lensParam r items) := packet rfl rfl rfl
theorem lensStatus (r : Req) (core : Byte) : Statement (.lensStatus r core) := packet rfl rfl rfl
theorem lensDeadline (r : Req) (core strikes : Byte) (guard : Half) : Statement (.lensDeadline r core strikes guard) := packet rfl rfl rfl
theorem pageInfo (r : Req) : Statement (.pageInfo r) := packet rfl rfl rfl
theorem pageRead (r : Req) (page : Half) (offset : Word) (length : Half) : Statement (.pageRead r page offset length) := packet rfl rfl rfl
theorem pageWrite (r : Req) (page : Half) (offset : Word) (data : List Byte) : Statement (.pageWrite r page offset data) := packet rfl rfl rfl
theorem pageCopy (r : Req) (src dst : Half) : Statement (.pageCopy r src dst) := packet rfl rfl rfl
theorem evrecConfig (r : Req) (cBase cSize dumpBase : Word) (tick : Half) : Statement (.evrecConfig r cBase cSize dumpBase tick) := packet rfl rfl rfl
theorem evrecRead (r : Req) (channel max : Byte) (from_ : Word) : Statement (.evrecRead r channel max from_) := packet rfl rfl rfl
theorem evrecStatus (r : Req) : Statement (.evrecStatus r) := packet rfl rfl rfl
theorem evrecRate (r : Req) (code rate : Half) (burst : Byte) : Statement (.evrecRate r code rate burst) := packet rfl rfl rfl
theorem evrecFlush (r : Req) : Statement (.evrecFlush r) := packet rfl rfl rfl
theorem evrecErase (r : Req) (target : Byte) : Statement (.evrecErase r target) := packet rfl rfl rfl
theorem wdogConfig (r : Req) (period : Half) : Statement (.wdogConfig r period) := packet rfl rfl rfl
theorem wdogStatus (r : Req) : Statement (.wdogStatus r) := packet rfl rfl rfl
theorem wdogCountClear (r : Req) : Statement (.wdogCountClear r) := packet rfl rfl rfl
theorem superviseStatus (r : Req) : Statement (.superviseStatus r) := packet rfl rfl rfl
theorem powerMode (r : Req) (mode flags : Byte) (wakeAt : Stamp) : Statement (.powerMode r mode flags wakeAt) := packet rfl rfl rfl
theorem powerStatus (r : Req) : Statement (.powerStatus r) := packet rfl rfl rfl
theorem coreClock (r : Req) (mhz : Half) : Statement (.coreClock r mhz) := packet rfl rfl rfl
theorem holdConfig (r : Req) (cfg : HoldCfg) : Statement (.holdConfig r cfg) := packet rfl rfl rfl
theorem stackStatus (r : Req) : Statement (.stackStatus r) := packet rfl rfl rfl
theorem balanceConfig (r : Req) (cfg : BalanceCfg) : Statement (.balanceConfig r cfg) := packet rfl rfl rfl
theorem dbgOpen (r : Req) (scope : Byte) (duration : Half) : Statement (.dbgOpen r scope duration) := packet rfl rfl rfl
theorem dbgClose (r : Req) : Statement (.dbgClose r) := packet rfl rfl rfl
theorem dbgStatus (r : Req) : Statement (.dbgStatus r) := packet rfl rfl rfl
theorem send (t : Fin 16) (via : Transport) : Statement (.send t via) := event rfl rfl rfl
theorem take (t : Fin 16) (via : Transport) : Statement (.take t via) := event rfl rfl rfl
theorem packetTake (t : Fin 16) (ring : Option (List Byte)) : Statement (.packetTake t ring) := event rfl rfl rfl
theorem eyCringIdxTailWrite (t : Fin 16) (tail : Half) : Statement (.eyCringIdxTailWrite t tail) := event rfl rfl rfl
theorem eyRringIdxHeadWrite (t : Fin 16) (head : Half) : Statement (.eyRringIdxHeadWrite t head) := event rfl rfl rfl
theorem eyRingCfgWrite (t : Fin 16) (value : Word) : Statement (.eyRingCfgWrite t value) := event rfl rfl rfl
theorem eyTimeLatch (t : Fin 16) : Statement (.eyTimeLatch t) := event rfl rfl rfl
theorem wdogServe (value : Word) : Statement (.wdogServe value) := event rfl rfl rfl
theorem registerWrite (who : RegMaster) (addr : Word) (size : BitVec 3) (value : Word) : Statement (.registerWrite who addr size value) := event rfl rfl rfl
theorem registerHoldTimeout (domain : Fin 29) : Statement (.registerHoldTimeout domain) := event rfl rfl rfl
theorem fenceWaitEnd (domain : Fin 29) : Statement (.fenceWaitEnd domain) := event rfl rfl rfl
theorem remoteReplyTimeout (t : Fin 16) (tag : Half) : Statement (.remoteReplyTimeout t tag) := event rfl rfl rfl
theorem timedCommandApply (t : Fin 16) : Statement (.timedCommandApply t) := event rfl rfl rfl
theorem mirrorSwap (t : Fin 16) : Statement (.mirrorSwap t) := event rfl rfl rfl
theorem timeCycle (n : Nat) : Statement (.timeCycle n) := event rfl rfl rfl
theorem slewEnd : Statement (.slewEnd) := event rfl rfl rfl
theorem tempTermUpdate (die : BitVec 16) : Statement (.tempTermUpdate die) := event rfl rfl rfl
theorem sourceLost : Statement (.sourceLost) := event rfl rfl rfl
theorem refclkLost : Statement (.refclkLost) := event rfl rfl rfl
theorem refclkReturned : Statement (.refclkReturned) := event rfl rfl rfl
theorem refclkStopInSleep : Statement (.refclkStopInSleep) := event rfl rfl rfl
theorem clockLost (domain : Fin 29) (how : ClockLoss) : Statement (.clockLost domain how) := event rfl rfl rfl
theorem clockReturned (domain : Fin 29) (how : ClockReturn) : Statement (.clockReturned domain how) := event rfl rfl rfl
theorem crystalFail : Statement (.crystalFail) := event rfl rfl rfl
theorem captureEdge (pin : Fin 32) (falling : Bool) (tap : Fin 8) (nearPasses : Bool) : Statement (.captureEdge pin falling tap nearPasses) := event rfl rfl rfl
theorem scheduledAction (pin : Fin 32) : Statement (.scheduledAction pin) := event rfl rfl rfl
theorem gridPulse (pin : Fin 32) : Statement (.gridPulse pin) := event rfl rfl rfl
theorem fsgFrameStart (fsg : Fin 8) : Statement (.fsgFrameStart fsg) := event rfl rfl rfl
theorem ethLinkChange (port : Fin 4) (report : LinkReport) (cause : Byte) : Statement (.ethLinkChange port report cause) := event rfl rfl rfl
theorem ethFrameRx (port : Fin 4) (frame : EthFrame) : Statement (.ethFrameRx port frame) := event rfl rfl rfl
theorem sync (port : Fin 4) (msg : SyncMsg) : Statement (.sync port msg) := event rfl rfl rfl
theorem followUp (port : Fin 4) (msg : FollowUpMsg) : Statement (.followUp port msg) := event rfl rfl rfl
theorem announce (port : Fin 4) (msg : AnnounceMsg) : Statement (.announce port msg) := event rfl rfl rfl
theorem pdelay (port : Fin 4) (msg : PdelayMsg) : Statement (.pdelay port msg) := event rfl rfl rfl
theorem syncInterval (extra : Bool) : Statement (.syncInterval extra) := event rfl rfl rfl
theorem pdelayInterval (port : Fin 4) : Statement (.pdelayInterval port) := event rfl rfl rfl
theorem announceInterval (extra : Bool) : Statement (.announceInterval extra) := event rfl rfl rfl
theorem syncReceiptTimeout (port : Fin 4) (extra : Bool) : Statement (.syncReceiptTimeout port extra) := event rfl rfl rfl
theorem announceReceiptTimeout (port : Fin 4) (extra : Bool) : Statement (.announceReceiptTimeout port extra) := event rfl rfl rfl
theorem avtpPacket (stream : Fin 64) (pkt : AvtpPkt) : Statement (.avtpPacket stream pkt) := event rfl rfl rfl
theorem avtpTalkerInterval (stream : Fin 64) : Statement (.avtpTalkerInterval stream) := event rfl rfl rfl
theorem crfPduSend (pdu : CrfPdu) : Statement (.crfPduSend pdu) := event rfl rfl rfl
theorem commaAlign (port : Fin 4) : Statement (.commaAlign port) := event rfl rfl rfl
theorem commaLoss (port : Fin 4) : Statement (.commaLoss port) := event rfl rfl rfl
theorem linkTimeout (port : Fin 4) : Statement (.linkTimeout port) := event rfl rfl rfl
theorem plinkFrame (port : Fin 4) (frame : PlFrame) : Statement (.plinkFrame port frame) := event rfl rfl rfl
theorem plinkFrameLaunch (port : Fin 4) : Statement (.plinkFrameLaunch port) := event rfl rfl rfl
theorem commandCell (port : Fin 4) (cell : CmdCell) : Statement (.commandCell port cell) := event rfl rfl rfl
theorem cellEnum (port : Fin 4) (addr : BitVec 12) (depth : Byte) (setSource : Bool) (epoch : Half) (limit : BitVec 12) : Statement (.cellEnum port addr depth setSource epoch limit) := event rfl rfl rfl
theorem cellEnumDone (port : Fin 4) (next : BitVec 13) (epoch : Half) : Statement (.cellEnumDone port next epoch) := event rfl rfl rfl
theorem cellEnumReject (port : Fin 4) (reason : Byte) (epoch : Half) : Statement (.cellEnumReject port reason epoch) := event rfl rfl rfl
theorem cellPrepare (port : Fin 4) (fid : Byte) (tenant : Fin 16) (group : Half) : Statement (.cellPrepare port fid tenant group) := event rfl rfl rfl
theorem cellPrepareAck (port : Fin 4) (fid : Byte) (ready idle failed firstFailed : Half) : Statement (.cellPrepareAck port fid ready idle failed firstFailed) := event rfl rfl rfl
theorem cellApply (port : Fin 4) (fid : Byte) (time : Stamp) : Statement (.cellApply port fid time) := event rfl rfl rfl
theorem cellAbort (port : Fin 4) (fid : Byte) : Statement (.cellAbort port fid) := event rfl rfl rfl
theorem prepareTimeout : Statement (.prepareTimeout) := event rfl rfl rfl
theorem armTimeout : Statement (.armTimeout) := event rfl rfl rfl
theorem portFrameStart (port : Fin 8) (sdi : List Bool) : Statement (.portFrameStart port sdi) := event rfl rfl rfl
theorem slaveFrameSync (port : Fin 8) (bits : Nat) (tap : Fin 8) : Statement (.slaveFrameSync port bits tap) := event rfl rfl rfl
theorem slaveFrameTimeout (port : Fin 8) : Statement (.slaveFrameTimeout port) := event rfl rfl rfl
theorem prerollEnd (port : Fin 8) : Statement (.prerollEnd port) := event rfl rfl rfl
theorem postrollEnd (port : Fin 8) : Statement (.postrollEnd port) := event rfl rfl rfl
theorem fadeComplete (port : Fin 8) (tx : Bool) : Statement (.fadeComplete port tx) := event rfl rfl rfl
theorem aportRateSwitch (port : Fin 8) : Statement (.aportRateSwitch port) := event rfl rfl rfl
theorem mcgWindowEnd (mcg : Fin 4) (edges : Nat) (span : EdgeSpan) : Statement (.mcgWindowEnd mcg edges span) := event rfl rfl rfl
theorem prismSample (family : Bool) (rate : Fin 3) : Statement (.prismSample family rate) := event rfl rfl rfl
theorem busRangeStepDown (bus : Fin 128) : Statement (.busRangeStepDown bus) := event rfl rfl rfl
theorem blockStart (core : Fin 8) : Statement (.blockStart core) := event rfl rfl rfl
theorem deadlineMiss (core : Fin 8) : Statement (.deadlineMiss core) := event rfl rfl rfl
theorem coreMemoryClearDone (core : Fin 8) : Statement (.coreMemoryClearDone core) := event rfl rfl rfl
theorem lNop (core : Fin 8) : Statement (.lNop core) := event rfl rfl rfl
theorem lEnd (core : Fin 8) : Statement (.lEnd core) := event rfl rfl rfl
theorem lBr (core : Fin 8) (cc : BitVec 4) (t : BitVec 13) : Statement (.lBr core cc t) := event rfl rfl rfl
theorem lCall (core : Fin 8) (t : BitVec 13) : Statement (.lCall core t) := event rfl rfl rfl
theorem lRet (core : Fin 8) : Statement (.lRet core) := event rfl rfl rfl
theorem lLoop (core : Fin 8) (rot reg : Bool) (dc : BitVec 4) (count : Half) (e : BitVec 13) : Statement (.lLoop core rot reg dc count e) := event rfl rfl rfl
theorem lRep (core : Fin 8) (reg : Bool) (dc : BitVec 4) (count : BitVec 13) : Statement (.lRep core reg dc count) := event rfl rfl rfl
theorem lBrk (core : Fin 8) : Statement (.lBrk core) := event rfl rfl rfl
theorem lAdd (core : Fin 8) (d a b : BitVec 4) (x y : Move) : Statement (.lAdd core d a b x y) := event rfl rfl rfl
theorem lSub (core : Fin 8) (d a b : BitVec 4) (x y : Move) : Statement (.lSub core d a b x y) := event rfl rfl rfl
theorem lAnd (core : Fin 8) (d a b : BitVec 4) (x y : Move) : Statement (.lAnd core d a b x y) := event rfl rfl rfl
theorem lOr (core : Fin 8) (d a b : BitVec 4) (x y : Move) : Statement (.lOr core d a b x y) := event rfl rfl rfl
theorem lXor (core : Fin 8) (d a b : BitVec 4) (x y : Move) : Statement (.lXor core d a b x y) := event rfl rfl rfl
theorem lAsl (core : Fin 8) (d a : BitVec 4) (sh : BitVec 6) (x y : Move) : Statement (.lAsl core d a sh x y) := event rfl rfl rfl
theorem lAsr (core : Fin 8) (d a : BitVec 4) (sh : BitVec 6) (x y : Move) : Statement (.lAsr core d a sh x y) := event rfl rfl rfl
theorem lLsr (core : Fin 8) (d a : BitVec 4) (sh : BitVec 6) (x y : Move) : Statement (.lLsr core d a sh x y) := event rfl rfl rfl
theorem lAbs (core : Fin 8) (d a : BitVec 4) (x y : Move) : Statement (.lAbs core d a x y) := event rfl rfl rfl
theorem lNeg (core : Fin 8) (d a : BitVec 4) (x y : Move) : Statement (.lNeg core d a x y) := event rfl rfl rfl
theorem lMin (core : Fin 8) (d a b : BitVec 4) (x y : Move) : Statement (.lMin core d a b x y) := event rfl rfl rfl
theorem lMax (core : Fin 8) (d a b : BitVec 4) (x y : Move) : Statement (.lMax core d a b x y) := event rfl rfl rfl
theorem lMov (core : Fin 8) (d a : BitVec 4) (x y : Move) : Statement (.lMov core d a x y) := event rfl rfl rfl
theorem lCmp (core : Fin 8) (a b : BitVec 4) (x y : Move) : Statement (.lCmp core a b x y) := event rfl rfl rfl
theorem lPar (core : Fin 8) (x y : Move) : Statement (.lPar core x y) := event rfl rfl rfl
theorem lMpy (core : Fin 8) (a : BitVec 3) (opx opy : BitVec 4) (csrc neg : Bool) (x y : Move) : Statement (.lMpy core a opx opy csrc neg x y) := event rfl rfl rfl
theorem lMac (core : Fin 8) (a : BitVec 3) (opx opy : BitVec 4) (csrc neg : Bool) (x y : Move) : Statement (.lMac core a opx opy csrc neg x y) := event rfl rfl rfl
theorem lMpy4 (core : Fin 8) (a : BitVec 3) (opx opy : BitVec 4) (csrc neg : Bool) (x y : Move) : Statement (.lMpy4 core a opx opy csrc neg x y) := event rfl rfl rfl
theorem lMac4 (core : Fin 8) (a : BitVec 3) (opx opy : BitVec 4) (csrc neg : Bool) (x y : Move) : Statement (.lMac4 core a opx opy csrc neg x y) := event rfl rfl rfl
theorem lMac2e (core : Fin 8) (a : BitVec 3) (opx opy : BitVec 4) (neg : Bool) (x y : Move) : Statement (.lMac2e core a opx opy neg x y) := event rfl rfl rfl
theorem lMac2c (core : Fin 8) (a : BitVec 3) (opx opy : BitVec 4) (neg : Bool) (x y : Move) : Statement (.lMac2c core a opx opy neg x y) := event rfl rfl rfl
theorem lClr (core : Fin 8) (a : BitVec 3) (x y : Move) : Statement (.lClr core a x y) := event rfl rfl rfl
theorem lClr4 (core : Fin 8) (a : BitVec 3) (x y : Move) : Statement (.lClr4 core a x y) := event rfl rfl rfl
theorem lRnd (core : Fin 8) (d : BitVec 4) (a : BitVec 3) (sh : BitVec 5) (x y : Move) : Statement (.lRnd core d a sh x y) := event rfl rfl rfl
theorem lMva (core : Fin 8) (a : BitVec 3) (opx : BitVec 4) (x y : Move) : Statement (.lMva core a opx x y) := event rfl rfl rfl
theorem lLdi (core : Fin 8) (r : BitVec 6) (imm : Word) : Statement (.lLdi core r imm) := event rfl rfl rfl
theorem lMvr (core : Fin 8) (r1 r2 : BitVec 6) : Statement (.lMvr core r1 r2) := event rfl rfl rfl
theorem lLds (core : Fin 8) (d a : BitVec 4) : Statement (.lLds core d a) := event rfl rfl rfl
theorem lSts (core : Fin 8) (d a : BitVec 4) : Statement (.lSts core d a) := event rfl rfl rfl
theorem lLks (core : Fin 8) (d a : BitVec 4) : Statement (.lLks core d a) := event rfl rfl rfl
theorem lUns (core : Fin 8) (d a : BitVec 4) : Statement (.lUns core d a) := event rfl rfl rfl
theorem lLdb (core : Fin 8) (p : BitVec 3) (a : BitVec 4) (n1 : BitVec 4) : Statement (.lLdb core p a n1) := event rfl rfl rfl
theorem lStb (core : Fin 8) (p : BitVec 3) (a : BitVec 4) (n1 : BitVec 4) : Statement (.lStb core p a n1) := event rfl rfl rfl
theorem storeAccess (l : List MatrixReq) : Statement (.storeAccess l) := event rfl rfl rfl
theorem lockTimeout : Statement (.lockTimeout) := event rfl rfl rfl
theorem channelCScanDone : Statement (.channelCScanDone) := event rfl rfl rfl
theorem channelCProgramDone (ok : Bool) : Statement (.channelCProgramDone ok) := event rfl rfl rfl
theorem dumpPageDone (ok : Bool) : Statement (.dumpPageDone ok) := event rfl rfl rfl
theorem operatingTimeMark : Statement (.operatingTimeMark) := event rfl rfl rfl
theorem watchdogExpiry : Statement (.watchdogExpiry) := event rfl rfl rfl
theorem graceEnd (env : StartEnv) : Statement (.graceEnd env) := event rfl rfl rfl
theorem powerFailTrip : Statement (.powerFailTrip) := event rfl rfl rfl
theorem mainPowerReturn : Statement (.mainPowerReturn) := event rfl rfl rfl
theorem holdEnRelease : Statement (.holdEnRelease) := event rfl rfl rfl
theorem holdTimeEnd : Statement (.holdTimeEnd) := event rfl rfl rfl
theorem holdoverEnd : Statement (.holdoverEnd) := event rfl rfl rfl
theorem cellMeasurement (cells : List Half) (shuntNv : BitVec 32) : Statement (.cellMeasurement cells shuntNv) := event rfl rfl rfl
theorem balanceTick : Statement (.balanceTick) := event rfl rfl rfl
theorem heartbeat : Statement (.heartbeat) := event rfl rfl rfl
theorem heartbeatTimeout : Statement (.heartbeatTimeout) := event rfl rfl rfl
theorem cellOvervoltage (cell : Fin 12) (mv : Half) : Statement (.cellOvervoltage cell mv) := event rfl rfl rfl
theorem chgEnRecovery : Statement (.chgEnRecovery) := event rfl rfl rfl
theorem shankSilent : Statement (.shankSilent) := event rfl rfl rfl
theorem sleepEntry : Statement (.sleepEntry) := event rfl rfl rfl
theorem wake (source : WakeSource) : Statement (.wake source) := event rfl rfl rfl
theorem wakeRelease (env : StartEnv) : Statement (.wakeRelease env) := event rfl rfl rfl
theorem thetaHigh (theta : Half) : Statement (.thetaHigh theta) := event rfl rfl rfl
theorem thetaLow (theta : Half) : Statement (.thetaLow theta) := event rfl rfl rfl
theorem aonPowerLoss : Statement (.aonPowerLoss) := event rfl rfl rfl
theorem storeRetentionTrip : Statement (.storeRetentionTrip) := event rfl rfl rfl
theorem pciePerst (low : Bool) : Statement (.pciePerst low) := event rfl rfl rfl
theorem powerOnReset : Statement (.powerOnReset) := event rfl rfl rfl
theorem resetNAssert : Statement (.resetNAssert) := event rfl rfl rfl
theorem resetNRelease (env : StartEnv) : Statement (.resetNRelease env) := event rfl rfl rfl
theorem selfTestDone (unit : Fin 21) (pass : Bool) (cause : Byte) : Statement (.selfTestDone unit pass cause) := event rfl rfl rfl
theorem dbgAp (addr wdata : Word) (write consume go : Bool) : Statement (.dbgAp addr wdata write consume go) := event rfl rfl rfl
theorem dbgChal : Statement (.dbgChal) := event rfl rfl rfl
theorem dbgResp (scope reserved : Byte) (duration : Half) (pubX pubY sigR sigS : BitVec 256) : Statement (.dbgResp scope reserved duration pubX pubY sigR sigS) := event rfl rfl rfl
theorem extest : Statement (.extest) := event rfl rfl rfl
theorem extestExit (load : TapLoad) : Statement (.extestExit load) := event rfl rfl rfl
theorem debugSessionExpiry : Statement (.debugSessionExpiry) := event rfl rfl rfl
theorem dbgHalt (cores : BitVec 9) : Statement (.dbgHalt cores) := event rfl rfl rfl
theorem coreHalted (core : Fin 9) : Statement (.coreHalted core) := event rfl rfl rfl
theorem dbgResume (cores : BitVec 9) : Statement (.dbgResume cores) := event rfl rfl rfl
theorem dbgStep (cores : BitVec 9) : Statement (.dbgStep cores) := event rfl rfl rfl
theorem dbgLcnDataWrite (core : Fin 8) (value : Word) : Statement (.dbgLcnDataWrite core value) := event rfl rfl rfl
theorem pulseTrailingEdge (pin : Fin 32) : Statement (.pulseTrailingEdge pin) := event rfl rfl rfl
theorem gateBoundary (path : Fin 16) : Statement (.gateBoundary path) := event rfl rfl rfl
theorem coarseCounterUpdate : Statement (.coarseCounterUpdate) := event rfl rfl rfl
theorem mirrorLoaderFilled (t : Fin 16) : Statement (.mirrorLoaderFilled t) := event rfl rfl rfl
theorem class2CommandDone (t : Fin 16) (ok : Bool) (readback : BitVec 256) : Statement (.class2CommandDone t ok readback) := event rfl rfl rfl
theorem sectorEraseDone (ok : Bool) : Statement (.sectorEraseDone ok) := event rfl rfl rfl
theorem registerAcknowledge (domain : Fin 29) : Statement (.registerAcknowledge domain) := event rfl rfl rfl
theorem spitCsNRise (port : Fin 2) : Statement (.spitCsNRise port) := event rfl rfl rfl

end Sys2Proof.Laws.Row
end

