-- ==== Sys2Proof/Laws/Submit.lean ====
section
/-! SUPPORT. How a packet runs: the one way from `exec` of an opcode's row to its meaning. -/

namespace Sys2Proof.Machine

/-- The row of an opcode is its packet, submitted with its meaning. -/
theorem exec_of_meaning {i : Instr} {m : Meaning} (s : State) (h : meaningOf i = some m) : exec i s = fin (submit i m s) := by
  cases i <;> cases h <;> rfl

/-- A packet that reaches the interpreter is checked. -/
theorem submit_reaches {i : Instr} {m : Meaning} {r : Req} {s : State} (hr : reqOf i = some r)
    (h : reaches i s = true) : submit i m s = accept i r m s := by
  simp only [reaches, hr, Bool.and_eq_true, Bool.or_eq_true, decide_eq_true_eq, Bool.not_eq_true'] at h
  obtain ⟨⟨⟨⟨⟨⟨h1, h2⟩, h3⟩, h4⟩, h5⟩, h6⟩, h7⟩ := h
  have h5' : ¬ (r.origin.isNone = true ∧ 64 < (s.tenant r.tenant).replyQ.length) := by
    rintro ⟨a, b⟩
    rcases h5 with h5 | h5
    · cases ho : r.origin <;> simp [ho] at a h5
    · omega
  simp only [submit, hr, h1, h2, h3, h4, h6, h7, Bool.false_eq_true, if_false, Bool.not_true, Bool.or_self]
  rw [if_neg (by simpa using h5')]

/-- A packet that passes its checks is executed. -/
theorem submit_accepted {i : Instr} {m : Meaning} {r : Req} {s : State} (hr : reqOf i = some r) (hm : meaningOf i = some m)
    (h : accepted i s = true) : submit i m s = execute i r m s := by
  simp only [accepted, hr, hm, Bool.and_eq_true, decide_eq_true_eq] at h
  rw [submit_reaches hr h.1]
  simp only [accept, h.2]

/-- A packet that runs at once answers with its meaning's effect. -/
theorem runs_answers {i : Instr} {m : Meaning} {s : State} (hm : meaningOf i = some m) (h : runsAtOnce i s = true) :
    Answers i s (m.effect (m.copy s) s).2.1 (m.effect (m.copy s) s).2.2 (m.effect (m.copy s) s).1 := by
  simp only [runsAtOnce, Bool.and_eq_true] at h
  obtain ⟨⟨ha, hd⟩, hb⟩ := h
  cases hr : reqOf i with
  | none => simp [hr] at hb
  | some r =>
    simp only [hr, Bool.and_eq_true, decide_eq_true_eq, Bool.or_eq_true, Bool.not_eq_true'] at hb
    obtain ⟨⟨h8, h9⟩, h10⟩ := hb
    refine ⟨r, hr, ?_⟩
    rw [exec_of_meaning s hm, submit_accepted hr hm ha]
    have hg : ¬ (r.group ≠ 0 ∧ isGroupCmd i = false) := by
      rintro ⟨a, b⟩
      rcases h9 with h9 | h9
      · exact a h9
      · simp [h9] at b
    unfold execute
    rw [if_neg (by simpa using hg)]
    have h2 : ¬ (r.cls = 2) := by rw [h8]; decide
    rw [if_neg h2, if_pos h8, if_neg (by simp [h10]), runNow, Option.isNone_iff_eq_none.mp hd]
    rfl

/-- What it means that no check of R98 refuses a packet. -/
theorem refusal_none {i : Instr} {r : Req} {m : Meaning} {s : State} (h : refusal i r m s = none) :
    (opInfo i).classes.contains r.cls.toNat = true ∧ i.fits = true ∧ (opInfo i).fences.any (isFenced s) = false ∧
      m.authority s = true ∧ m.holds s = true ∧ unitCheck s r.tenant (opInfo i).auth (unitsOf i) = none ∧ groupCheck s r i = none ∧ timeCheck s r i = none ∧
      ownChecks s i m = none := by
  unfold refusal at h
  split at h
  · cases h
  split at h
  · cases h
  split at h
  · cases h
  split at h
  · cases h
  rename_i h1 h2 h3 h4
  have split : ∀ {a : Option Status} {f : Unit → Option Status}, a.orElse f = none → a = none ∧ f () = none := by
    intro a f h
    cases a with
    | none => exact ⟨rfl, h⟩
    | some x => cases h
  obtain ⟨a, h⟩ := split h
  obtain ⟨e, h⟩ := split h
  obtain ⟨b, h⟩ := split h
  obtain ⟨c, h⟩ := split h
  obtain ⟨_, h⟩ := split h
  have e' : m.holds s = true := by
    by_cases he : m.holds s = true
    · exact he
    · simp [he] at e
  exact ⟨by simpa using h1, by simpa using h2, by simpa using h3, by simpa using h4, e', a, b, c, h⟩

/-- No check of an opcode's own chapter fails when none of them refuses it. -/
theorem check_passes {i : Instr} {m : Meaning} {s : State} {st : Status} {b : Bool} (h : ownChecks s i m = none)
    (hx : (st, b) ∈ m.checks s) (hst : st ∈ checkOrder) : b = false := by
  unfold ownChecks firstFailed at h
  have := List.find?_eq_none.mp h st hst
  cases b with
  | false => rfl
  | true =>
    exfalso
    apply this
    simp only [List.any_eq_true]
    exact ⟨(st, true), by simp [hx], by simp⟩

/-- A packet that runs at once was accepted, and its checks found nothing. -/
theorem runs_passes {i : Instr} {m : Meaning} {r : Req} {s : State} (hr : reqOf i = some r) (hm : meaningOf i = some m)
    (h : runsAtOnce i s = true) : refusal i r m s = none := by
  simp only [runsAtOnce, accepted, hr, hm, Bool.and_eq_true, decide_eq_true_eq] at h
  exact h.1.1.2

end Sys2Proof.Machine
end

