-- ==== Sys2Proof/Tests/Slice0.lean ====
section
/-! SUPPORT. The author's tests: the states they use, ill-formed terms, worked cases of the spec, and for every statement that has
hypotheses a theorem that shows them met. -/

namespace Sys2Proof.Tests
open Sys2Proof.Machine

set_option Elab.async false

/-- The block at L3 with Root holding everything. -/
def demo : State := { State.reset with
  sys := { State.reset.sys with running := true, fresh := false, rst := 0, clkOk := 0x1FFFFFFF, resetN := true, tested := 0x1FFFFF, pllLock := 0x1F, refOk := true, coreMhz := 500 }
  last := { State.reset.last with coarse := false, valid := true }
  store := { State.reset.store with lost := false, keys := some 2 :: List.replicate 15 none ++ [some 1], draws := 2 } }

/-- Root's packet of class 0, and of class 2. -/
def root : Req := { tenant := 0, via := .pcie }
def root2 : Req := { tenant := 0, via := .pcie, cls := 2 }

def soon : Stamp := { sLo := 1 }
def gptp : GptpCfg :=
  { mode := 1, domain1 := 0, priority1 := 100, priority2 := 100, clockClass := 6, clockAccuracy := 0x21, logVariance := 0
    logSync := 0xFD, logPdelay := 0, logAnnounce := 0, syncTimeout := 3, announceTimeout := 3, flags := 1, timeSource := 0
    pdelayThresh := 800, clockId := 7 }
def aaf : AvtpCfg :=
  { stream := 3, port := 1, format := 2, nsr := 5, streamId := 9, destMac := 0x91E0F0000001, cls := 0, channels := 2, base := 0x100, presOffset := 200 }
def crf : CrfCfg :=
  { dir := 0, stream := 4, port := 1, cls := 0, streamId := 10, destMac := 0x91E0F0000002, mcg := 0, tsPerPdu := 6, baseFreq := 48000, tsInterval := 160 }
def single : TpinCfg := { pin := 5, mode := 2, edge := 0, flags := 0, source := 0, width := 400, period := 0, offset := 0 }
def reflex : ReflexCfg := { path := 1, inPin := 2, outPin := 3, mode := 0, delay := 4000, width := 400 }
def window : WindowCfg := { path := 1, base := 1, fsg := 0, openAt := 0, length := 262144, period := 0 }
def fsg25 : FsgCfg := { fsg := 2, num := 25, den := 1, width := 4000, phase := 0, minFrame := 40000000 }
def map1 : MapCfg := { port := 0, dir := 0, rate := 1, kind := 1, slot := 0, count := 8, ch := 0, fwdPort := 0, fwdSlot := 0 }
def tdm : AportCfg :=
  { port := 2, format := 0, role := 0, mcg := 0, rate := 0, slots := 2, slotWidth := 32, word := 24, frameBits := 64, flags := 0, dIn := 4, dOut := 4
    preroll := 0, postroll := 0, fadeLen := 64 }
def hold1 : HoldCfg := { en := 1, after := 0, keep := 1, holdTime := 60, vMin := 5000, shunt := 100 }
def bal1 : BalanceCfg := { cells := 4, mode := 1, charge := 1, balTimeout := 4, balTarget := 2500, balWindow := 50, vOv := 2700 }
def chain1 : ChainCfg := { core := 0, slot := 0, family := 0, rate := 0, block := 16, inKind := 0, inFrom := 0, outKind := 0, outFirst := 0 }
def kernel1 : Kernel :=
  { tri := false, inCh := 1, outCh := 1, params := 2, init := 0, block := 0, pmBase := 0, pmWords := 4, xmBase := 0, xmWords := 256, ymBase := 0
    ymWords := 256, inBuf := 0, outBuf := 0, prmBuf := 64, fix := 10, per := 1, crc := 0 }

/-- The same block with something configured in every unit. -/
def rig : State := { demo with
  tenants := updAt (updAt demo.tenants 3 fun _ => { st := .open, transports := 15 }) 0 fun n => { n with
    groups := [{ num := 1, staged := [{ gseq := 1, entries := 1, cmd := .prismXpClear { root with group := 1, gseq := 1 } [{ source := 1, bus := 1 }] }] }]
    scenes := [{ scene := 1, page := 2, offset := 0, entries := 0, bytes := 64 }] }
  eth := { demo.eth with
    ports := updAt demo.eth.ports 1 fun q => { q with mode := 1, link := true, mac := some 2, idleA := 100000000 }
    talkers := updAt demo.eth.talkers 3 fun x => { x with cfg := some (.aaf aaf) }
    listeners := updAt demo.eth.listeners 3 fun x => { x with cfg := some (.aaf { aaf with presOffset := 0 }) } }
  trig := { demo.trig with
    pins := updAt (updAt (updAt demo.trig.pins 5 fun n => { n with mode := 2, width := 400 }) 2 fun n => { n with mode := 1, edge := 1 }) 3 fun n =>
      { n with mode := 6 }
    fsgs := updAt demo.trig.fsgs 2 fun f => { f with cfg := some { num := 25, den := 1, width := 4000, phase := 0, minFrame := 40000000 } } }
  plink := { demo.plink with
    ports := updAt demo.plink.ports 0 fun q => { q with st := 2, role := 2, rateTx := 1, rateRx := 1 }, root := true, rooted := true, nodes := 1
    fabric := some { fid := 1, tenant := 0, by_ := 0, group := 1, prepared := true, ready := 1 } }
  audio := { demo.audio with
    mcgs := updAt demo.audio.mcgs 0 fun m => { m with mode := 1, mult := 1 }
    ports := updAt demo.audio.ports 2 fun q => { q with cfg := some tdm } }
  prism := { demo.prism with xps := [{ source := 1, bus := 1, code := 0 }] }
  lens := updAt demo.lens 0 fun c => { c with slots := [{ st := 1, kernel := some kernel1 }, { st := 2, kernel := some { kernel1 with inCh := 0, outCh := 0 }, chain := some { chain1 with slot := 1 } }, {}, {}], family := 0, block := 16 } }

/-! States in which something waits, runs or is due. -/

/-- A step that goes on. -/
def goes (o : Out) : Bool := match o with | .next _ => true | _ => false

/-- A class 2 command of Root runs. -/
def running (i : Instr) (s : State) : State := modTenant 0 (fun n => { n with class2 := [{ cmd := i }] }) s

def late : Pending := { cmd := .rateSet { root with cls := 1 } 5, due := 0, timed := true }
def full : State := modTenant 0 (fun n => { n with outFull := true }) demo
def acquiring : State := { demo with last := { demo.last with src := 0x10, servo := .acquire } }
def hold5 : HeldAccess := { domain := 5, who := .debug, addr := 0x40030104, size := 4, value := 0 }
def frame : EthFrame := { fcsOk := true, dest := 0, etherType := 0x0800, streamId := 0, bytes := [], tap := 0, ownSet := false, ringUp := true }
def ptp : State := modEthPort 1 (fun q => { q with d0 := { role := 2, set := some 2 } }) { rig with eth := { rig.eth with gptp := { rig.eth.gptp with mode := 1 } } }
def waiting : State := modEthPort 1 (fun q => { q with d0 := { q.d0 with waiting := some (4, 0, 0) } }) ptp
def bmca : State := modEthPort 1 (fun q => { q with asCapable := true }) { rig with eth := { rig.eth with gptp := { rig.eth.gptp with mode := 2, clockId := 7 } } }
def master : State := modEthPort 1 (fun q => { q with d0 := { role := 1 }, asCapable := true }) { rig with eth := { rig.eth with gptp := { rig.eth.gptp with mode := 1 } } }
def heard : State := modEthPort 1 (fun q => { q with d0 := { q.d0 with lastSync := some 0 } }) { ptp with last := { ptp.last with cycles := 10 ^ 12 } }
def heardB : State := modEthPort 1 (fun q => { q with d0 := { q.d0 with lastAnn := some 0 } }) { bmca with last := { bmca.last with cycles := 10 ^ 12 } }
def streams : State := modStream true 4 (fun x => { x with cfg := some (.crf crf), state := 1 })
  (modStream true 3 (fun x => { x with state := 1, collected := [[1, 2]] }) (modStream false 3 (fun x => { x with state := 1 })
    { rig with last := { rig.last with counter := timeOf soon } }))
def pulsing : State := modFsg 2 (fun f => { f with running := true }) (modPin 5 (fun n => { n with falls := [7], active := true }) rig)
def linked : State := modPl 0 (fun q => { q with role := 1 }) { rig with plink := { rig.plink with root := false, addr := 5 } }
def enuming : State := { rig with plink := { rig.plink with
  enumRun := some { port := 0, next := 1, limit := 100, setSource := false, isRoot := true, tenant := 0, blocked := 0, again := false } } }
def armed : State := { linked with plink := { linked.plink with armed := some { fid := 1, tenant := 0, group := 1 } } }
def rem : State := modTenant 0 (fun n => { n with remote := [(0x0001, 9, 0)] }) rig
def slave : State := modAport 2 (fun q => { q with cfg := some { tdm with role := 1 }, st := 2, locked := true, goodRun := 4 }) rig
/-- Root's command waits for its swap. -/
def due (i : Instr) : State := modTenant 0 (fun n => { n with pend := [{ cmd := i, due := 0, timed := false }] }) rig
def loud : State := modBus 127 (fun q => { q with auto := true, range := 1, below := 24000 }) rig
/-- A live kernel on core 0 whose program memory holds these words. -/
def live (pm : List (Nat × Word)) : State := modLens 0 (fun c => { c with pm := pm, run := some { blk := 0, out := 0, slot := 0, init := false, rest := [] } }) rig
def holds (i : Instr) : State := match lensEncode i with
  | some w => live [(0, w.setWidth 32), (1, (w >>> 32).setWidth 32), (3, 0x10000000), (5, 0x10000000)]
  | none => live []
def session : Session := { source := 3, scope := 16, left := some 60, since := 0 }
def attached : State := { rig with dbg := { rig.dbg with session := some session } }
def m0 : MatrixReq := { master := 0, target := 0, tag := 0, write := false, lock := false, addr := 0, beats := 1, data := [], enables := [] }
def desc1 : Descriptor := { cBase := 0x80000, cSize := 0x10000, dumpBase := 0x90000, tick := 60 }
def logging : State := { rig with evrec := { rig.evrec with bService := true, settled := true, cState := 2, desc := some desc1 } }
def dump1 : Dump := { slot := 0, trigger := 0, freeze := 0, header := true, hours := 0, raw := false, valid := false, time := 0 }
def watched : State := { rig with wdog := { rig.wdog with running := true, c := 5 } }
def quiet : State := { rig with pwr := { rig.pwr with mode := .quiet } }
def stacked : State := { rig with pwr := { rig.pwr with
  en := true, cells := 4, measured := true, vMin := 5000, balMode := true, hbOk := true, volts := List.replicate 4 25000 ++ List.replicate 8 0 } }
def held : State := { stacked with pwr := { stacked.pwr with mode := .holdover, released := true, holdEn := true, mainOk := true, holdTime := 60 } }
def image1 : FwSlot := { seq := 1, version := 2, rollback := 0, size := 1024, failing := 0 }
/-- The staging pages hold nothing. -/
def blank : State := rig

/-! WellFormed refuses a term that breaks each of its checks. -/

def cellFrame (n : Nat) (audio : List (List Word)) : PlFrame :=
  { time := none, dirOk := true, audioOk := 0, audio := audio, cells := n, expBad := 0, tap := 0 }
def packet (payload : List Byte) (stamps : List DWord) : AvtpPkt :=
  { (default : AvtpPkt) with payload := payload, stamps := stamps }

theorem test_illFormed_fwWrite : (Instr.fwWrite root2 0 [1, 2, 3]).wellFormed = false := by decide
theorem test_illFormed_pageWrite : (Instr.pageWrite root 1 0 (List.replicate 996 0)).wellFormed = false := by decide +kernel
theorem test_illFormed_xpSet :
    (Instr.prismXpSet root (List.replicate 126 { source := 0, bus := 0, gain := 0 })).wellFormed = false := by decide +kernel
theorem test_illFormed_xpClear :
    (Instr.prismXpClear root (List.replicate 251 { source := 0, bus := 0 })).wellFormed = false := by decide +kernel
theorem test_illFormed_lensParam :
    (Instr.lensParam root (List.replicate 126 { core := 0, slot := 0, word := 0, value := 0 })).wellFormed = false := by
  decide +kernel
theorem test_illFormed_frameStart : (Instr.portFrameStart 0 (List.replicate 1025 false)).wellFormed = false := by decide +kernel
theorem test_illFormed_ethFrame :
    (Instr.ethFrameRx 1 { frame with bytes := List.replicate 2001 0 }).wellFormed = false := by decide +kernel
theorem test_illFormed_avtpPayload : (Instr.avtpPacket 1 (packet (List.replicate 1501 0) [])).wellFormed = false := by decide +kernel
theorem test_illFormed_avtpStamps : (Instr.avtpPacket 1 (packet [] (List.replicate 9 0))).wellFormed = false := by decide +kernel
theorem test_illFormed_linkAudio : (Instr.plinkFrame 0 (cellFrame 0 [List.replicate 25 0])).wellFormed = false := by decide +kernel
theorem test_illFormed_linkBlocks : (Instr.plinkFrame 0 (cellFrame 0 (List.replicate 1025 []))).wellFormed = false := by decide +kernel
theorem test_illFormed_linkCells : (Instr.plinkFrame 0 (cellFrame 33 [])).wellFormed = false := by decide
theorem test_illFormed_crfStamps : (Instr.crfPduSend { stream := 4, ages := [1, 2] }).wellFormed = false := by decide
theorem test_illFormed_commandCell : (Instr.commandCell 0 { entry := 0, cell := List.replicate 257 0 }).wellFormed = false := by decide +kernel
theorem test_illFormed_cells : (Instr.cellMeasurement (List.replicate 13 0) 0).wellFormed = false := by decide
theorem test_illFormed_burst : (Instr.storeAccess [{ m0 with data := List.replicate 513 0 }]).wellFormed = false := by decide +kernel
theorem test_illFormed_enables :
    (Instr.storeAccess [{ m0 with enables := List.replicate 513 true }]).wellFormed = false := by decide +kernel
theorem test_wellFormed : (Instr.pageWrite root 1 0 (List.replicate 992 0)).wellFormed = true := by decide +kernel

/-! The worked cases of the spec. -/

/-- The example after R43: 65.00 degC gives rt = -659,707 units. -/
theorem test_tempTerm : tempTerm { theta0 := 2500, c1 := -15000 } 6500 = -659707 := by decide
/-- 04, worked case: 1,800 commands of 3 entries divide into epochs of 1,365 and 435. -/
theorem test_epochs :
    (let l := takeEpoch 0 (List.replicate 1800 { gseq := 1, entries := 3, cmd := .groupAbort root }); (l.1.length, l.2.length)) =
      (1365, 435) := by decide +kernel
/-- Table 4.17: the GROUP_COMMIT packet. -/
theorem test_packet : readPacket { tenant := 3, via := .pcie } (withCrc (le 4 0x11000020 ++ le 4 0x00A50003 ++ le 4 0x00420000 ++
    le 4 0 ++ le 4 0 ++ le 4 0x66142D81 ++ le 4 0)) = .inr (.groupCommit { tenant := 3, via := .pcie, cls := 1, tag := 0xA5
                                                                           group := 0x42, apply := { sLo := 0x66142D81 } }) := by
  decide +kernel
/-- 04, worked case: the S_SPLIT reply's W0 and W1. -/
theorem test_splitReply : (replyBytes (mkReply { root with tag := 0xA5 } 0x0020 .split 0 (List.replicate 12 0))).take 8 =
    le 4 0x010A0020 ++ le 4 0x00A50003 := by decide +kernel
/-- 07, worked case: the start n2 of the 30000/1001 grid is S.148966666.75. -/
theorem test_fsgStart : fsgStart { num := 30000, den := 1001, width := 0, phase := 0, minFrame := 0 }
    ((1712598403 * 30000 + 4469) / 1001) = 4 * 1712598403148966666 + 3 := by decide +kernel
/-- 09, worked case: g_out(31) of a fade of 64 is 0.5, and g_out(63) is 0. -/
theorem test_fade : gainOut 64 31 = 2 ^ 30 ∧ gainOut 64 63 = 0 := by decide +kernel
/-- 10, worked case: code -600, the words of 0.85 and of 1.30, and the step up to range +12. -/
theorem test_gain : linGain (-600) = 0x04026E74 := by decide +kernel
theorem test_busRange : busWord (85 * 2 ^ 35 / 100) 0 = 0x6CCCCCCD ∧ aboveUp (85 * 2 ^ 35 / 100) 0 = true ∧
    fitRange (13 * 2 ^ 35 / 10) = 1 ∧ busWord (13 * 2 ^ 35 / 10) 1 = 0x2999999A := by decide +kernel
/-- The Advice after Table 11.9: the encoding of the MAC4 of the worked case of 11. -/
theorem test_mac4 : lensDecode 2 0x20C044070181D160 = some (.lMac4 2 0 0 8 true false
    { kind := 1, pair := true, reg := 8, ptr := 0, upd := 1, modl := true }
    { kind := 1, pair := true, reg := 10, ptr := 1, upd := 1, modl := true }) := by decide +kernel
/-- 11, worked case: the budget at 800 MHz, B = 32 and GUARD 256. -/
theorem test_budget : budgetOf { demo with sys := { demo.sys with coreMhz := 800 } } { (demo.core 2) with block := 32 } = 483077 := by
  decide +kernel
/-- 14, worked case: P of a PERIOD of 100 ms and W with WD_WINFRAC 5. -/
theorem test_watchdogSpans :
    (let s : State := { demo with wdog := { demo.wdog with period := 100 }, sys := { demo.sys with shadow := [{ field := 3, value := 5 }] } }
     (wdP s, wdW s)) = (1600000, 1000000) := by decide +kernel

/-! The hypotheses of each statement of Certificates/Slice0/Obligations.lean, met: each theorem is named after its statement and
lists, clause by clause, states and operands that meet the premises. -/

/-- An action of pin 5 whose launch falls now, whatever the pad delay is. -/
def dueAction : PinAction := { handle := 0, time := ofPs (Config.padOut 5), action := 1, fireLate := false }
def acting : State := modPin 5 (fun n => { n with actions := [dueAction], next := some dueAction.time }) rig

theorem acting_due : dueNow acting (launchOf acting 5 dueAction.time) = true := by
  have h : launchOf acting 5 dueAction.time = quarterOf (ofPs (Config.padOut 5) - ofPs (Config.padOut 5 + 0)) := rfl
  rw [h, Int.add_zero, Int.sub_self]
  decide +kernel

/-- A pin with a scheduled action and a grid pulse due now meets the hypotheses of the pin events. -/
theorem witness_PinEvents_actions :
    (acting.pin 5).mode = 2 ∧ pinsRun acting 5 = true ∧ (acting.pin 5).actions.filter (fun a => a.late) = [] ∧
      earliest (acting.pin 5).actions = some dueAction ∧ (acting.pin 5).next = some dueAction.time ∧ (acting.pin 5).falls = [] ∧
      heldBack acting (acting.pin 5) = false :=
  ⟨by decide +kernel, by decide +kernel, rfl, rfl, rfl, rfl, rfl⟩

theorem witness_TimeSetAndStep_outOfRange : runsAtOnce (.timeStep root (-65536000000000000)) demo = true ∧
    inRange (cycleEnd demo + ofFrac (-65536000000000000 : DWord).toInt) = false := by decide +kernel

theorem witness_LastStartsAtZero :
    ((decide (({ demo with pwr := { demo.pwr with mode := .off } } : State).pwr.mode = .off))) = true := by decide +kernel

theorem witness_StepKeepsShape :
    ((shaped demo) &&
    (goes (step rig))) = true := by decide +kernel

theorem witness_RefusedPacketIsNotExecuted :
    ((reaches (.wdogConfig root 0) demo) &&
    (decide (refusal (.wdogConfig root 0) root (wdogConfigM root 0) demo = some .range))) = true := by decide +kernel

theorem witness_ReportsChangeNothing :
    ((([.sysInfo root, .groupStatus { root with group := 1 }, .fuseRead root 8, .timeGet root, .lastStatus root, .calGet root 1 0 0,
      .pageInfo root, .pageRead root 3 0 8, .ethPortStatus root 1, .gptpStatus root 0, .avtpStreamStatus root 0 3, .fsgStatus root 2,
      .plinkStatus root 0, .plinkTopology root, .plinkDelayGet root 0, .mcgMeasure root 0, .aportStatus root 2, .prismStatus root 1,
      .sceneList root, .mirrorStatus root, .lensStatus root 0, .evrecStatus root, .wdogStatus root, .superviseStatus root,
      .powerStatus root, .stackStatus root, .dbgStatus root] : List Instr).all (fun i => runsAtOnce i rig))) = true := by decide +kernel

theorem witness_TenantsOpenAndClose :
    ((runsAtOnce (.tenantOpen root 4 1) rig) &&
    (runsAtOnce (.tenantClose root 3) rig) &&
    (runsAtOnce (.tenantClose root 3) (modTenant 3 (fun n => { n with st := .closing }) rig)) &&
    (shaped (modTenant 3 (fun n => { n with st := .closing }) rig))) = true := by decide +kernel

theorem witness_GrantMovesUnits :
    ((runsAtOnce (.grant root 3 1 0 2048) rig) &&
    (runsAtOnce (.grant root 3 8 0 1) rig) &&
    (reaches (.grant root 3 1 0 6) { rig with owners := [(1, 5, 3)] }) &&
    (badUnits 1 0 6 = false) &&
    (decide (ownerOf { rig with owners := [(1, 5, 3)] } 1 5 ≠ 0))) = true := by decide +kernel

theorem witness_RevokeReturnsUnits :
    ((runsAtOnce (.revoke root 3 1 5 1) { rig with owners := [(1, 5, 3)] }) &&
    (decide (ownerOf { rig with owners := [(1, 5, 3)] } 1 5 = 3))) = true := by decide +kernel

theorem witness_StagingStages :
    ((accepted (.prismXpClear { root with group := 2, gseq := 1 } [{ source := 1, bus := 1 }]) rig)) = true := by decide +kernel

theorem witness_SwapCommandsWait :
    ((accepted (.prismXpClear root [{ source := 1, bus := 1 }]) rig) &&
    (atSwap (.prismXpClear root [{ source := 1, bus := 1 }])) &&
    (accepted (.groupCommit { root with group := 1 }) rig)) = true := by decide +kernel

theorem witness_EpochsAndGroupCommands :
    ((accepted (.groupCommit { root with group := 1 }) rig) &&
    (runsAtOnce (.groupAbort { root with group := 1 }) rig) &&
    ((groupOf (rig.tenant 0) 1).isSome)) = true := by decide +kernel

theorem witness_TimedCommandsWait :
    ((accepted (.rateSet { root with cls := 1, apply := soon } 5) demo) &&
    (!tooClose demo { root with cls := 1, apply := soon } (.rateSet { root with cls := 1, apply := soon } 5))) = true := by decide +kernel

theorem witness_TimedCommandTakesEffect :
    ((fwRuns demo) &&
    ((firstDue demo 0 (demo.tenant 0).pend).isNone) &&
    (decide (firstDue demo 0 [late] = some (late, []))) &&
    (!outranked demo 0 late) &&
    (outranked (modTenant 1 (fun n => { n with pend := [{ late with cmd := .timeStep { root with tenant := 1, cls := 1 } 5 }] }) demo) 2 late) &&
    (isStep (.timeStep root 5)) &&
    (silentDomain demo late.cmd = none) &&
    (silentDomain { demo with sys := { demo.sys with stopped := 8 } } (.timeStep root 5) = some 3) &&
    (decide (judgeAgain demo late.cmd (rateSetM 5) = none)) &&
    (decide (judgeAgain { demo with last := { demo.last with src := 0x10 } } late.cmd (rateSetM 5) = some .busy))) = true := by decide +kernel

theorem witness_Class2CommandsQueue :
    ((accepted (.pageCopy root2 1 2) demo)) = true := by decide +kernel

theorem witness_ReplyGoesToTheOutbox :
    ((decide ((demo.tenant 0).st = .open)) &&
    (decide ((full.tenant 0).st = .open)) &&
    ((full.tenant 0).outFull)) = true := by decide +kernel

theorem witness_EyeletAccesses :
    ((eyeletUp demo 0 .pcie) &&
    (canTake demo 0) &&
    ((modTenant 0 (fun n => { n with inboxBusy := true }) demo |>.tenant 0).inboxBusy) &&
    (canTake (modTenant 0 (fun n => { n with inboxBusy := true }) demo) 0) &&
    (!canTake { demo with pwr := { demo.pwr with entering := .sleep } } 0) &&
    (eyeletUp { demo with pwr := { demo.pwr with entering := .sleep } } 0 .pcie) &&
    (admitted (modTenant 0 (fun n => { n with ringEn := true, cTail := 1 }) demo) 0 .pcie) &&
    (viaUp demo .pcie) &&
    (eyeletAny demo 0) &&
    (eyeletUp demo 0 .spit0) &&
    (!eyeletUp demo 5 .pcie) &&
    (eyeletUp demo 15 .pcie = false)) = true := by decide +kernel

theorem witness_RingConfig :
    ((eyeletAny demo 0) &&
    (eyeletAny (modTenant 0 (fun n => { n with ringEn := true, clog2 := 4, rlog2 := 4 }) demo) 0)) = true := by decide +kernel

theorem witness_TimeSetAndStep :
    ((([.timeSet root soon 37 1, .timeStep root 5, .timeStep root (-65536)] : List Instr).all (fun i => runsAtOnce i demo)) &&
    (inRange (cycleEnd demo + ofFrac 5)) &&
    (!inRange (cycleEnd demo + ofFrac (-65536 * 10))) &&
    (decide (cycleEnd demo < timeOf soon))) = true := by decide +kernel

theorem witness_SteeringIsBusyUnderASource :
    (((let r := { root with cls := 1, apply := soon }; let s : State := { demo with last := { demo.last with src := 0x10 } }; reaches (.rateSet r 5) s &&
      (opInfo (.rateSet r 5)).classes.contains r.cls.toNat && decide (timeCheck s r (.rateSet r 5) = none) &&
      decide (timedCount (s.tenant 0) < 64))) &&
    (reaches (.timeStep root 5) { demo with last := { demo.last with src := 0x10 } }) &&
    (decide (ownerOf demo 8 0 = 0))) = true := by decide +kernel

theorem witness_SteeringCommands :
    ((([.rateSet root 7, .timeAdjust root 5 1000, .timeAdjust root 0 1000, .sourceSet root 0x10 0, .sourceSet root 0 0,
      .servoConfig root 1000 100 200 1000 8 100] : List Instr).all (fun i => runsAtOnce i demo))) = true := by decide +kernel

theorem witness_CalSetChangesOneUserTerm :
    ((([.calSet root 1 31 0 5, .calSet root 2 3 1 5, .calSet root 3 3 0 5, .calSet root 4 0 2 5,
      .calSet root 5 11 0 5] : List Instr).all (fun i => runsAtOnce i demo))) = true := by decide +kernel

theorem witness_TimeCyclesAndSlews :
    ((domainUp demo 3) &&
    (decide ((5 : Int).natAbs ≤ (slewExtra demo.last { left := 5, ppb := 1000 }).natAbs))) = true := by decide +kernel

theorem witness_ServoStepsOnlyInAcquire :
    ((decide ((servoSample (-(ofNs 20000)) acquiring).last.counter ≠ acquiring.last.counter))) = true := by decide +kernel

theorem witness_LastEvents :
    ((decide (({ demo with last := { demo.last with src := 0x10 } } : State).last.src ≠ 0)) &&
    (State.reset.last.coarse) &&
    (decide (State.reset.sys.refclkHz = 25000000))) = true := by decide +kernel

theorem witness_ClockLossAndReturn :
    ((demo.sys.refOk) &&
    (decide (demo.sys.pllLock ≠ 0)) &&
    (demo.sys.clkOk.getLsbD 25) &&
    (!State.reset.sys.clkOk.getLsbD 25)) = true := by decide +kernel

theorem witness_RegisterBridge :
    (((heldFor { demo with sys := { demo.sys with held := [hold5] } } 5).isSome) &&
    ((heldFor { demo with sys := { demo.sys with held := [{ hold5 with waiting := true }] } } 5).isSome) &&
    ((regFence 0x40010000).any (isFenced { demo with sys := { demo.sys with fenced := 1 } }))) = true := by decide +kernel

theorem witness_EtherCommands :
    ((([.ethPortConfig root 1 1 2 2, .gptpConfig root gptp, .gptpPortRole root 1 1 3, .cbsConfig root 1 1000 1000,
      .ethRxFilter root 1 1 4 0x1000, .avtpTalkerConfig root aaf, .avtpListenerConfig root { aaf with presOffset := 0 },
      .crfConfig root crf, .avtpStreamStart root 0 3, .avtpStreamStart root 1 3, .avtpStreamStop root 0 3] : List Instr).all (fun i =>
      runsAtOnce i rig))) = true := by decide +kernel

theorem witness_EtherFrames :
    ((portUp ptp 1) &&
    (decide ((ptp.ethPort 1).link ≠ false)) &&
    (!listenerFor ptp 1 frame) &&
    (!wanted ptp 1 frame) &&
    (wanted { ptp with eth := { ptp.eth with rxPorts := 2, rxBase := 0x1000, rxActions := 2, rxLog2 := 4 } } 1 { frame with dest := 1 }) &&
    (shaped ptp)) = true := by decide +kernel

theorem witness_PtpMessagesAndIntervals :
    ((portUp ptp 1) &&
    (portSends ptp 1) &&
    (domainOn ptp false) &&
    (decide ((ptpRole (ptp.ethPort 1) false).role = 2)) &&
    (decide ((ptpRole (waiting.ethPort 1) false).waiting = some (4, 0, 0))) &&
    (portUp waiting 1) &&
    (domainOn bmca false && portUp bmca 1 && (bmca.ethPort 1).asCapable) &&
    (decide (((modEthPort 1 (fun q => { q with req := some (4, 9), resp := some (4, 9, 9) }) ptp).ethPort 1).req = some (4, 9))) &&
    (isGrandmaster master false) &&
    (!isGrandmaster ptp false) &&
    (decide ((ptp.ethPort 1).req = none)) &&
    (decide (0 + ptp.eth.gptp.syncTimeout * intervalCycles ((ptpRole (heard.ethPort 1) false).logSync.getD heard.eth.gptp.logSync) ≤ heard.last.cycles)) &&
    (decide (0 + heardB.eth.gptp.announceTimeout * intervalCycles ((ptpRole (heardB.ethPort 1) false).logAnn.getD heardB.eth.gptp.logAnnounce) ≤ heardB.last.cycles)) &&
    (domainOn heardB false) &&
    (decide ((ptpRole (heardB.ethPort 1) false).lastAnn = some 0))) = true := by decide +kernel

theorem witness_AvtpPackets :
    ((decide ((streams.stream false 3).state ≠ 0)) &&
    (decide ((streams.stream true 3).collected ≠ [])) &&
    (portSends streams 1) &&
    (decide ((streams.stream true 4).state = 1)) &&
    (!boundaryAfter streams (mcgHz (streams.mcg 0).mult (streams.mcg 0).family) ((streams.stream true 4).firstB + ((crf.tsPerPdu.toNat - 1) * crf.tsInterval.toNat : Nat)) streams.now 0) &&
    (shaped streams)) = true := by decide +kernel

theorem witness_PinCommands :
    ((([.tpinConfig root single, .tpinConfig root { single with pin := 31 }, .tpinSchedule root 5 1 0 soon, .tpinCancel root 5 0xFFFF,
      .tpinCaptureRead root 2 4, .reflexWindow root window, .fsgConfig root fsg25, .fsgStart root 2,
      .fsgStop root 2] : List Instr).all (fun i => runsAtOnce i rig)) &&
    (([.tpinConfig root single, .fsgConfig root fsg25] : List Instr).all (fun i => runsAtOnce i pulsing)) &&
    (shaped pulsing) &&
    (decide ((pulsing.pin 5).falls ≠ [])) &&
    ((pulsing.fsg 2).running)) = true := by decide +kernel

/-- REFLEX_CONFIG of an input pin in CAPTURE and an output pin in REFLEX, with a trim that no factory delay makes negative. -/
theorem witness_PinCommands_reflex : runsAtOnce (.reflexConfig root reflex) rig = true := by
  have h : decide (trimOf rig.last.cal 1 4000 2 3 < 0) = false := by
    have e : latencyOf rig.last.cal 4000 2 3 = 1005000 := by decide +kernel
    simp only [trimOf, e, dFix, roundEarly, decide_eq_false_iff_not]
    omega
  have c : ownChecks rig (.reflexConfig root reflex) (reflexConfigM reflex) = none := by
    show firstFailed [(_, _), (_, _ || decide (trimOf rig.last.cal 1 4000 2 3 < 0)), (_, _)] = none
    rw [h]
    decide +kernel
  have a : refusal (.reflexConfig root reflex) root (reflexConfigM reflex) rig = none := by
    simp only [refusal, c]
    decide +kernel
  show ((_ && decide (refusal (.reflexConfig root reflex) root (reflexConfigM reflex) rig = none)) && _ && _) = true
  rw [a]
  decide +kernel

theorem witness_PinEvents :
    ((decide ((rig.pin 2).mode = 1)) &&
    (trigRuns rig) &&
    (pinsRun rig 5) &&
    ((earliest [({ handle := 0, time := 5, action := 1, fireLate := false } : PinAction)]).isSome) &&
    (decide (7 < elapsedQ pulsing + 8)) &&
    (dueNow pulsing (fsgStart { num := 25, den := 1, width := 4000, phase := 0, minFrame := 40000000 } (pulsing.fsg 2).k)) &&
    ((pulsing.fsg 2).cfg = some { num := 25, den := 1, width := 4000, phase := 0, minFrame := 40000000 }) &&
    (eyeletAny demo 0)) = true := by decide +kernel

theorem witness_FabricCommands :
    ((accepted (.plinkEnumerate root2 0) demo) &&
    (runsAtOnce (.plinkAudioMap root map1) rig) &&
    (accepted (.fabricPrepare root2 1 0 1) rig) &&
    (accepted (.fabricApply { root with cls := 1, apply := soon } 1) rig) &&
    (runsAtOnce (.fabricAbort root 1) rig) &&
    (endsWell 0 (.plinkEnumerate root2 0) (running (.plinkEnumerate root2 0) demo)) &&
    (endsWell 0 (.fabricPrepare root2 1 0 1) (running (.fabricPrepare root2 1 0 1) rig))) = true := by decide +kernel

theorem witness_LinkEvents :
    ((plinkRuns rig) &&
    (laneUp rig 1) &&
    (decide ((rig.pl 1).st = 0)) &&
    (decide ((rig.pl 0).st ≠ 0)) &&
    (hears rig 0) &&
    (!(rig.pl 0).txLog.head?.any (fun x => x.1 = frameIndex (launchIndex rig * frameU))) &&
    ((routePort linked 2).isSome && hears linked 0) &&
    (hears rig 0 && rig.plink.rooted && decide (rig.plink.addr = 0)) &&
    (shaped rig) &&
    (shaped linked)) = true := by decide +kernel

theorem witness_FabricCells :
    ((hears rig 0 && rig.plink.root) &&
    (hears linked 0 && !linked.plink.root) &&
    (awaits enuming 0 0) &&
    (decide ((linked.pl 0).role = 1)) &&
    (decide ((rig.pl 0).role = 2)) &&
    ((armedWaiting armed).isSome && hears armed 0 && decide ((armed.pl 0).role = 1)) &&
    (decide (armed.now + ofNs 20000 ≤ applyTime soon)) &&
    (decide (applyTime {} < armed.now + ofNs 20000)) &&
    ((({ rig with plink := { rig.plink with fabric := some { fid := 1, tenant := 0, by_ := 0, group := 1 } } } : State).plink.fabric).any (fun f =>
      !f.prepared)) &&
    ((rem.tenant 0).remote.any (fun x => x.2.1 = 9 && x.2.2 = 0))) = true := by decide +kernel

theorem witness_AudioCommands :
    ((([.mcgConfig root 3 1 0 2 0, .aportConfig root tdm, .aportStart root 2, .aportStop root 2, .aportMask root 2 3 3,
      .aportRate root 2 0 0] : List Instr).all (fun i => runsAtOnce i rig)) &&
    (([.aportStop root 2, .aportMask root 2 3 3, .aportRate root 2 0 1] : List Instr).all (fun i => runsAtOnce i (modAport 2 (fun q =>
      { q with st := 2 }) rig))) &&
    (([.aportStop root 2] : List Instr).all (fun i => runsAtOnce i (modAport 2 (fun q => { q with st := 4 }) rig))) &&
    (([.aportStop root 2] : List Instr).all (fun i => runsAtOnce i (modAport 2 (fun q => { q with st := 3 }) rig)))) = true := by decide +kernel

theorem witness_AudioEvents :
    ((frameOk rig 2 tdm) &&
    (slaveRuns (slave.aport 2)) &&
    (decide ((slave.aport 2).locked)) &&
    (fadesEnded (rig.aport 2).inp) &&
    (commonBoundary (portFs (rig.aport 2)) (fsOf 0 1) (boundaryUpTo rig (portFs (rig.aport 2)) rig.now)) &&
    (domainUp rig 4) &&
    (decide (rig.pwr.entering = .none))) = true := by decide +kernel

theorem witness_SwapTakesEffect :
    ((([.prismXpClear root [{ source := 1, bus := 1 }], .prismXpSet root [{ source := 1, bus := 1, gain := 0 }],
      .prismRoute root 5 1 0, .prismRoute root 5 0xFFFF 0, .prismInputClass root 5 1 0, .prismBusConfig root 127 0 0 1 0,
      .prismBusConfig root 127 0 0 0 2, .prismBusRange root 127 1, .lensParam root [{ core := 0, slot := 0, word := 1, value := 5 }],
      .sceneRecall root 1] : List Instr).all (fun i => swapsAt (due i) 0 (swapPoint (due i) 0) { cmd := i, due := 0, timed := false, loaded := true } &&
      !(opInfo i).fences.any (stoppedByHoldover (due i)))) &&
    (swapsAt (due (.groupCommit { root with group := 1 })) 0 (swapPoint (due (.groupCommit { root with group := 1 })) 0) { cmd := .groupCommit { root with group := 1 }, due := 0, timed := false, loaded := true }) &&
    (shaped rig) &&
    (coreShaped (rig.core 0)) &&
    (domainUp rig 2) &&
    ((nth (rig.core 0).slots 0).kernel.isSome) &&
    (decide (rig.plink.armed = none)) &&
    ((groupOf (rig.tenant 0) 1).any fun g => decide ((takeEpoch 0 g.staged).2 = []) && g.staged.all (fun x =>
      (opInfo x.cmd).groupable))) = true := by decide +kernel

theorem witness_MirrorCommands :
    ((([.prismDirectGain root 1 1 0, .sceneDelete root 1] : List Instr).all (fun i => runsAtOnce i rig)) &&
    (([.mirrorConfig root 0 0 16 64] : List Instr).all (fun i => runsAtOnce i demo)) &&
    (endsWell 0 (.sceneStore root2 1 2 0) (running (.sceneStore root2 1 2 0) rig)) &&
    (decide ((sceneEntries rig 0).length ≤ 4096)) &&
    (decide (64 + 8 * (sceneEntries rig 0).length ≤ 65536)) &&
    (prismRuns rig)) = true := by decide +kernel

theorem witness_BusRanges :
    ((shaped loud) &&
    ((loud.bus 127).auto) &&
    (decide (fsOf (loud.bus 127).family (loud.bus 127).rate ≤ 2 * (loud.bus 127).below)) &&
    (aboveUp (2 ^ 36) 0) &&
    (!aboveUp 5 0)) = true := by decide +kernel

theorem witness_LensCommands :
    ((endsWell 0 (.lensLoad root2 0 2 3 0) (running (.lensLoad root2 0 2 3 0) rig)) &&
    (runsAtOnce (.lensChain root chain1) rig) &&
    (runsAtOnce (.lensStart root 0 2) rig) &&
    (runsAtOnce (.lensStop root 0 3) rig) &&
    (runsAtOnce (.lensDeadline root 0 2 100) rig) &&
    (lensBlocks rig 0 && decide ((rig.core 0).run = none)) &&
    ((live [(0, 0)]).core 0 |>.run.isSome) &&
    (decide (((live [(0, 0)]).core 0).strikesSet = 0)) &&
    (deadlinePast (live [(0, 0)]) ((live [(0, 0)]).core 0) 0) &&
    (abortPoint ((live [(0, 0)]).core 0)) &&
    ((modLens 0 (fun c => { c with clearing := true }) rig |>.core 0).clearing) &&
    (shaped (modLens 0 (fun c => { c with clearing := true }) rig))) = true := by decide +kernel

theorem witness_LensComputes :
    ((([.lAdd 0 1 2 3 {} {}, .lSub 0 1 2 3 {} {}, .lAnd 0 1 2 3 {} {}, .lOr 0 1 2 3 {} {}, .lXor 0 1 2 3 {} {}, .lAsl 0 1 2 3 {} {},
      .lAsr 0 1 2 3 {} {}, .lLsr 0 1 2 3 {} {}, .lAbs 0 1 2 {} {}, .lNeg 0 1 2 {} {}, .lMin 0 1 2 3 {} {}, .lMax 0 1 2 3 {} {},
      .lMov 0 1 2 {} {}, .lCmp 0 1 2 {} {}, .lPar 0 {} {}, .lMpy 0 1 2 3 false true {} {}, .lMac 0 1 2 3 false false {} {},
      .lMpy4 0 4 2 4 false false {} {}, .lMac4 0 4 2 4 false false {} {}, .lMac2e 0 1 2 3 false {} {}, .lMac2c 0 2 2 4 false {} {},
      .lClr 0 7 {} {}, .lClr4 0 4 {} {}, .lRnd 0 1 2 3 {} {}, .lMva 0 1 2 {} {}] : List Instr).all (fun i => lensReady 0 i (holds i))) &&
    (movesRun ((live []).core 0) {} {})) = true := by decide +kernel

theorem witness_LensControlAndTransfers :
    ((([.lNop 0, .lEnd 0, .lBr 0 1 3, .lCall 0 3, .lRet 0, .lLoop 0 false false 0 4 2, .lLoop 0 true true 5 0 2, .lRep 0 false 0 3,
      .lRep 0 true 5 0, .lBrk 0, .lLdi 0 3 7, .lMvr 0 3 4, .lLds 0 1 2, .lSts 0 1 2, .lLks 0 1 2, .lUns 0 1 2, .lLdb 0 1 2 3,
      .lStb 0 1 2 15] : List Instr).all (fun i => lensReady 0 i (holds i))) &&
    ((match ((live []).core 0).run with | some k => decide (k.rest = []) | none => false)) &&
    (decide (classOf (pmWord ((holds (.lRep 0 false 0 3)).core 0) 1) = 1)) &&
    (decide (classOf (pmWord ((holds (.lLoop 0 false false 0 4 2)).core 0) 2) ≠ 0)) &&
    (!scopeCovers rig 1) &&
    (scopeCovers { rig with dbg := { rig.dbg with session := some session } } 1) &&
    ((match writeSel 3 7 (rig.core 0) with | .ok _ => true | .error _ => false)) &&
    (!storeHeld rig 6) &&
    (decide (ownerOf rig 5 (pageOf 0) = ownerOf rig 4 0)) &&
    (burstOk 0 16) &&
    (decide ((nth (rig.core 0).p 1).toNat + 8 * 16 ≤ localWords))) = true := by decide +kernel

theorem witness_LensIsolation :
    ((goes (exec (.lNop 0) (holds (.lNop 0))))) = true := by decide +kernel

theorem witness_LensWordsRoundTrip :
    ((([.lAdd 0 1 2 3 {} {}, .lSub 0 1 2 3 {} {}, .lAnd 0 1 2 3 {} {}, .lOr 0 1 2 3 {} {}, .lXor 0 1 2 3 {} {}, .lAsl 0 1 2 3 {} {},
      .lAsr 0 1 2 3 {} {}, .lLsr 0 1 2 3 {} {}, .lAbs 0 1 2 {} {}, .lNeg 0 1 2 {} {}, .lMin 0 1 2 3 {} {}, .lMax 0 1 2 3 {} {},
      .lMov 0 1 2 {} {}, .lCmp 0 1 2 {} {}, .lPar 0 {} {}, .lMpy 0 1 2 3 false true {} {}, .lMac 0 1 2 3 false false {} {},
      .lMpy4 0 4 2 4 false false {} {}, .lMac4 0 4 2 4 false false {} {}, .lMac2e 0 1 2 3 false {} {}, .lMac2c 0 2 2 4 false {} {},
      .lClr 0 7 {} {}, .lClr4 0 4 {} {}, .lRnd 0 1 2 3 {} {}, .lMva 0 1 2 {} {}, .lNop 0, .lEnd 0, .lBr 0 1 3, .lCall 0 3, .lRet 0,
      .lLoop 0 false false 0 4 2, .lLoop 0 true true 5 0 2, .lRep 0 false 0 3, .lRep 0 true 5 0, .lBrk 0, .lLdi 0 3 7, .lMvr 0 3 4,
      .lLds 0 1 2, .lSts 0 1 2, .lLks 0 1 2, .lUns 0 1 2, .lLdb 0 1 2 3, .lStb 0 1 2 15] : List Instr).all (fun i => lensLegal i &&
      (lensEncode i).isSome))) = true := by decide +kernel

theorem witness_StorePagesAndAccesses :
    ((decide (keyOf rig.store (pageOf 0x30000) = some 2)) &&
    (runsAtOnce (.pageWrite root 3 0 [1, 2, 3, 4]) rig) &&
    (endsWell 0 (.pageCopy root2 1 2) (running (.pageCopy root2 1 2) rig)) &&
    (endsWell 0 (.fwWrite root2 0 [1, 2, 3, 4]) (running (.fwWrite root2 0 [1, 2, 3, 4]) rig)) &&
    (([m0, { m0 with write := true }, { m0 with tag := 3 }, { m0 with master := 15, beats := 16 },
      { m0 with master := 2, addr := 0xF80000 }] : List MatrixReq).all fun q => domainUp rig 2 && hasPath q.master.val 0 &&
      burstFits q && !storeHeld rig q.master.val && !isLocked q) &&
    (tagOk rig (matrixTag rig m0) 0) &&
    (!tagOk rig (matrixTag rig { m0 with tag := 3 }) 0)) = true := by decide +kernel

theorem witness_EventsAreRecorded :
    ((logging.evrec.bService && decide (logging.evrec.cState ≠ 0) && decide (logging.evrec.cState ≠ 3)) &&
    (exemptCode 0x0A05) &&
    (decide (logging.evrec.queue.length < 72)) &&
    (demo.evrec.bService = false && decide (demo.sys.aonEvents.length < 16))) = true := by decide +kernel

theorem witness_RecorderCommands :
    ((runsAtOnce (.evrecRate root 1 100 5) rig) &&
    (runsAtOnce (.evrecRate root 0xFFFF 100 5) rig) &&
    (endsWell 0 (.evrecConfig root2 0x80000 0x10000 0x90000 60) (running (.evrecConfig root2 0x80000 0x10000 0x90000 60) rig)) &&
    (endsWell 0 (.evrecErase root2 1) (running (.evrecErase root2 1) logging)) &&
    (endsWell 0 (.evrecErase root2 2) (running (.evrecErase root2 2) logging)) &&
    (decide (logging.evrec.desc = some desc1)) &&
    (endsWell 0 (.evrecRead root2 1 61 0) (running (.evrecRead root2 1 61 0) logging)) &&
    (accepted (.evrecFlush root2) logging) &&
    (endsWell 0 (.evrecFlush root2) (running (.evrecFlush root2) logging))) = true := by decide +kernel

theorem witness_RecorderFlashSteps :
    ((logging.evrec.bService) &&
    (decide (logging.evrec.desc = some desc1)) &&
    (!logging.evrec.eraseQ.contains (sectorAddr desc1 (logging.evrec.writePos / 128))) &&
    (decide (nextPage { logging.evrec with ring := [{ seq := 0, code := 1, origin := 0, data := [] }] } dump1 ≠ [])) &&
    (decide (nextPage logging.evrec dump1 = []))) = true := by decide +kernel

theorem witness_WatchdogJudges :
    ((!wdSrc watched) &&
    (watched.wdog.running) &&
    (!watched.wdog.grace) &&
    (decide (watched.wdog.c < wdP watched)) &&
    (decide (5 < wdP watched)) &&
    (decide (wdP watched ≤ 65535999 + 1)) &&
    (!wdFrozen watched) &&
    (wdSrc { watched with sys := { watched.sys with shadow := [{ field := 2, value := 1 }] } }) &&
    (decide (5 < wdW { watched with sys := { watched.sys with shadow := [{ field := 3, value := 1 }] } })) &&
    (demo.sys.clkOk.getLsbD 0)) = true := by decide +kernel

theorem witness_WatchdogCommands :
    ((runsAtOnce (.wdogConfig root 100) rig) &&
    (reaches (.wdogConfig root 100) { rig with wdog := { rig.wdog with locked := true } }) &&
    (runsAtOnce (.wdogCountClear root) rig) &&
    (canStart rig) &&
    (!canStart State.reset)) = true := by decide +kernel

theorem witness_PowerCommands :
    ((([.powerMode root 0 0 {}, .powerMode root 1 0 {}, .powerMode root 2 1 { sLo := 3 }, .coreClock root 400, .holdConfig root hold1,
      .balanceConfig root bal1] : List Instr).all (fun i => runsAtOnce i rig)) &&
    (([.powerMode root 0 0 {}, .powerMode root 1 0 {}] : List Instr).all (fun i => runsAtOnce i quiet))) = true := by decide +kernel

theorem witness_Holdover :
    ((holdArmed stacked) &&
    (!holdArmed rig) &&
    (decide (held.pwr.mode = .holdover)) &&
    (held.pwr.released && held.pwr.holdEn && held.pwr.mainOk)) = true := by decide +kernel

theorem witness_ShankEvents :
    ((shankRuns stacked) &&
    (balances stacked) &&
    (!balances rig) &&
    (decide (stackMv stacked ≥ 5000)) &&
    (!isFenced stacked fenceShank) &&
    (decide ((12001 : Half).toInt > 12000)) &&
    (decide ((11499 : Half).toInt < 11500))) = true := by decide +kernel

theorem witness_StartsAndResets :
    ((sinksFaded rig) &&
    (bootFault { rig with sys := { rig.sys with shadow := rig.sys.fuses } } image1 = 0) &&
    (!rig.sys.tested.getLsbD 21) &&
    (!State.reset.sys.tested.getLsbD 20) &&
    (!isFenced rig 18)) = true := by decide +kernel

theorem witness_FusesAndImages :
    ((endsWell 0 (.fuseProgram root2 8 5) (running (.fuseProgram root2 8 5) rig)) &&
    ((fuseKind 8).isSome && rig.sys.fuses.any fun x => x.field = 8) &&
    (endsWell 0 (.fwCommit root2 1024) (running (.fwCommit root2 1024) rig)) &&
    (decide (commitFault (running (.fwCommit root2 1024) blank) 1024 ≠ .ok))) = true := by decide +kernel

theorem witness_DebugSessions :
    ((([.dbgOpen root 16 60, .dbgOpen root 0 60, .dbgClose root] : List Instr).all (fun i => runsAtOnce i rig)) &&
    (runsAtOnce (.dbgClose root) attached) &&
    (!ctlHalted attached) &&
    (!isFenced attached fenceEntropy) &&
    (isFenced { attached with sys := { attached.sys with fenced := 0x1FFFFF } } fenceEntropy) &&
    (!apBusy attached) &&
    (!tagOk attached 16 0) &&
    (tagOk attached 16 0xF00000)) = true := by decide +kernel

theorem witness_DebugHalts :
    ((attached.dbg.session.any fun x => x.scope = 16) &&
    (abortPoint (rig.core 0)) &&
    (((List.range 9).all fun k => scopeCovers attached k)) &&
    (lensLive (live []) 0) &&
    (shaped rig)) = true := by decide +kernel

/-! Premises met clause by clause, where the first witness of a statement does not show them. -/

def waitedLong : State := { demo with last := { demo.last with src := 0x30, gap := (ofNs 3500000000).toNat } }
theorem witness_LastEvents_clauses :
    (gapOver waitedLong && !gapOver { demo with last := { demo.last with src := 0x30 } } && State.reset.last.coarse &&
    decide (State.reset.pwr.mode ≠ .off) && decide ({ State.reset with pwr := { State.reset.pwr with mode := .off } }.pwr.mode = .off)) = true := by
  decide +kernel

def unclocked : State := { demo with sys := { demo.sys with lost := 0x8, clkOk := 0x1FFFFFF7 } }
theorem witness_ClockLossAndReturn_clauses :
    (monitored demo 3 && demo.sys.clkOk.getLsbD 3 && decide (pllOf 3 = some 0) && demo.sys.pllLock.getLsbD 0 &&
    unclocked.sys.lost.getLsbD 3 && lockedFor unclocked 3 && unclocked.sys.running &&
    !lockedFor { unclocked with sys := { unclocked.sys with pllLock := 0 } } 3 && !demo.sys.slowRc && decide (demo.pwr.mode ≠ .off) &&
    !demo.last.rcFallback && !({ demo with sys := { demo.sys with refOk := false, frozen := true } } : State).sys.refOk) = true := by
  decide +kernel

def silent : State := { demo with sys := { demo.sys with stopped := 8 } }
def job : HeldCmd := { tenant := 0, cmd := .timeStep root 5, timed := false, copied := [] }
def holding : State := { demo with sys := { demo.sys with held := [{ hold5 with waiting := true, job := some job }] } }
theorem witness_RegisterBridge_clauses :
    (accepted (.timeStep root 5) silent && decide (silentDomain silent (.timeStep root 5) = some 3) && !atSwap (.timeStep root 5) &&
    decide (heldFor holding 5 = some { hold5 with waiting := true, job := some job }) && decide (reqOf job.cmd = some root) &&
    decide (hold5.job = none) && !hold5.waiting) = true := by
  decide +kernel

theorem witness_EtherFrames_clauses :
    (decide (linkAfter 1 (.codeGroups true) = none) && decide (linkAfter (rig.ethPort 2).mode (.autoNeg 1000 true) = none) &&
    decide (linkAfter (ptp.ethPort 1).mode (.autoNeg 100 true) = some false) && viaUp ptp .pcie && !isFenced ptp 18 &&
    decide (frame.etherType ≠ 0x88F7) && frame.fcsOk && !frame.ownSet && frame.ringUp) = true := by decide +kernel

theorem witness_PtpMessagesAndIntervals_clauses :
    (decide (domainOf ptp 0 = some false) && decide (domainOf bmca 0 = some false) && decide ((ptpRole (bmca.ethPort 1) false).best = none) &&
    decide ((7 : DWord) = bmca.eth.gptp.clockId) && decide ((ptp.ethPort 1).lostResponses ≤ 9) && master.last.valid &&
    !(ptpRole (heard.ethPort 1) false).lost && shaped heard && shaped heardB && shaped waiting && shaped bmca) = true := by decide +kernel

def crfIn : State := modStream false 4 (fun x => { x with cfg := some (.crf { crf with dir := 1 }), state := 2 }) streams
theorem witness_AvtpPackets_clauses :
    (streamOn streams (streams.stream false 3) && portUp streams 1 && streamOn crfIn (crfIn.stream false 4) && lineIdle streams 1 &&
    decide ((streams.stream true 3).nextSend ≤ streams.last.cycles) && decide ((streams.stream true 3).state = 1) &&
    streamOn streams (streams.stream true 4) && decide ((streams.mcg 0).mode = 1)) = true := by decide +kernel

def lateAction : PinAction := { handle := 0, time := 0, action := 1, fireLate := true, late := true }
def overdue : State := modPin 5 (fun n => { n with actions := [lateAction] }) rig
def frames : State := modFsg 2 (fun f => { f with running := true, k := 10 ^ 6 }) rig
def skipping : State := modFsg 2 (fun f => { f with running := true, skip := some 1 }) rig
theorem witness_PinEvents_clauses :
    (decide (earliest ((overdue.pin 5).actions.filter fun a => a.late) = some lateAction) && decide ((overdue.pin 5).mode = 2) && pinsRun overdue 5 && decide ((overdue.pin 5).falls = []) &&
    inCycle overdue (edgePos (overdue.pin 5) (elapsedQ overdue)) && inCycle pulsing (edgePos (pulsing.pin 5) 7) &&
    decide ((pulsing.pin 5).pendingCfg = none) && (frames.fsg 2).running && 
    !dueNow frames (fsgStart { num := 25, den := 1, width := 4000, phase := 0, minFrame := 40000000 } (frames.fsg 2).k) &&
    decide ((frames.fsg 2).skip = none) && decide ((frames.fsg 2).change = none) && decide ((skipping.fsg 2).skip = some 1) &&
    dueNow skipping (fsgStart { num := 25, den := 1, width := 4000, phase := 0, minFrame := 40000000 } (skipping.fsg 2).k) &&
    tooSoon (some 5) 20 && !tooSoon (some 5) 21 && eyeletAny demo 0 && decide (demo.last.src.toNat ≠ 0x40 + 2)) = true := by decide +kernel

def armedElse : State := { armed with plink := { armed.plink with armed := some { fid := 2, tenant := 0, group := 1 } } }
theorem witness_FabricCells_clauses :
    (hears armedElse 0 && decide ((armedElse.pl 0).role = 1) && decide ((armedWaiting armedElse).map (fun a => a.fid) = some 2) &&
    armedElse.plink.fabric.any (fun f => decide (f.fid = 1) && (groupOf (armedElse.tenant f.tenant) f.group).isSome) &&
    !(rig.pl 0).acked && linked.plink.rooted &&
    decide (({ demo with plink := { demo.plink with rooted := false } } : State).plink.root = false)) = true := by decide +kernel

def starting : State := modAport 2 (fun q => { q with startReq := true, st := 0 }) rig
def carrying : State := modAport 2 (fun q => { q with st := 2 }) rig
def stopped_ : State := modAport 2 (fun q => { q with st := 3, stopping := true, inp := emptyFifo, outp := emptyFifo }) rig
def synced : State := modAport 2 (fun q => { q with lastSync := some 0, goodRun := 3, locked := false }) slave
def switching : State := modAport 2 (fun q => { q with st := 2, change := some (.rate 0 1 0 true) }) rig
def measuring : State := { modMcg 1 (fun m => { m with mode := 2, window := 10, began := 0 }) rig with last := { rig.last with counter := timeOf soon } }
theorem witness_AudioEvents_clauses :
    (frameOk starting 2 tdm && frameDue starting (starting.aport 2) && shaped starting && frameOk carrying 2 tdm &&
    frameDue carrying (carrying.aport 2) && decide ((carrying.aport 2).change = none) && !(carrying.aport 2).stopReq &&
    onGrid carrying (carrying.aport 2) && fadesEnded (stopped_.aport 2).inp && fadesEnded (stopped_.aport 2).outp &&
    !(stopped_.aport 2).inp.overrun && !(stopped_.aport 2).outp.overrun && decide ((stopped_.aport 2).change = none) &&
    slaveRuns (synced.aport 2) && domainUp synced 10 && (edgeStamp synced 0).isSome && periodOk (synced.aport 2) 0 (secondU / portFs (synced.aport 2)) &&
    commonBoundary (portFs (switching.aport 2)) (fsOf 0 1) (boundaryUpTo switching (portFs (switching.aport 2)) switching.now) &&
    fadesEnded (switching.aport 2).outp && domainUp measuring 5 && timeUnitUp measuring fenceMcg &&
    decide (windowEnd (measuring.mcg 1) ≤ measuring.now) && decide ((measuring.mcg 1).began ≤ ofQuarter 0) &&
    decide (ofQuarter 39000000 ≤ windowEnd (measuring.mcg 1))) = true := by decide +kernel

def holding1 (i : Instr) : Pending := { cmd := i, due := 0, timed := false, loaded := true }
def image1Bus : List Byte := [4, 127, 0, 0, 0, 0, 0, 0]
theorem witness_SwapTakesEffect_clauses :
    (fwRuns rig && mirrorUp rig && !ctlHalted rig && !swapOutranked (due (.sceneRecall root 1)) 0 &&
    decide ((entriesIn image1Bus 1).length = 1) && decide (peekLe image1Bus 0 1 = 4) && decide (ownerOf rig 3 127 = 0) &&
    decide ((rig.tenant 0).pend = []) && decide (ownerOf rig 4 0 = 0)) = true := by decide +kernel

theorem witness_MirrorCommands_clauses :
    (atSwap (.prismRoute root 5 1 0) && decide ((due (.prismRoute root 5 1 0)).tenants.length = 16) &&
    (((due (.prismRoute root 5 1 0)).tenant 0).pend.all fun p => !p.loaded)) = true := by decide +kernel

theorem witness_LensControlAndTransfers_clauses :
    (noCopy (live []) && decide (((live []).core 0).rep = none) && decide (((live []).core 0).calls.length < 4) &&
    decide (((live []).core 0).loops.length < 4) && !((live []).core 0).discard && decide ((live []).dbg.apWait = none) &&
    !(live []).store.timedOut.contains 6) = true := by decide +kernel

theorem witness_StorePagesAndAccesses_clauses :
    (decide (copyOf ((running (.pageCopy root2 1 2) rig).tenant 0) = some (1, 2, 0)) && noCopy rig && (keyOf rig.store 1).isSome &&
    (keyOf rig.store 2).isSome && decide (rig.store.waiting = []) && decide (rig.store.bursts = []) && decide (rig.store.lock = none) &&
    decide (m0.cut = none) && rig.tenants.all (fun n => decide (n.taken = []))) = true := by decide +kernel

def served : State := { watched with sys := { watched.sys with shadow := [{ field := 2, value := 1 }] } }
theorem witness_WatchdogJudges_clauses :
    (decide (watched.pending = []) && decide (watched.store.waiting = []) && watched.tenants.all (fun n => decide (n.taken = [])) &&
    !fwServes watched && fwServes served && decide (served.wdog.c + 2 < fwFirst served) && decide (served.wdog.c + 1 < wdP served) &&
    decide (fwFirst served ≤ fwLast served) && !({ watched with wdog := { watched.wdog with armed := true, c := 10 ^ 7 } } : State).wdog.grace) = true := by decide +kernel

theorem witness_ShankEvents_clauses :
    (belowShank stacked [] && !belowShank stacked (List.replicate 4 25000) && decide (0 < stacked.pwr.cells) &&
    decide (stacked.pwr.vOv < 2701) && stacked.pwr.hbOk && !demo.last.hot && shankRuns stacked) = true := by decide +kernel

def asleep : State := { demo with pwr := { demo.pwr with mode := .sleep, pwrSleep := true, wakeAt := some 0 } }
def sleeping : State := { demo with pwr := { demo.pwr with entering := .sleep } }
theorem witness_StartsAndResets_clauses :
    (sinksFaded sleeping && noCopy sleeping && decide (sleeping.evrec.queue = []) && decide (sleeping.evrec.dump = none) &&
    decide (asleep.pwr.mode = .sleep) && decide (asleep.pwr.wakeAt = some 0) && decide ((0 : Time) ≤ asleep.now) && clocksFor asleep &&
    asleep.sys.resetN && !asleep.dbg.extest && decide (demo.pwr.mode = .run) && !State.reset.sys.resetN && demo.sys.clkOk.getLsbD 24 &&
    decide (demo.store.lock = none) && demo.sys.running) = true := by decide +kernel

theorem witness_DebugSessions_clauses :
    (!apBusy attached && domainUp attached 2 && !storeHeld attached 1 && !attached.dbg.extest && noCopy attached &&
    attached.sys.running && decide (attached.dbg.session = some session) && decide (session.left = some 60)) = true := by decide +kernel
end Sys2Proof.Tests
end

section
/-! The Last (02): how it starts (R29), and the commands that steer it by hand while a source is selected (R46). -/

namespace Sys2Proof.Machine

/-! The start of the Last (R29). -/

/-- Reset leaves the Last at 0 s, FREE, not valid. -/
theorem reset_last_atZero :
    State.reset.last.counter = 0 ∧ State.reset.last.servo = .free ∧ State.reset.last.valid = false :=
  ⟨rfl, rfl, rfl⟩

/-- Of the Last, a loss of AON power keeps a calibration alone. -/
theorem aonLost_last (s : State) : ∃ cal, (aonLost s).last = { State.reset.last with cal } := by
  unfold aonLost
  exact ⟨_, rfl⟩

/-- A loss of AON power leaves the Last at 0 s, FREE, not valid. -/
theorem aonLost_last_atZero (s : State) :
    (aonLost s).last.counter = 0 ∧ (aonLost s).last.servo = .free ∧ (aonLost s).last.valid = false := by
  obtain ⟨cal, hlast⟩ := aonLost_last s
  rw [hlast]
  exact reset_last_atZero

/-- AON_POWER_LOSS answers the state of the loss, from every state. -/
theorem exec_aonPowerLoss (s : State) : exec .aonPowerLoss s = .next (msixScan 16 (aonLost s)) := rfl

/-- POWER_ON_RESET of an engine that is OFF starts from the state of the loss, with the clock of AON, in RUN. -/
theorem exec_powerOnReset_of_off {s : State} (h : s.pwr.mode = .off) :
    exec .powerOnReset s =
      .next (msixScan 16 (modPwr (fun p => { p with mode := .run }) (modSys (fun y => { y with clkOk := 1 }) (aonLost s)))) :=
  if_neg (not_not_intro h)

/-- Settles O3: a loss of AON power resets the Last, and what follows it in a step leaves the Last alone. -/
theorem lastStartsAtZero : Obligations.LastStartsAtZero := by
  refine ⟨reset_last_atZero, fun s => ⟨_, exec_aonPowerLoss s, ?_⟩, fun s h => ⟨_, exec_powerOnReset_of_off h, ?_⟩⟩
  · rw [msixScan_last]
    exact aonLost_last_atZero s
  · rw [msixScan_last, modPwr_last, modSys_last]
    exact aonLost_last_atZero s

/-! Packets that R98 refuses. -/

/-- A packet that reaches the interpreter and fails a check answers with that status, and is not executed. -/
theorem answers_of_refusal {i : Instr} {r : Req} {m : Meaning} {s : State} {st : Status} (hr : reqOf i = some r)
    (hm : meaningOf i = some m) (hreach : reaches i s = true) (href : refusal i r m s = some st) :
    Answers i s st [] (m.onRefuse st s) := by
  refine ⟨r, hr, ?_⟩
  rw [exec_of_meaning s hm, submit_reaches hr hreach, accept, href]
  rfl

/-- A packet that no earlier check of R98 stops is judged by its own chapter's checks (check 10). -/
theorem refusal_eq_ownChecks {i : Instr} {r : Req} {m : Meaning} {s : State}
    (hclass : (opInfo i).classes.contains r.cls.toNat = true) (hfits : i.fits = true)
    (hfence : (opInfo i).fences.any (isFenced s) = false) (hauth : m.authority s = true)
    (hunits : unitCheck s r.tenant (opInfo i).auth (unitsOf i) = none) (hholds : m.holds s = true)
    (hgroup : groupCheck s r i = none) (htime : timeCheck s r i = none)
    (hroom : r.cls = 1 → timedCount (s.tenant r.tenant) < 64) :
    refusal i r m s = ownChecks s i m := by
  have hfull : ¬ (r.cls = 1 ∧ 64 ≤ timedCount (s.tenant r.tenant)) := fun ⟨h1, h64⟩ => absurd (hroom h1) (Nat.not_lt.2 h64)
  simp only [refusal, hclass, hfits, hfence, hauth, hunits, hholds, hgroup, htime, Bool.not_true, Bool.false_eq_true, if_false,
    if_true, Option.orElse_none]
  rw [if_neg (by simpa using hfull), Option.orElse_none]

/-- S_BUSY is the first failed check when no failed check names a status before it in the order of check 10. -/
theorem firstFailed_eq_busy {l : List (Status × Bool)} (hbusy : (Status.busy, true) ∈ l)
    (hfirst : ∀ st ∈ [Status.groupUnknown, .notOwner, .locked, .range], (st, true) ∉ l) : firstFailed l = some .busy := by
  have names : ∀ st, l.any (fun x => x.1 = st && x.2) = true ↔ (st, true) ∈ l := by simp
  simp_all [firstFailed, checkOrder]

/-! The commands of manual steering (Table 2.6, R46). -/

/-- What the rows of the manual steering commands share: any operands fit, the holder of the Last alone may send them, they name the
unit Last and no other, no group takes them, and a refusal leaves nothing beside its reply. -/
structure SteeringRow (i : Instr) (m : Meaning) : Prop where
  meaning : meaningOf i = some m
  fits : i.fits = true
  fences : (opInfo i).fences = [fenceLast]
  auth : (opInfo i).auth = .steer
  units : unitsOf i = []
  notGroupCmd : isGroupCmd i = false
  authority : ∀ s, m.authority s = true
  holds : ∀ s, m.holds s = true
  onRefuse : ∀ st s, m.onRefuse st s = s

theorem steeringRow_timeSet (r : Req) (time : Stamp) (utc flags : Half) :
    SteeringRow (.timeSet r time utc flags) (timeSetM r time utc flags) := by
  constructor <;> intros <;> rfl

theorem steeringRow_timeStep (r : Req) (offset : DWord) : SteeringRow (.timeStep r offset) (timeStepM r offset) := by
  constructor <;> intros <;> rfl

theorem steeringRow_timeAdjust (r : Req) (offset : DWord) (slew : Word) :
    SteeringRow (.timeAdjust r offset slew) (timeAdjustM offset slew) := by
  constructor <;> intros <;> rfl

theorem steeringRow_rateSet (r : Req) (rate : Word) : SteeringRow (.rateSet r rate) (rateSetM rate) := by
  constructor <;> intros <;> rfl

/-- The holder of the steering passes check 7 of R98 with a command that names no unit. -/
theorem unitCheck_steer_nil {s : State} {t : Nat} (h : ownerOf s 0x08 0 = t) : unitCheck s t .steer [] = none := by
  simp [unitCheck, hasAuth, h]

/-- A command sent with GROUP 0 that names no group itself passes check 8 of R98. -/
theorem groupCheck_ungrouped {i : Instr} {r : Req} (s : State) (hg : isGroupCmd i = false) (h0 : r.group = 0) :
    groupCheck s r i = none := by
  simp [groupCheck, hg, h0]

/-- What R98 asks before its check 10 of a manual steering command: its class, its time and its room in the queue, the steering held,
the Last not fenced. -/
structure SteeringAdmitted (i : Instr) (r : Req) (s : State) : Prop where
  cls : (opInfo i).classes.contains r.cls.toNat = true
  group : r.group = 0
  time : timeCheck s r i = none
  room : r.cls = 1 → timedCount (s.tenant r.tenant) < 64
  owner : ownerOf s 0x08 0 = r.tenant
  unfenced : isFenced s fenceLast = false

/-- A manual steering command that comes to check 10 of R98 is judged by that check alone. -/
theorem SteeringRow.refusal_eq {i : Instr} {m : Meaning} {r : Req} {s : State} (row : SteeringRow i m)
    (h : SteeringAdmitted i r s) : refusal i r m s = ownChecks s i m := by
  refine refusal_eq_ownChecks h.cls row.fits ?_ (row.authority s) ?_ (row.holds s) (groupCheck_ungrouped s row.notGroupCmd h.group)
    h.time h.room
  · simp [row.fences, h.unfenced]
  · rw [row.auth, row.units]
    exact unitCheck_steer_nil h.owner

/-- A manual steering command answers S_BUSY when its own checks find a source selected and nothing before it. -/
theorem SteeringRow.answers_busy {i : Instr} {m : Meaning} {r : Req} {s : State} (row : SteeringRow i m) (hr : reqOf i = some r)
    (hreach : reaches i s = true) (h : SteeringAdmitted i r s) (hbusy : (Status.busy, true) ∈ m.checks s)
    (hfirst : ∀ st ∈ [Status.groupUnknown, .notOwner, .locked, .range], (st, true) ∉ m.checks s) :
    Answers i s .busy [] s := by
  have hown : ownChecks s i m = some .busy :=
    firstFailed_eq_busy (List.mem_cons_of_mem _ hbusy) fun st hst hmem => by
      rcases List.mem_cons.1 hmem with heq | hmem
      · obtain rfl : st = .busy := congrArg Prod.fst heq
        exact absurd hst (by decide)
      · exact hfirst st hst hmem
  have hans := answers_of_refusal hr row.meaning hreach ((row.refusal_eq h).trans hown)
  rwa [row.onRefuse] at hans

/-- Settles O21: each command's own checks hold `steered`, and none of its earlier ones fails. -/
theorem steeringIsBusyUnderASource : Obligations.SteeringIsBusyUnderASource := by
  intro i r s hr hreach hgroup hcls htime hroom howner hfence hsrc hcmd
  have h : SteeringAdmitted i r s := ⟨hcls, hgroup, htime, hroom, howner, hfence⟩
  have hsteered : steered s = true := by simpa [steered] using hsrc
  rcases hcmd with ⟨time, utc, flags, rfl, hns⟩ | ⟨offset, rfl⟩ | ⟨offset, slew, rfl, hslew, hmax⟩ | ⟨rate, rfl, hhigh, hlow⟩
  · exact (steeringRow_timeSet r time utc flags).answers_busy hr hreach h (by simp [timeSetM, hsteered]) (by simp [timeSetM, hns])
  · exact (steeringRow_timeStep r offset).answers_busy hr hreach h (by simp [timeStepM, hsteered]) (by simp [timeStepM])
  · exact (steeringRow_timeAdjust r offset slew).answers_busy hr hreach h (by simp [timeAdjustM, hsteered])
      (by simpa [timeAdjustM, hmax] using hslew)
  · exact (steeringRow_rateSet r rate).answers_busy hr hreach h (by simp [rateSetM, hsteered])
      (by simpa [rateSetM, rateBound] using ⟨decide_eq_false (not_lt.2 hhigh), decide_eq_false (not_lt.2 hlow)⟩)

end Sys2Proof.Machine
end

section
/-! Tenants and their units (04): who holds a unit after it is given away, and GRANT (R81). -/

namespace Sys2Proof.Machine

/-! The holder of a unit after one unit is given to a holder (R80). -/

theorem ownerOf_page (s : State) (u : Nat) : ownerOf s 5 u = (nth s.store.owner u).toNat := rfl

/-- The holder of a unit other than a page stands in the list of grants. -/
theorem ownerOf_listed {ty : Nat} (h5 : ty ≠ 5) (s : State) (u : Nat) :
    ownerOf s ty u = ((s.owners.find? fun x => x.1 = ty && x.2.1 = u).map (·.2.2)).getD 0 := by
  rw [ownerOf, if_neg h5]
  cases s.owners.find? fun x => x.1 = ty && x.2.1 = u <;> rfl

theorem setOwner_page (u t : Nat) (s : State) :
    setOwner 5 u t s = modStore (fun m => { m with owner := updAt m.owner u fun _ => BitVec.ofNat 5 t }) s := rfl

theorem setOwner_listed {ty : Nat} (h5 : ty ≠ 5) (u t : Nat) (s : State) :
    setOwner ty u t s =
      { s with owners := (if t = 0 then [] else [(ty, u, t)]) ++ s.owners.filter fun x => !(x.1 = ty && x.2.1 = u) } := by
  rw [setOwner, if_neg h5]
  split <;> rfl

/-- Giving a unit away changes the list of grants or the tags of the pages, and nothing else. -/
theorem setOwner_eq (ty u t : Nat) (s : State) :
    setOwner ty u t s =
      { s with owners := (setOwner ty u t s).owners, store := { s.store with owner := (setOwner ty u t s).store.owner } } := by
  by_cases h5 : ty = 5
  · subst h5
    rfl
  · rw [setOwner_listed h5]

@[simp] theorem setOwner_pages_length (ty u t : Nat) (s : State) :
    (setOwner ty u t s).store.owner.length = s.store.owner.length := by
  by_cases h5 : ty = 5
  · subst h5
    simp [setOwner_page]
  · rw [setOwner_listed h5]

/-- A unit given to a holder is held by it; a page must be one of the Store's. -/
theorem ownerOf_setOwner_self {ty u t : Nat} {s : State} (hpage : ty = 5 → u < s.store.owner.length) (ht : t < 32) :
    ownerOf (setOwner ty u t s) ty u = t := by
  by_cases h5 : ty = 5
  · subst h5
    simp [ownerOf_page, setOwner_page, nth_updAt_self _ _ _ (hpage rfl), Nat.mod_eq_of_lt ht]
  · rw [ownerOf_listed h5, setOwner_listed h5]
    by_cases h0 : t = 0
    · have hgone : (s.owners.filter fun x => !(x.1 = ty && x.2.1 = u)).find? (fun x => x.1 = ty && x.2.1 = u) = none :=
        List.find?_eq_none.2 fun x hx => by simpa only [Bool.not_eq_true', Bool.not_eq_true] using (List.mem_filter.1 hx).2
      rw [if_pos h0, List.nil_append, hgone, h0]
      rfl
    · simp [h0]

/-- A unit given to a holder leaves every other unit with its own. -/
theorem ownerOf_setOwner_other {ty u ty' u' : Nat} (t : Nat) (s : State) (h : ¬ (ty' = ty ∧ u' = u)) :
    ownerOf (setOwner ty u t s) ty' u' = ownerOf s ty' u' := by
  by_cases h5 : ty = 5
  · subst h5
    by_cases h5' : ty' = 5
    · subst h5'
      rw [ownerOf_page, ownerOf_page, setOwner_page, modStore_store, nth_updAt_other _ _ _ _ fun e => h ⟨rfl, e.symm⟩]
    · simp [ownerOf_listed h5', setOwner_page]
  · rw [setOwner_listed h5]
    by_cases h5' : ty' = 5
    · subst h5'
      rfl
    · have hkeep : (s.owners.filter fun x => !(x.1 = ty && x.2.1 = u)).find? (fun x => x.1 = ty' && x.2.1 = u') =
          s.owners.find? fun x => x.1 = ty' && x.2.1 = u' := by
        rw [List.find?_filter]
        congr 1
        grind
      have hnew : ¬ (ty = ty' ∧ u = u') := fun ⟨e, e'⟩ => h ⟨e.symm, e'.symm⟩
      simp only [ownerOf_listed h5', List.find?_append, hkeep]
      split <;> simp [hnew]

@[simp] theorem ownerOf_record (c o : Nat) (d : List (Nat × Nat)) (s : State) (ty u : Nat) :
    ownerOf (record c o d s) ty u = ownerOf s ty u := by
  simp only [ownerOf, record_store, record_owners]

/-- The Store of a shaped state has its 256 pages (R19). -/
theorem shaped_pages_length {s : State} (h : shaped s = true) : s.store.owner.length = 256 := by
  simp only [shaped, Bool.and_eq_true, decide_eq_true_eq] at h
  simp only [h]

/-! The units of a range given to a tenant (R81). -/

theorem mem_unitList {first count : Half} {n : Nat} :
    n ∈ unitList first count ↔ first.toNat ≤ n ∧ n < first.toNat + count.toNat := by
  simp only [unitList, List.mem_map, List.mem_range]
  exact ⟨fun ⟨k, hk, e⟩ => by omega, fun h => ⟨n - first.toNat, by omega, by omega⟩⟩

theorem grantUnits_cons (ty t u : Nat) (us : List Nat) (s : State) :
    grantUnits ty t (u :: us) s = grantUnits ty t us (setOwner ty u t s) := rfl

/-- Units given away change the list of grants or the tags of the pages, and nothing else. -/
theorem grantUnits_eq (ty t : Nat) (us : List Nat) (s : State) :
    grantUnits ty t us s =
      { s with owners := (grantUnits ty t us s).owners, store := { s.store with owner := (grantUnits ty t us s).store.owner } } := by
  induction us generalizing s with
  | nil => rfl
  | cons u us ih => rw [grantUnits_cons, ih, setOwner_eq]

/-- The units not given away stay with their holders. -/
theorem ownerOf_grantUnits_other {ty ty' n : Nat} (t : Nat) (us : List Nat) (s : State) (h : ¬ (ty' = ty ∧ n ∈ us)) :
    ownerOf (grantUnits ty t us s) ty' n = ownerOf s ty' n := by
  induction us generalizing s with
  | nil => rfl
  | cons u us ih =>
    rw [grantUnits_cons, ih _ fun ⟨e, hn⟩ => h ⟨e, List.mem_cons_of_mem _ hn⟩]
    exact ownerOf_setOwner_other t s fun ⟨e, hn⟩ => h ⟨e, hn ▸ List.mem_cons_self⟩

/-- The units given to a holder are held by it. -/
theorem ownerOf_grantUnits_mem {ty t n : Nat} {us : List Nat} {s : State} (hpages : ty = 5 → n < s.store.owner.length)
    (ht : t < 32) (hn : n ∈ us) : ownerOf (grantUnits ty t us s) ty n = t := by
  induction us generalizing s with
  | nil => cases hn
  | cons u us ih =>
    rw [grantUnits_cons]
    by_cases hrest : n ∈ us
    · exact ih (by simpa using hpages) hrest
    · obtain rfl : n = u := (List.mem_cons.1 hn).resolve_right hrest
      rw [ownerOf_grantUnits_other _ _ _ fun h => hrest h.2]
      exact ownerOf_setOwner_self hpages ht

/-! What R98 asks of GRANT (Table 4.10). -/

/-- A range that Table 4.10 allows is not empty and lies within its type; a range of pages ends before page 232. -/
theorem badUnits_eq_false {ty : Byte} {first count : Half} (h : badUnits ty first count = false) :
    count.toNat ≠ 0 ∧ first.toNat + count.toNat ≤ (if ty = 5 then 232 else unitCount ty.toNat) := by
  simp only [badUnits, Bool.or_eq_false_iff, decide_eq_false_iff_not, not_lt] at h
  obtain ⟨⟨⟨-, hcount⟩, -⟩, hend⟩ := h
  exact ⟨fun e => hcount (BitVec.eq_of_toNat_eq e), hend⟩

/-- The first unit of a range that Table 4.10 allows is one of its type. -/
theorem first_lt_unitCount {ty : Byte} {first count : Half} (h : badUnits ty first count = false) :
    first.toNat < unitCount ty.toNat := by
  obtain ⟨hcount, hend⟩ := badUnits_eq_false h
  split at hend
  · next h5 => subst h5; simp only [show unitCount (5 : Byte).toNat = 256 from rfl]; omega
  · omega

/-- Every unit of a range of pages that Table 4.10 allows is one of the Store's 256 pages. -/
theorem page_lt_of_mem_unitList {ty : Byte} {first count : Half} {n : Nat} (h : badUnits ty first count = false)
    (h5 : ty.toNat = 5) (hn : n ∈ unitList first count) : n < 256 := by
  obtain ⟨-, hend⟩ := badUnits_eq_false h
  rw [if_pos (BitVec.eq_of_toNat_eq h5)] at hend
  have := mem_unitList.1 hn
  omega

/-- Check 7 of R98 passes when the tenant has the authority, and every unit named lies in its range and is the tenant's. -/
theorem unitCheck_eq_none {s : State} {t : Nat} {a : Auth} {us : List UnitRef} :
    unitCheck s t a us = none ↔
      hasAuth s t a = true ∧ (∀ u ∈ us, u.unit < u.limit) ∧ ∀ u ∈ us, u.ty ≠ 0 → ownerOf s u.ty u.unit = t := by
  simp only [unitCheck]
  split_ifs with hauth hrange hheld <;> simp_all

/-- GRANT names its tenant, 1 to 15, and the first unit of its range within its type, neither as a unit
that the sender must hold. -/
theorem mem_unitsOf_grant {r : Req} {tenant type : Byte} {first count : Half} {u : UnitRef} :
    u ∈ unitsOf (.grant r tenant type first count) ↔
      u = ⟨0, if tenant = 0 then 16 else tenant.toNat, 16⟩ ∨
        unitCount type.toNat ≠ 0 ∧ u = ⟨0, first.toNat, unitCount type.toNat⟩ := by
  rw [unitsOf, List.mem_append, List.mem_singleton]
  by_cases hcount : unitCount type.toNat = 0 <;> simp [hcount]

/-- Root passes check 7 of R98 with a GRANT to a tenant, of a range that starts within its type. -/
theorem unitCheck_grant {r : Req} {tenant type : Byte} {first count : Half} (s : State) (h0 : tenant ≠ 0)
    (h16 : tenant.toNat < 16) (hfirst : first.toNat < unitCount type.toNat) :
    unitCheck s 0 .root (unitsOf (.grant r tenant type first count)) = none := by
  refine unitCheck_eq_none.2 ⟨rfl, fun u hu => ?_, fun u hu hty => ?_⟩
  · rcases mem_unitsOf_grant.1 hu with rfl | ⟨-, rfl⟩
    · simpa only [if_neg h0] using h16
    · exact hfirst
  · rcases mem_unitsOf_grant.1 hu with rfl | ⟨-, rfl⟩ <;> exact absurd rfl hty

/-- A GRANT that no check refuses names a tenant, and a range that Table 4.10 allows and Root holds. -/
theorem grant_accepted {r : Req} {tenant type : Byte} {first count : Half} {s : State}
    (h : refusal (.grant r tenant type first count) r (grantM tenant type first count) s = none) :
    tenant.toNat < 16 ∧ badUnits type first count = false ∧ ∀ n ∈ unitList first count, ownerOf s type.toNat n = 0 := by
  obtain ⟨-, -, -, -, -, hunits, -, -, hown⟩ := refusal_none h
  obtain ⟨-, hinRange, -⟩ := unitCheck_eq_none.1 hunits
  have htenant : (if tenant = 0 then 16 else tenant.toNat) < 16 := hinRange _ (mem_unitsOf_grant.2 (.inl rfl))
  have hrange := check_passes hown List.mem_cons_self (by decide)
  have hroot := check_passes hown (List.mem_cons_of_mem _ List.mem_cons_self) (by decide)
  refine ⟨?_, (Bool.or_eq_false_iff.1 hrange).1, fun n hn => by simpa using List.any_eq_false.1 hroot n hn⟩
  split at htenant <;> omega

/-- A GRANT to an open tenant, of a range that Table 4.10 allows, is refused with S_NO_RESOURCE when Root does not hold all of it. -/
theorem ownChecks_grant {r : Req} {tenant type : Byte} {first count : Half} {s : State} {n : Nat}
    (hopen : (s.tenant tenant.toNat).st = .open) (hrange : badUnits type first count = false) (hn : n ∈ unitList first count)
    (hheld : ownerOf s type.toNat n ≠ 0) :
    ownChecks s (.grant r tenant type first count) (grantM tenant type first count) = some .noResource := by
  have hany : (unitList first count).any (fun u => decide (ownerOf s type.toNat u ≠ 0)) = true :=
    List.any_eq_true.2 ⟨n, hn, decide_eq_true hheld⟩
  simp only [ownChecks, grantM, hopen, hrange, hany]
  rfl

/-- A GRANT that runs at once moves its range, records event 0x0003 and answers S_OK. -/
theorem answers_grant {r : Req} {tenant type : Byte} {first count : Half} {s : State}
    (h : runsAtOnce (.grant r tenant type first count) s = true) :
    Answers (.grant r tenant type first count) s .ok []
      (record 0x0003 tenant.toNat [(1, tenant.toNat), (1, type.toNat), (2, first.toNat), (2, count.toNat)]
        (grantUnits type.toNat tenant.toNat (unitList first count) s)) :=
  runs_answers (m := grantM tenant type first count) rfl h

/-- Settles O9: an accepted GRANT finds its whole range with Root, and `grantUnits` moves exactly that range; with a unit of the range
held by a tenant, check 10 of R98 refuses it. -/
theorem grantMovesUnits : Obligations.GrantMovesUnits := by
  intro r tenant type first count s hshaped
  refine ⟨fun hruns => ?_, fun hreach hcls hgroup hroot h0 h16 hopen hrange ⟨k, hk, hheld⟩ => ?_⟩
  · obtain ⟨h16, hrange, hfree⟩ := grant_accepted (runs_passes rfl rfl hruns)
    refine ⟨_, answers_grant hruns, fun k hk => ?_, fun ty n hn => ?_, ?_⟩
    · have hmem : first.toNat + k ∈ unitList first count := mem_unitList.2 (by omega)
      refine ⟨hfree _ hmem, (ownerOf_record ..).trans (ownerOf_grantUnits_mem (fun h5 => ?_) (by omega) hmem)⟩
      exact shaped_pages_length hshaped ▸ page_lt_of_mem_unitList hrange h5 hmem
    · exact (ownerOf_record ..).trans (ownerOf_grantUnits_other _ _ _ fun h => hn ⟨h.1, mem_unitList.1 h.2⟩)
    · simp only [sansEvents_record, record_owners, record_store]
      rw [grantUnits_eq]
      rfl
  · refine answers_of_refusal (m := grantM tenant type first count) rfl rfl hreach ?_
    rw [refusal_eq_ownChecks (by rw [hcls]; rfl) rfl rfl rfl ?_ rfl (groupCheck_ungrouped s rfl hgroup) ?_ (by simp [hcls])]
    · exact ownChecks_grant hopen hrange (mem_unitList.2 (by omega)) hheld
    · rw [hroot]
      exact unitCheck_grant s h0 h16 (first_lt_unitCount hrange)
    · simp [timeCheck, pinTooLate, hcls]

end Sys2Proof.Machine
end

section
/-! The words of the Lens instructions (11): what each field of a word reads, and the round trip (Tables 11.5 to 11.10). -/

namespace Sys2Proof.Machine

/-! Fields of words put together from values at their places. -/

theorem getLsbD_at64 {n : Nat} (lo i : Nat) (v : BitVec n) :
    (at64 lo v).getLsbD i = (decide (i < 64) && (decide (lo ≤ i) && v.getLsbD (i - lo))) := by
  rw [at64, BitVec.getLsbD_ofNat, Nat.mul_comm, Nat.testBit_two_pow_mul]
  rfl

theorem flag64_eq (lo : Nat) (b : Bool) : flag64 lo b = at64 lo (BitVec.ofBool b) := by cases b <;> rfl

@[simp] theorem fieldOf_or (u v : BitVec 64) (lo n : Nat) : fieldOf (u ||| v) lo n = fieldOf u lo n ||| fieldOf v lo n :=
  BitVec.extractLsb'_or

/-- A value is read back from its own place. -/
@[simp] theorem fieldOf_at64_same {n : Nat} (lo : Nat) (v : BitVec n) (h : lo + n ≤ 64) : fieldOf (at64 lo v) lo n = v := by
  ext i hi
  simp only [fieldOf, BitVec.getElem_extractLsb', getLsbD_at64, Nat.add_sub_cancel_left]
  simp [show lo + i < 64 by omega, BitVec.getLsbD_eq_getElem hi]

/-- A field apart from a value's place reads zero. -/
@[simp] theorem fieldOf_at64_other {k : Nat} (lo lo' n : Nat) (v : BitVec k) (h : lo' + n ≤ lo ∨ lo + k ≤ lo') :
    fieldOf (at64 lo v) lo' n = 0 := by
  ext i hi
  simp only [fieldOf, BitVec.getElem_extractLsb', getLsbD_at64]
  rcases h with h | h
  · simp [show ¬ lo ≤ lo' + i by omega]
  · simp [BitVec.getLsbD_of_ge v (lo' + i - lo) (by omega)]

/-- CLASS and OPC stand at their places (Table 11.5). -/
theorem opBits_eq (cls opc : Nat) (ho : opc < 64) :
    opBits cls opc = at64 60 (BitVec.ofNat 4 cls) ||| at64 54 (BitVec.ofNat 6 opc) := by
  apply BitVec.eq_of_getLsbD_eq
  intro i hi
  have hlow : opc * 2 ^ 54 < 2 ^ 60 := by
    calc opc * 2 ^ 54 < 2 ^ 6 * 2 ^ 54 := Nat.mul_lt_mul_of_pos_right ho (Nat.two_pow_pos 54)
      _ = 2 ^ 60 := by rw [← Nat.pow_add]
  rw [BitVec.getLsbD_or, getLsbD_at64, getLsbD_at64, opBits, BitVec.getLsbD_ofNat, Nat.mul_comm cls,
    Nat.testBit_two_pow_mul_add _ hlow, Nat.mul_comm opc, Nat.testBit_two_pow_mul, BitVec.getLsbD_ofNat, BitVec.getLsbD_ofNat]
  by_cases h60 : i < 60
  · by_cases h54 : 54 ≤ i
    · simp [h60, h54, hi, show ¬ 60 ≤ i by omega, show i - 54 < 6 by omega]
    · simp [h60, h54, show ¬ 60 ≤ i by omega]
  · have hopc : opc.testBit (i - 54) = false :=
      Nat.testBit_lt_two_pow (Nat.lt_of_lt_of_le ho (Nat.pow_le_pow_right (n := 2) (i := 6) (by omega) (by omega)))
    simp [h60, hi, show 60 ≤ i by omega, show i - 60 < 4 by omega, hopc]

/-- One bit of a word is the field of its width. -/
theorem getLsbD_of_fieldOf {w : BitVec 64} {i : Nat} {b : Bool} (h : fieldOf w i 1 = BitVec.ofBool b) : w.getLsbD i = b := by
  have hbit : (fieldOf w i 1).getLsbD 0 = w.getLsbD i := by simp [fieldOf]
  rw [← hbit, h]
  cases b <;> rfl

/-! Moves (Table 11.6). -/

theorem bit_lt_two (b : Bool) : bit b < 2 := by cases b <;> decide

theorem bit_eq_toNat (b : Bool) : bit b = b.toNat := by cases b <;> rfl

/-- The number that a move field spells (Table 11.6). -/
theorem moveBits_toNat (m : Move) : (moveBits m).toNat =
    m.kind.toNat * 65536 + m.pair.toNat * 32768 + m.reg.toNat * 2048 + m.ptr.toNat * 256 + m.upd.toNat * 64 + m.modl.toNat * 32 := by
  have hpair := Bool.toNat_lt m.pair
  have hmodl := Bool.toNat_lt m.modl
  simp only [moveBits, BitVec.toNat_ofNat, bit_eq_toNat]
  omega

/-- A field of a move is read from the number of the whole. -/
theorem extractLsb'_eq_of_toNat {w n : Nat} {b : BitVec w} {lo : Nat} {v : BitVec n} (h : b.toNat / 2 ^ lo % 2 ^ n = v.toNat) :
    b.extractLsb' lo n = v :=
  BitVec.eq_of_toNat_eq (by rw [BitVec.extractLsb'_toNat, Nat.shiftRight_eq_div_pow, h])

theorem getLsbD_eq_of_toNat {w : Nat} {b : BitVec w} {lo : Nat} {v : Bool} (h : b.toNat / 2 ^ lo % 2 = v.toNat) :
    b.getLsbD lo = v := by
  rw [← BitVec.testBit_toNat, Nat.testBit_eq_decide_div_mod_eq, h]
  cases v <;> rfl

/-- A legal move is read back from its field. -/
theorem moveOf_moveBits {m : Move} (h : moveLegal m = true) : moveOf (moveBits m) = some m := by
  have hnat := moveBits_toNat m
  have hpair := Bool.toNat_lt m.pair
  have hmodl := Bool.toNat_lt m.modl
  have hkind : (moveBits m).extractLsb' 16 2 = m.kind := extractLsb'_eq_of_toNat (by omega)
  have hpairBit : (moveBits m).getLsbD 15 = m.pair := getLsbD_eq_of_toNat (by omega)
  have hreg : (moveBits m).extractLsb' 11 4 = m.reg := extractLsb'_eq_of_toNat (by omega)
  have hptr : (moveBits m).extractLsb' 8 3 = m.ptr := extractLsb'_eq_of_toNat (by omega)
  have hupd : (moveBits m).extractLsb' 6 2 = m.upd := extractLsb'_eq_of_toNat (by omega)
  have hmodlBit : (moveBits m).getLsbD 5 = m.modl := getLsbD_eq_of_toNat (by omega)
  simp only [moveOf, hkind, hpairBit, hreg, hptr, hupd, hmodlBit]
  exact if_neg (by simpa only [moveLegal, Bool.not_eq_true', Bool.not_eq_true] using h)

/-! The fields of each class of words. -/

/-- The fields of an ALU word (Table 11.8). -/
theorem fieldOf_aluWord (opc : Nat) (d a b : BitVec 4) (sh : BitVec 6) (x y : Move) (ho : opc < 64) :
    fieldOf (aluWord opc d a b sh x y) 60 4 = 1 ∧ fieldOf (aluWord opc d a b sh x y) 54 6 = BitVec.ofNat 6 opc ∧
    fieldOf (aluWord opc d a b sh x y) 50 4 = d ∧ fieldOf (aluWord opc d a b sh x y) 46 4 = a ∧
    fieldOf (aluWord opc d a b sh x y) 42 4 = b ∧ fieldOf (aluWord opc d a b sh x y) 36 6 = sh ∧
    fieldOf (aluWord opc d a b sh x y) 18 18 = moveBits x ∧ fieldOf (aluWord opc d a b sh x y) 0 18 = moveBits y := by
  simp [aluWord, opBits_eq _ _ ho]

/-- The fields of a MAC word (Table 11.9). -/
theorem fieldOf_macWord (opc : Nat) (a : BitVec 3) (p q : BitVec 4) (c g : Bool) (sh : BitVec 5) (x y : Move) (ho : opc < 64) :
    fieldOf (macWord opc a p q c g sh x y) 60 4 = 2 ∧ fieldOf (macWord opc a p q c g sh x y) 54 6 = BitVec.ofNat 6 opc ∧
    fieldOf (macWord opc a p q c g sh x y) 51 3 = a ∧ fieldOf (macWord opc a p q c g sh x y) 47 4 = p ∧
    fieldOf (macWord opc a p q c g sh x y) 43 4 = q ∧ fieldOf (macWord opc a p q c g sh x y) 42 1 = BitVec.ofBool c ∧
    fieldOf (macWord opc a p q c g sh x y) 41 1 = BitVec.ofBool g ∧ fieldOf (macWord opc a p q c g sh x y) 36 5 = sh ∧
    fieldOf (macWord opc a p q c g sh x y) 18 18 = moveBits x ∧ fieldOf (macWord opc a p q c g sh x y) 0 18 = moveBits y := by
  simp [macWord, opBits_eq _ _ ho, flag64_eq]

/-! The class of a word chooses its decoder (Table 11.5). -/

theorem lensDecode_alu (n : Fin 8) {w : BitVec 64} {x y : Move} (h : fieldOf w 60 4 = 1) (hx : moveOf (fieldOf w 18 18) = some x)
    (hy : moveOf (fieldOf w 0 18) = some y) : lensDecode n w = decodeAlu n w x y := by
  simp only [lensDecode, h, hx, hy]
  rfl

theorem lensDecode_mac (n : Fin 8) {w : BitVec 64} {x y : Move} (h : fieldOf w 60 4 = 2) (hx : moveOf (fieldOf w 18 18) = some x)
    (hy : moveOf (fieldOf w 0 18) = some y) : lensDecode n w = decodeMac n w x y := by
  simp only [lensDecode, h, hx, hy]
  rfl

theorem lensDecode_ctl (n : Fin 8) {w : BitVec 64} (h : fieldOf w 60 4 = 0) : lensDecode n w = decodeCtl n w := by
  simp only [lensDecode, h]
  rfl

theorem lensDecode_ldi (n : Fin 8) {w : BitVec 64} (h : fieldOf w 60 4 = 3) : lensDecode n w = decodeLdi n w := by
  simp only [lensDecode, h]
  rfl

theorem lensDecode_bus (n : Fin 8) {w : BitVec 64} (h : fieldOf w 60 4 = 4) : lensDecode n w = decodeBus n w := by
  simp only [lensDecode, h]
  rfl

/-! The round trip, by class. -/

/-- An ALU word is decoded by its own table. -/
theorem lensDecode_aluWord (n : Fin 8) (opc : Nat) (d a b : BitVec 4) (sh : BitVec 6) {x y : Move} (ho : opc < 64)
    (hx : moveLegal x = true) (hy : moveLegal y = true) :
    lensDecode n (aluWord opc d a b sh x y) = decodeAlu n (aluWord opc d a b sh x y) x y := by
  obtain ⟨hcls, -, -, -, -, -, hmx, hmy⟩ := fieldOf_aluWord opc d a b sh x y ho
  exact lensDecode_alu n hcls (hmx ▸ moveOf_moveBits hx) (hmy ▸ moveOf_moveBits hy)

/-- A MAC word is decoded by its own table. -/
theorem lensDecode_macWord (n : Fin 8) (opc : Nat) (a : BitVec 3) (p q : BitVec 4) (c g : Bool) (sh : BitVec 5) {x y : Move}
    (ho : opc < 64) (hx : moveLegal x = true) (hy : moveLegal y = true) :
    lensDecode n (macWord opc a p q c g sh x y) = decodeMac n (macWord opc a p q c g sh x y) x y := by
  obtain ⟨hcls, -, -, -, -, -, -, -, hmx, hmy⟩ := fieldOf_macWord opc a p q c g sh x y ho
  exact lensDecode_mac n hcls (hmx ▸ moveOf_moveBits hx) (hmy ▸ moveOf_moveBits hy)

/-- The single bits of a MAC word. -/
theorem getLsbD_macWord (opc : Nat) (a : BitVec 3) (p q : BitVec 4) (c g : Bool) (sh : BitVec 5) (x y : Move) (ho : opc < 64) :
    (macWord opc a p q c g sh x y).getLsbD 42 = c ∧ (macWord opc a p q c g sh x y).getLsbD 41 = g := by
  obtain ⟨-, -, -, -, -, hc, hg, -⟩ := fieldOf_macWord opc a p q c g sh x y ho
  exact ⟨getLsbD_of_fieldOf hc, getLsbD_of_fieldOf hg⟩

/-- Settles O47, class by class: the class of the word chooses its decoder, which finds OPC and every field at its place. -/
theorem lensWordsRoundTrip : Obligations.LensWordsRoundTrip := by
  intro i n w hcore hlegal henc
  cases i <;> cases hcore <;> cases henc
  case lAdd | lSub | lAnd | lOr | lXor | lAsl | lAsr | lLsr | lAbs | lNeg | lMin | lMax | lMov | lCmp | lPar =>
    simp only [lensLegal, Bool.and_eq_true, decide_eq_true_eq] at hlegal
    simp [hlegal, lensDecode_aluWord, decodeAlu, fieldOf_aluWord]
  case lMpy | lMac | lMpy4 | lMac4 | lMac2e | lMac2c | lClr | lClr4 | lRnd | lMva =>
    simp only [lensLegal, Bool.and_eq_true, decide_eq_true_eq] at hlegal
    simp [hlegal, lensDecode_macWord, decodeMac, fieldOf_macWord, getLsbD_macWord, -BitVec.getLsbD_eq_getElem]
  case lNop | lEnd | lBr | lCall | lRet | lLoop | lRep | lBrk =>
    rw [lensDecode_ctl]
    · simp_all [lensLegal, decodeCtl, opBits_eq, flag64_eq, getLsbD_at64,
        -BitVec.getLsbD_eq_getElem]
    · simp [opBits_eq, flag64_eq]
  case lLdi | lMvr =>
    rw [lensDecode_ldi]
    · simp_all [lensLegal, decodeLdi, opBits_eq]
    · simp [opBits_eq]
  case lLds | lSts | lLks | lUns | lLdb | lStb =>
    rw [lensDecode_bus]
    · simp [decodeBus, opBits_eq]
    · simp [opBits_eq]

end Sys2Proof.Machine
end

section
/-! Packets and replies (04): what posting a reply leaves of the state and of a tenant, and how an accepted packet goes on. -/

namespace Sys2Proof.Machine

/-! Tables. -/

/-- A change of one entry that a reading does not see leaves the readings of the whole table. -/
theorem map_updAt {α β : Type} (l : List α) (i : Nat) (f : α → α) (g : α → β) (h : ∀ x, g (f x) = g x) :
    (updAt l i f).map g = l.map g := by
  apply List.ext_getElem?
  intro k
  simp only [updAt, List.getElem?_map, List.getElem?_modify]
  split
  · cases l[k]? <;> simp [h]
  · simp

/-- Tables with the same readings have the same reading at each place. -/
theorem nth_of_map_eq {α β : Type} [Inhabited α] {l l' : List α} {g : α → β} (h : l.map g = l'.map g) (k : Nat) :
    g (nth l k) = g (nth l' k) := by
  have hk : (l.map g)[k]? = (l'.map g)[k]? := by rw [h]
  simp only [List.getElem?_map] at hk
  simp only [nth, List.getD_eq_getElem?_getD]
  cases hl : l[k]? <;> cases hl' : l'[k]? <;> simp_all

/-- A tenant's entry in a table that has one for it. -/
theorem tenant_modTenant_self {t : Nat} {s : State} (f : Tenant → Tenant) (h : t < s.tenants.length) :
    (modTenant t f s).tenant t = f (s.tenant t) := nth_updAt_self _ _ _ h

theorem tenant_modTenant_other {t k : Nat} (f : Tenant → Tenant) (s : State) (h : t ≠ k) :
    (modTenant t f s).tenant k = s.tenant k := nth_updAt_other _ _ _ _ h

/-- A tenant that is not closed stands in the table. -/
theorem tenant_lt_of_open {t : Nat} {s : State} (h : (s.tenant t).st ≠ .closed) : t < s.tenants.length := by
  by_contra hlt
  exact h (by simp [State.tenant, nth, List.getD_eq_getElem?_getD, List.getElem?_eq_none (Nat.le_of_not_lt hlt)]; rfl)

/-! The Eyelet's side of a tenant: what delivering replies and raising interrupts change. -/

/-- A tenant without its outbox, replies, interrupts seen and state of opening. -/
def sansEyelet (n : Tenant) : Tenant :=
  { n with st := .closed, rTail := 0, outbox := [], outFull := false, replyQ := [], waiting := [], irqSeen := 0 }

/-- What the delivery of replies leaves of a state. -/
structure RepliesOnly (s u : State) : Prop where
  rest : u = { s with
    tenants := u.tenants, out := u.out, plink := u.plink, evrec := u.evrec
    sys := { s.sys with aonEvents := u.sys.aonEvents, aonDropped := u.sys.aonDropped } }
  tenants : u.tenants.map sansEyelet = s.tenants.map sansEyelet

/-- The parts of the state that a delivery of replies reaches. -/
theorem RepliesOnly.frame {s u : State} (h : RepliesOnly s u) :
    u = { s with tenants := u.tenants, out := u.out, plink := u.plink, evrec := u.evrec, sys := u.sys } := by
  obtain ⟨hrest, -⟩ := h
  cases u
  cases s
  simp only [State.mk.injEq] at hrest ⊢
  tauto

theorem RepliesOnly.refl (s : State) : RepliesOnly s s := ⟨rfl, rfl⟩

theorem RepliesOnly.trans {s u v : State} (h : RepliesOnly s u) (h' : RepliesOnly u v) : RepliesOnly s v :=
  ⟨by rw [h'.rest, h.rest], h'.tenants.trans h.tenants⟩

theorem RepliesOnly.record {s u : State} (h : RepliesOnly s u) (c o : Nat) (d : List (Nat × Nat)) :
    RepliesOnly s (record c o d u) :=
  h.trans ⟨by rw [record_eq], by rw [record_tenants]⟩

theorem RepliesOnly.emit {s u : State} (h : RepliesOnly s u) (o : Output) : RepliesOnly s (emit o u) := h.trans ⟨rfl, rfl⟩

theorem RepliesOnly.modTenant {s u : State} (h : RepliesOnly s u) (t : Nat) (f : Tenant → Tenant)
    (hf : ∀ n, sansEyelet (f n) = sansEyelet n) : RepliesOnly s (modTenant t f u) := h.trans ⟨rfl, map_updAt _ _ _ _ hf⟩

theorem RepliesOnly.modPl {s u : State} (h : RepliesOnly s u) (p : Nat) (f : PlPort → PlPort) : RepliesOnly s (modPl p f u) :=
  h.trans ⟨rfl, rfl⟩

theorem repliesOnly_deliverOne (t : Nat) (s : State) : RepliesOnly s (deliverOne t s) := by
  have h := RepliesOnly.refl s
  unfold deliverOne
  dsimp only
  split
  · exact h
  · split_ifs
    · exact .emit (h.modTenant _ _ fun n => by rfl) _
    · exact h
    · exact h
    · exact h.modTenant _ _ fun n => by rfl

theorem repliesOnly_deliverMany (k t : Nat) (s : State) : RepliesOnly s (deliverMany k t s) := by
  induction k generalizing s with
  | zero => exact .refl s
  | succ k ih => exact (repliesOnly_deliverOne t s).trans (ih _)

theorem repliesOnly_finishClose (t : Nat) (s : State) : RepliesOnly s (finishClose t s) := by
  have h := RepliesOnly.refl s
  unfold finishClose
  dsimp only
  split
  · exact .record (h.modTenant _ _ fun n => by rfl) _ _ _
  · exact h

theorem repliesOnly_deliver (t : Nat) (s : State) : RepliesOnly s (deliver t s) :=
  (repliesOnly_deliverMany _ t s).trans (repliesOnly_finishClose t _)

theorem repliesOnly_enqueue (t : Nat) (timed : Bool) (r : Reply) (s : State) : RepliesOnly s (enqueue t timed r s) := by
  have h := RepliesOnly.refl s
  unfold enqueue
  split
  · exact h
  · exact (h.modTenant _ _ fun n => by split <;> rfl).trans (repliesOnly_deliver t _)

theorem repliesOnly_queueCell (c : QueuedCell) (s : State) : RepliesOnly s (queueCell c s) := by
  have h := RepliesOnly.refl s
  unfold queueCell
  split
  · exact h
  · split
    · exact h.modPl _ _
    · exact .record (h.modPl _ _) _ _ _

/-- Posting a reply delivers it, or sends it over the fabric. -/
theorem repliesOnly_post (t : Nat) (timed : Bool) (r : Reply) (s : State) : RepliesOnly s (post t timed r s) := by
  unfold post
  split
  · exact .refl s
  · split
    · split
      · exact repliesOnly_enqueue _ _ _ s
      · exact repliesOnly_queueCell _ s
    · exact repliesOnly_enqueue _ _ _ s

theorem repliesOnly_say (r : Req) (i : Instr) (st : Status) (res : List Byte) (s : State) : RepliesOnly s (say r i st res s) :=
  repliesOnly_post _ _ _ s

theorem repliesOnly_sayInterim (r : Req) (i : Instr) (st : Status) (res : List Byte) (s : State) :
    RepliesOnly s (sayInterim r i st res s) := by
  unfold sayInterim
  split
  · exact .refl s
  · exact repliesOnly_say r i st res s

theorem repliesOnly_msixTenant (s : State) (t : Nat) : RepliesOnly s (msixTenant s t) := by
  unfold msixTenant
  dsimp only
  have h := RepliesOnly.refl s
  split
  · exact h
  · split
    · exact (h.modTenant _ _ fun n => by rfl).trans ⟨rfl, rfl⟩
    · exact h.modTenant _ _ fun n => by rfl

theorem repliesOnly_msixScan (k : Nat) (s : State) : RepliesOnly s (msixScan k s) := by
  induction k with
  | zero => exact .refl s
  | succ k ih => exact ih.trans (repliesOnly_msixTenant _ _)

/-- Every tenant keeps all but its Eyelet's side. -/
theorem RepliesOnly.tenant {s u : State} (h : RepliesOnly s u) (t : Nat) : sansEyelet (u.tenant t) = sansEyelet (s.tenant t) :=
  nth_of_map_eq h.tenants t

theorem RepliesOnly.pend {s u : State} (h : RepliesOnly s u) (t : Nat) : (u.tenant t).pend = (s.tenant t).pend :=
  (congrArg Tenant.pend (h.tenant t) :)

theorem RepliesOnly.groups {s u : State} (h : RepliesOnly s u) (t : Nat) : (u.tenant t).groups = (s.tenant t).groups :=
  (congrArg Tenant.groups (h.tenant t) :)

theorem RepliesOnly.class2 {s u : State} (h : RepliesOnly s u) (t : Nat) : (u.tenant t).class2 = (s.tenant t).class2 :=
  (congrArg Tenant.class2 (h.tenant t) :)

theorem RepliesOnly.inbox {s u : State} (h : RepliesOnly s u) (t : Nat) : (u.tenant t).inbox = (s.tenant t).inbox :=
  (congrArg Tenant.inbox (h.tenant t) :)

theorem RepliesOnly.ringCfg {s u : State} (h : RepliesOnly s u) (t : Nat) :
    (u.tenant t).clog2 = (s.tenant t).clog2 ∧ (u.tenant t).rlog2 = (s.tenant t).rlog2 ∧ (u.tenant t).ringEn = (s.tenant t).ringEn :=
  ⟨(congrArg Tenant.clog2 (h.tenant t) :), (congrArg Tenant.rlog2 (h.tenant t) :), (congrArg Tenant.ringEn (h.tenant t) :)⟩

/-- The tenant of an accepted packet stands in the table. -/
theorem tenant_lt_of_accepted {i : Instr} {r : Req} {s : State} (hr : reqOf i = some r) (h : accepted i s = true) :
    r.tenant < s.tenants.length := by
  simp only [accepted, reaches, hr, admitted, Bool.and_eq_true, decide_eq_true_eq] at h
  obtain ⟨⟨⟨⟨⟨-, hopen, -⟩, -⟩, -⟩, -⟩, -⟩ := h
  exact tenant_lt_of_open (by rw [hopen]; decide)

/-- An accepted packet is executed, and the interrupts follow. -/
theorem exec_accepted {i : Instr} {r : Req} {m : Meaning} {s : State} (hr : reqOf i = some r) (hm : meaningOf i = some m)
    (h : accepted i s = true) : exec i s = .next (msixScan 16 (execute i r m s)) := by
  rw [exec_of_meaning s hm, submit_accepted hr hm h]
  rfl

theorem refusal_of_accepted {i : Instr} {r : Req} {m : Meaning} {s : State} (hr : reqOf i = some r) (hm : meaningOf i = some m)
    (h : accepted i s = true) : refusal i r m s = none := by
  simp only [accepted, hr, hm, Bool.and_eq_true, decide_eq_true_eq] at h
  exact h.2

/-- An accepted packet has one of the classes of its opcode. -/
theorem cls_mem_of_accepted {i : Instr} {r : Req} {m : Meaning} {s : State} (hr : reqOf i = some r) (hm : meaningOf i = some m)
    (h : accepted i s = true) : r.cls.toNat ∈ (opInfo i).classes := by
  obtain ⟨hcls, -⟩ := refusal_none (refusal_of_accepted hr hm h)
  simpa using hcls

/-! Groups (R104). -/

theorem groupOf_congr {n n' : Tenant} (h : n.groups = n'.groups) (g : Nat) : groupOf n g = groupOf n' g := by
  rw [groupOf, groupOf, h]

/-- A change of a group's contents that keeps its number. -/
theorem groupOf_map {n : Tenant} {g : Nat} (f : Group → Group) (hf : ∀ x, (f x).num = x.num) :
    groupOf { n with groups := n.groups.map f } g = (groupOf n g).map f := by
  simp only [groupOf, List.find?_map]
  congr 1
  exact congrArg (List.find? · n.groups) (funext fun x => by simp [hf])

theorem num_of_groupOf {n : Tenant} {g : Nat} {x : Group} (h : groupOf n g = some x) : x.num = g := by
  simpa using List.find?_some h

/-- Staging puts a command into its group at its place by GSEQ. -/
theorem groupOf_stageIn (n : Tenant) (g : Nat) (x : Staged) :
    ∃ y, groupOf (stageIn g x n) g = some y ∧
      y.staged = insertStaged x (match groupOf n g with | some y => y.staged | none => []) := by
  unfold stageIn
  cases h : groupOf n g with
  | some y =>
    refine ⟨{ y with staged := insertStaged x y.staged }, ?_, rfl⟩
    dsimp only
    rw [groupOf_map _ fun z => by split <;> rfl, h, Option.map_some, if_pos (num_of_groupOf h)]
  | none =>
    refine ⟨{ num := g, staged := [x] }, ?_, rfl⟩
    simp only [groupOf] at h ⊢
    rw [List.find?_append, h]
    simp

theorem stageIn_eq (n : Tenant) (g : Nat) (x : Staged) : stageIn g x n = { n with groups := (stageIn g x n).groups } := by
  unfold stageIn
  split <;> rfl

/-- Settles O11: the command stands in its group by GSEQ, and the interim reply leaves groups and pending commands alone. -/
theorem stagingStages : Obligations.StagingStages := by
  intro i r m s hr hm hacc hgroup hcmd
  have hlt := tenant_lt_of_accepted hr hacc
  have hexec : execute i r m s = stage i r m s := by
    rw [execute, if_pos (by simpa [hcmd] using hgroup)]
  set x : Staged := { gseq := r.gseq.toNat, entries := entriesOf s i, cmd := i, copied := m.copy s } with hx
  have hrep : RepliesOnly (modTenant r.tenant (stageIn r.group.toNat x) s) (msixScan 16 (execute i r m s)) := by
    rw [hexec]
    exact (repliesOnly_sayInterim _ _ _ _ _).trans (repliesOnly_msixScan _ _)
  obtain ⟨g, hg, hstaged⟩ := groupOf_stageIn (s.tenant r.tenant) r.group.toNat x
  refine ⟨_, g, exec_accepted hr hm hacc, ?_, hstaged, ?_, ?_⟩
  · rw [groupOf_congr (hrep.groups _), tenant_modTenant_self _ hlt, hg]
  · rw [hrep.pend, tenant_modTenant_self _ hlt, stageIn_eq]
  · exact hrep.frame

/-! Refusals (R98). -/

/-- What a refusal leaves beside its reply: the state, or the state with an event recorded. -/
theorem onRefuse_eq {i : Instr} {m : Meaning} (hm : meaningOf i = some m) (st : Status) (s : State) :
    m.onRefuse st s = s ∨ ∃ c o d, m.onRefuse st s = record c o d s := by
  cases i <;> cases hm
  case evrecConfig | evrecFlush | fuseProgram | wdogConfig =>
    dsimp only [evrecConfigM, evrecFlushM, fuseProgramM, wdogConfigM]
    split
    · exact .inr ⟨_, _, _, rfl⟩
    · exact .inl rfl
  case sceneRecall =>
    dsimp only [sceneRecallM]
    split
    · split
      · split
        · exact .inr ⟨_, _, _, rfl⟩
        · exact .inl rfl
      · exact .inl rfl
    · exact .inl rfl
  case lensLoad =>
    dsimp only [lensLoadM, tellImage]
    split
    · split
      · exact .inr ⟨_, _, _, rfl⟩
      · exact .inl rfl
    · exact .inl rfl
  all_goals exact .inl rfl

theorem sansEvents_onRefuse {i : Instr} {m : Meaning} (hm : meaningOf i = some m) (st : Status) (s : State) :
    sansEvents s (m.onRefuse st s) = s := by
  obtain h | ⟨c, o, d, h⟩ := onRefuse_eq hm st s
  · rw [h]
    rfl
  · rw [h, sansEvents_record]
    rfl

/-- Settles O6: a refusal by R98 leaves the state as it is, or records an event. -/
theorem refusedPacketIsNotExecuted : Obligations.RefusedPacketIsNotExecuted :=
  fun _ _ m s st hr hm hreach href => ⟨m.onRefuse st s, answers_of_refusal hr hm hreach href, sansEvents_onRefuse hm st s⟩

/-! Commands that wait: for a swap boundary, for their time, or in the class 2 queue (R100). -/

/-- What happens at acceptance leaves the pending commands, and beside them the tenants and the fabric, alone. -/
theorem onAccept_default {i : Instr} {m : Meaning} (hm : meaningOf i = some m) (s : State) (hg : ∀ r, i ≠ .groupCommit r)
    (hp : ∀ r f t g, i ≠ .fabricPrepare r f t g) (ha : ∀ r f, i ≠ .fabricApply r f) : m.onAccept s = (s, .pending, []) := by
  cases i <;> cases hm
  case groupCommit r => exact absurd rfl (hg r)
  case fabricPrepare r f t g => exact absurd rfl (hp r f t g)
  case fabricApply r f => exact absurd rfl (ha r f)
  all_goals rfl

/-- A command held leaves all but its tenant and what its acceptance does. -/
theorem hold_frame {i : Instr} {r : Req} {m : Meaning} {due : Time} {timed : Bool} {s v : State} {st : Status} {res : List Byte}
    (h : m.onAccept s = (v, st, res)) :
    RepliesOnly (modTenant r.tenant (fun n => { n with pend := n.pend ++ [{ cmd := i, due, timed, copied := m.copy s }] }) v)
      (msixScan 16 (hold i r m due timed s)) := by
  rw [hold, h]
  exact (repliesOnly_sayInterim _ _ _ _ _).trans (repliesOnly_msixScan _ _)

/-- A packet of class 1 or 2 is not staged (R104). -/
theorem not_staged_of_cls {i : Instr} {r : Req} {m : Meaning} {s : State} (hr : reqOf i = some r) (hm : meaningOf i = some m)
    (h : accepted i s = true) (hcls : r.cls ≠ 0) : ¬ (decide (r.group ≠ 0) && !isGroupCmd i) = true := by
  obtain ⟨-, -, -, -, -, -, hgroup, -⟩ := refusal_none (refusal_of_accepted hr hm h)
  intro hstaged
  simp only [Bool.and_eq_true, decide_eq_true_eq, Bool.not_eq_true'] at hstaged
  obtain ⟨hg, hcmd⟩ := hstaged
  rw [groupCheck, if_neg (by simp [hcmd]), if_neg hg, if_pos (by simp only [decide_eq_true hcls, Bool.true_or])] at hgroup
  cases hgroup

/-- Settles O14: what is accepted for a time joins its tenant's pending commands. -/
theorem timedCommandsWait : Obligations.TimedCommandsWait := by
  intro i r m s hr hm hacc hcls hclose hswap happly
  have hclasses := cls_mem_of_accepted hr hm hacc
  have hungrouped := not_staged_of_cls hr hm hacc (by rw [hcls]; decide)
  have hexec : execute i r m s = hold i r m (applyTime r.apply) true s := by
    rw [execute, if_neg hungrouped]
    simp [hcls, hclose]
  have haccept : m.onAccept s = (s, .pending, []) := by
    refine onAccept_default hm s ?_ ?_ ?_
    · rintro q rfl
      cases hswap
    · rintro q f t g rfl
      simp [hcls, opInfo] at hclasses
    · exact happly
  have hrep := hold_frame (i := i) (r := r) (due := applyTime r.apply) (timed := true) haccept
  rw [← hexec] at hrep
  refine ⟨_, exec_accepted hr hm hacc, ?_, ?_⟩
  · rw [hrep.pend, tenant_modTenant_self _ (tenant_lt_of_accepted hr hacc)]
  · exact hrep.frame

/-- What waits for a swap boundary has class 0 or 1. -/
theorem classes_of_atSwap {i : Instr} (h : atSwap i = true) : (opInfo i).classes = [0, 1] := by
  cases i <;> first | rfl | cases h

/-- The acceptance of a command that waits for a swap boundary leaves all but the groups of tenants. -/
theorem onAccept_atSwap {i : Instr} {m : Meaning} (hm : meaningOf i = some m) (s : State) (h : atSwap i = true) :
    ∃ v st res, m.onAccept s = (v, st, res) ∧ v = { s with tenants := v.tenants } ∧ v.tenants.length = s.tenants.length ∧
      ∀ t, (v.tenant t).pend = (s.tenant t).pend := by
  by_cases hcommit : ∃ r, i = .groupCommit r
  · obtain ⟨r, rfl⟩ := hcommit
    cases hm
    refine ⟨modGroup r.tenant r.group.toNat commitMark s, ?_⟩
    have hpend : ∀ t, ((modGroup r.tenant r.group.toNat commitMark s).tenant t).pend = (s.tenant t).pend :=
      nth_of_map_eq (map_updAt s.tenants _ _ (fun n => n.pend) fun n => rfl)
    dsimp only [groupCommitM]
    split <;> exact ⟨_, _, rfl, rfl, length_updAt _ _ _, hpend⟩
  · refine ⟨s, .pending, [], onAccept_default hm s (fun r h => hcommit ⟨r, h⟩) ?_ ?_, rfl, rfl, fun _ => rfl⟩
    · rintro _ _ _ _ rfl
      cases h
    · rintro _ _ rfl
      cases h

/-- What waits for a swap boundary is held at acceptance. -/
theorem execute_atSwap {i : Instr} {r : Req} {m : Meaning} {s : State} (hr : reqOf i = some r) (hm : meaningOf i = some m)
    (hacc : accepted i s = true) (hswap : atSwap i = true) (hgroup : r.group = 0 ∨ isGroupCmd i = true) :
    execute i r m s =
      hold i r m (if r.cls = 1 ∧ tooClose s r i = false then applyTime r.apply else s.now) (decide (r.cls = 1)) s := by
  have hclasses := cls_mem_of_accepted hr hm hacc
  rw [classes_of_atSwap hswap] at hclasses
  have hungrouped : ¬ (decide (r.group ≠ 0) && !isGroupCmd i) = true := by
    rcases hgroup with h | h <;> simp [h]
  have hcls : r.cls = 0 ∨ r.cls = 1 := by
    simp only [List.mem_cons, List.not_mem_nil, or_false] at hclasses
    exact hclasses.imp (BitVec.eq_of_toNat_eq ·) (BitVec.eq_of_toNat_eq ·)
  rw [execute, if_neg hungrouped]
  rcases hcls with h | h
  · simp [h, hswap]
  · by_cases hclose : tooClose s r i = true <;> simp [h, hswap, hclose]

/-- Settles O12: what waits for a swap boundary joins its tenant's pending commands at acceptance. -/
theorem swapCommandsWait : Obligations.SwapCommandsWait := by
  intro i r m s hr hm hacc hswap hgroup
  obtain ⟨v, st, res, hon, hv, hlen, hpend⟩ := onAccept_atSwap hm s hswap
  have hrep := hold_frame (i := i) (r := r) (due := if r.cls = 1 ∧ tooClose s r i = false then applyTime r.apply else s.now)
    (timed := decide (r.cls = 1)) hon
  rw [← execute_atSwap hr hm hacc hswap hgroup] at hrep
  refine ⟨_, exec_accepted hr hm hacc, ?_, ?_⟩
  · rw [hrep.pend, tenant_modTenant_self _ (hlen ▸ tenant_lt_of_accepted hr hacc), hpend]
  · rw [hv] at hrep
    exact hrep.frame

/-! Class 2 commands (R100): what their acceptance and start leave. -/

/-- The commands of every tenant, the Last, the holders of units and the Store stay. -/
structure QueuesKept (s u : State) : Prop where
  tenants : u.tenants.map (fun n => (n.pend, n.class2)) = s.tenants.map (fun n => (n.pend, n.class2))
  last : u.last = s.last
  owners : u.owners = s.owners
  store : u.store = s.store

theorem QueuesKept.refl (s : State) : QueuesKept s s := ⟨rfl, rfl, rfl, rfl⟩

theorem QueuesKept.trans {s u v : State} (h : QueuesKept s u) (h' : QueuesKept u v) : QueuesKept s v :=
  ⟨h'.tenants.trans h.tenants, h'.last.trans h.last, h'.owners.trans h.owners, h'.store.trans h.store⟩

theorem QueuesKept.tenant {s u : State} (h : QueuesKept s u) (t : Nat) :
    (u.tenant t).pend = (s.tenant t).pend ∧ (u.tenant t).class2 = (s.tenant t).class2 :=
  Prod.mk.injEq .. ▸ (nth_of_map_eq h.tenants t :)

theorem QueuesKept.length {s u : State} (h : QueuesKept s u) : u.tenants.length = s.tenants.length := by
  simpa using congrArg List.length h.tenants

theorem RepliesOnly.queuesKept {s u : State} (h : RepliesOnly s u) : QueuesKept s u := by
  refine ⟨?_, ?_, ?_, ?_⟩
  · have hmap := congrArg (List.map fun n : Tenant => (n.pend, n.class2)) h.tenants
    rwa [List.map_map, List.map_map] at hmap
  all_goals rw [h.rest]

theorem QueuesKept.record {s u : State} (h : QueuesKept s u) (c o : Nat) (d : List (Nat × Nat)) : QueuesKept s (record c o d u) :=
  h.trans (RepliesOnly.record (.refl u) c o d).queuesKept

theorem QueuesKept.modPl {s u : State} (h : QueuesKept s u) (p : Nat) (f : PlPort → PlPort) : QueuesKept s (modPl p f u) :=
  h.trans ⟨rfl, rfl, rfl, rfl⟩

theorem QueuesKept.plink {s u : State} (h : QueuesKept s u) (k : Plink) : QueuesKept s { u with plink := k } :=
  h.trans ⟨rfl, rfl, rfl, rfl⟩

theorem QueuesKept.modEvrec {s u : State} (h : QueuesKept s u) (f : Evrec → Evrec) : QueuesKept s (modEvrec f u) :=
  h.trans ⟨rfl, rfl, rfl, rfl⟩

theorem QueuesKept.modGroup {s u : State} (h : QueuesKept s u) (t num : Nat) (f : Group → Group) :
    QueuesKept s (modGroup t num f u) :=
  h.trans ⟨map_updAt _ _ _ _ fun n => by rfl, rfl, rfl, rfl⟩

theorem QueuesKept.sendExpress {s u : State} (h : QueuesKept s u) (p : Nat) (c : ExpressCell) :
    QueuesKept s (Machine.sendExpress p c u) :=
  h.modPl _ _

theorem QueuesKept.sendEach {s u : State} (h : QueuesKept s u) (l : List Nat) (c : State → ExpressCell) :
    QueuesKept s (l.foldl (fun s p => Machine.sendExpress p (c s) s) u) := by
  induction l generalizing u with
  | nil => exact h
  | cons p l ih => exact ih (h.sendExpress p _)

theorem QueuesKept.blockPort {s u : State} (h : QueuesKept s u) (p reason : Nat) : QueuesKept s (blockPort p reason u) :=
  .record (.plink (h.modPl _ _) _) _ _ _

theorem QueuesKept.otherNodes {s u : State} (h : QueuesKept s u) (n : Nat) : QueuesKept s (otherNodes n u).2.2 := by
  unfold Machine.otherNodes
  split
  · exact h
  · exact h.trans ⟨rfl, rfl, rfl, rfl⟩

theorem QueuesKept.enumFinish {s u : State} (h : QueuesKept s u) (e : EnumRun) : QueuesKept s (enumFinish e u) := by
  unfold Machine.enumFinish
  split
  · exact h.plink _
  · split
    · exact .record (.plink (h.otherNodes _) _) _ _ _
    · exact .sendEach (h.plink _) _ fun s => .enumDone e.next s.plink.epoch

theorem QueuesKept.enumGo (k : Nat) {s u : State} (h : QueuesKept s u) : QueuesKept s (enumGo k u) := by
  induction k generalizing u with
  | zero => exact h
  | succ k ih =>
    unfold Machine.enumGo
    split
    · exact h
    · split_ifs
      · exact h.enumFinish _
      · exact ih (h.plink _)
      · exact ih ((h.blockPort _ _).plink _)
      · exact ih ((h.blockPort _ _).plink _)
      · exact h.sendExpress _ _

theorem QueuesKept.startEnumerate {s u : State} (h : QueuesKept s u) (b : Bool) (t : Nat) : QueuesKept s (startEnumerate b t u) := by
  refine .enumGo 6 ?_
  split
  · exact h.plink _
  · exact .record (h.plink _) _ _ _

theorem QueuesKept.startPrepare {s u : State} (h : QueuesKept s u) (fid t g b : Nat) : QueuesKept s (startPrepare fid t g b u) := by
  unfold Machine.startPrepare
  refine .sendEach (.plink ?_ _) _ fun _ => .prepare fid t g
  split
  · exact .record (.modGroup (h.plink _) _ _ _) _ _ _
  · exact h

theorem QueuesKept.startDump {s u : State} (h : QueuesKept s u) (k : Nat) (b : Bool) : QueuesKept s (startDump k b u) := by
  unfold Machine.startDump
  split
  · split
    · exact h
    · exact h.record _ _ _
  · exact .record (h.modEvrec _) _ _ _

/-- The start of a class 2 command leaves every tenant's commands, the Last, the holders of units and the Store. -/
theorem queuesKept_start {i : Instr} {m : Meaning} (hm : meaningOf i = some m) (s : State) : QueuesKept s (m.start s) := by
  have h := QueuesKept.refl s
  cases i <;> cases hm
  case evrecFlush => exact (h.modEvrec _).startDump _ _
  case evrecErase =>
    dsimp only [evrecEraseM]
    split
    · exact h.modEvrec _
    · exact h
  case plinkEnumerate => exact h.startEnumerate _ _
  all_goals exact h

theorem queuesKept_onAccept {i : Instr} {m : Meaning} (hm : meaningOf i = some m) (s : State)
    (hcls : 2 ∈ (opInfo i).classes) : QueuesKept s (m.onAccept s).1 := by
  by_cases hprep : ∃ r f t g, i = .fabricPrepare r f t g
  · obtain ⟨r, f, t, g, rfl⟩ := hprep
    cases hm
    exact (QueuesKept.refl s).startPrepare _ _ _ _
  · rw [onAccept_default hm s ?_ (fun r f t g h => hprep ⟨r, f, t, g, h⟩) ?_]
    · exact .refl s
    · rintro _ rfl
      simp [opInfo] at hcls
    · rintro _ _ rfl
      simp [opInfo] at hcls

theorem startClass2_eq (i : Instr) (r : Req) (m : Meaning) (s : State) :
    startClass2 i r m s =
      let u := sayInterim r i (m.onAccept s).2.1 (m.onAccept s).2.2
        (modTenant r.tenant (fun n => { n with class2 := n.class2 ++ [{ cmd := i }] }) (m.onAccept s).1)
      if (s.tenant r.tenant).class2.isEmpty then m.start u else u := rfl

/-- Settles O16: the command stands at the end of its tenant's queue, and its start takes none from it. -/
theorem class2CommandsQueue : Obligations.Class2CommandsQueue := by
  intro i r m s hr hm hacc hcls
  have hclasses := cls_mem_of_accepted hr hm hacc
  rw [hcls] at hclasses
  have hon := queuesKept_onAccept hm s hclasses
  set v := (m.onAccept s).1
  set w := modTenant r.tenant (fun n => { n with class2 := n.class2 ++ [{ cmd := i }] }) v with hw
  have hkept : QueuesKept w (msixScan 16 (execute i r m s)) := by
    refine .trans ?_ (repliesOnly_msixScan _ _).queuesKept
    rw [execute, if_neg (not_staged_of_cls hr hm hacc (by rw [hcls]; decide)), if_pos hcls, startClass2_eq]
    dsimp only
    have hsay := (repliesOnly_sayInterim r i (m.onAccept s).2.1 (m.onAccept s).2.2 w).queuesKept
    split
    · exact hsay.trans (queuesKept_start hm _)
    · exact hsay
  obtain ⟨hpend, hclass2⟩ := hkept.tenant r.tenant
  have hlt : (r.tenant : Nat) < v.tenants.length := hon.length ▸ tenant_lt_of_accepted hr hacc
  refine ⟨_, exec_accepted hr hm hacc, ?_, ?_, ?_, ?_, ?_⟩
  · rw [hclass2, hw, tenant_modTenant_self _ hlt, (hon.tenant _).2]
  · rw [hpend, hw, tenant_modTenant_self _ hlt, (hon.tenant _).1]
  · exact hkept.last.trans hon.last
  · exact hkept.owners.trans hon.owners
  · exact hkept.store.trans hon.store

end Sys2Proof.Machine
end

section
/-! Packets and replies (04): the outbox, commit groups and their epochs, and commands whose time has come. -/

namespace Sys2Proof.Machine

/-! The outbox (R91 to R93). -/

/-- Two changes of one entry that agree on it are one change of the table. -/
theorem updAt_congr {α : Type} [Inhabited α] (l : List α) (i : Nat) {f g : α → α} (h : f (nth l i) = g (nth l i)) :
    updAt l i f = updAt l i g := by
  apply List.ext_getElem?
  intro k
  simp only [updAt, List.getElem?_modify]
  split
  · next hk =>
    subst hk
    simp only [nth, List.getD_eq_getElem?_getD] at h
    cases hl : l[i]? <;> simp_all
  · rfl

theorem updAt_updAt {α : Type} (l : List α) (i : Nat) (f g : α → α) : updAt (updAt l i f) i g = updAt l i fun x => g (f x) := by
  apply List.ext_getElem?
  intro k
  simp only [updAt, List.getElem?_modify]
  split <;> cases l[k]? <;> rfl

theorem modTenant_congr {t : Nat} {s : State} {f g : Tenant → Tenant} (h : f (s.tenant t) = g (s.tenant t)) :
    modTenant t f s = modTenant t g s := by
  rw [modTenant, modTenant, updAt_congr _ _ h]

theorem modTenant_modTenant (t : Nat) (f g : Tenant → Tenant) (s : State) :
    modTenant t g (modTenant t f s) = modTenant t (fun n => g (f n)) s := by
  simp only [modTenant, updAt_updAt]

/-- A tenant that is open does not finish closing. -/
theorem finishClose_of_open {t : Nat} {s : State} (h : (s.tenant t).st = .open) : finishClose t s = s := by
  simp [finishClose, h]

/-- With the outbox full and no rings, nothing is delivered. -/
theorem deliverMany_of_full {t : Nat} {s : State} (hfull : (s.tenant t).outFull = true) (hring : (s.tenant t).ringEn = false)
    (k : Nat) : deliverMany k t s = s := by
  induction k with
  | zero => rfl
  | succ k ih =>
    have hone : deliverOne t s = s := by
      unfold deliverOne
      dsimp only
      split
      · rfl
      · rw [if_neg (by simp [hring]), if_pos hfull]
    rw [deliverMany, hone, ih]

/-- A reply of an open tenant is queued, and what can be delivered is. -/
theorem post_open {t : Nat} {timed : Bool} {r : Reply} {s : State} (hgrace : s.wdog.grace = false) (hdest : r.dest = none)
    (hopen : (s.tenant t).st = .open) (hroom : (s.tenant t).replyQ.length < 80) :
    post t timed r s = deliver t (modTenant t (fun n => { n with replyQ := n.replyQ ++ [r] }) s) := by
  rw [post, if_neg (by simp [hgrace]), hdest]
  dsimp only
  rw [enqueue, if_neg (by simp [hopen])]
  exact congrArg (deliver t) (modTenant_congr (if_pos hroom))

/-- Settles O17: one reply stands in the free outbox, another waits behind a full one. -/
theorem replyGoesToTheOutbox : Obligations.ReplyGoesToTheOutbox := by
  refine ⟨fun t timed r s hgrace hdest hopen hring => ⟨fun hq hw hfull => ?_, fun hfull hroom => ?_⟩, fun r hraw => ?_, ?_⟩
  · have hlt := tenant_lt_of_open (s := s) (t := t) (by rw [hopen]; decide)
    rw [post_open hgrace hdest hopen (by simp [hq]), deliver]
    set s1 := modTenant t (fun n => { n with replyQ := n.replyQ ++ [r] }) s with hs1
    have hten : s1.tenant t = { s.tenant t with replyQ := [r] } := by
      rw [hs1, tenant_modTenant_self _ hlt, hq, List.nil_append]
    have hone : deliverOne t s1 = modTenant t (fun n => { n with outbox := replyBytes r, outFull := true }) s := by
      unfold deliverOne
      simp only [hten, hw, hring, hfull, Bool.false_eq_true, if_false]
      rw [hs1, modTenant_modTenant]
      refine modTenant_congr ?_
      simp [hq, hw]
    rw [hten, hw]
    simp only [List.length_cons, List.length_nil, deliverMany, hone]
    refine finishClose_of_open ?_
    rw [tenant_modTenant_self _ hlt]
    exact hopen
  · have hlt := tenant_lt_of_open (s := s) (t := t) (by rw [hopen]; decide)
    rw [post_open hgrace hdest hopen hroom, deliver, deliverMany_of_full, finishClose_of_open] <;>
      rw [tenant_modTenant_self _ hlt] <;> assumption
  · rw [replyBytes, if_neg (not_not_intro hraw)]
    exact ⟨_, rfl⟩
  · decide +kernel

/-! Commit groups and their epochs (R106, R107, R112). -/

theorem groupOf_modGroup_self {t : Nat} {s : State} {num : Nat} {f : Group → Group} (hf : ∀ g, (f g).num = g.num)
    (h : t < s.tenants.length) : groupOf ((modGroup t num f s).tenant t) num = (groupOf (s.tenant t) num).map f := by
  rw [modGroup, tenant_modTenant_self _ h, groupOf_map _ fun g => by split <;> simp [hf]]
  cases hg : groupOf (s.tenant t) num with
  | none => rfl
  | some g => simp [num_of_groupOf hg]

/-- Entries that fit one epoch are all taken. -/
theorem takeEpoch_fits (l : List Staged) (taken : Nat) (h : taken + (l.map fun x => x.entries).sum ≤ 4096) :
    takeEpoch taken l = (l, []) := by
  induction l generalizing taken with
  | nil => rfl
  | cons x l ih =>
    simp only [List.map_cons, List.sum_cons] at h
    have hfit : ¬ (decide (taken ≠ 0) && decide (4096 < taken + x.entries)) = true := by
      simp only [Bool.and_eq_true, decide_eq_true_eq]
      omega
    rw [takeEpoch, if_neg hfit, ih _ (by omega)]

theorem countEpochs_fits {l : List Staged} (h : (l.map fun x => x.entries).sum ≤ 4096) :
    countEpochs l.length l = if l = [] then 0 else 1 := by
  cases l with
  | nil => rfl
  | cons x l =>
    rw [List.length_cons, countEpochs, takeEpoch_fits _ _ (by omega)]
    · cases l <;> rfl
    · simp

/-- An epoch takes commands from the front while their entries, beside those taken, total 4,096 or fewer. -/
theorem takeEpoch_spec (l : List Staged) (taken : Nat) (hl : ∀ x ∈ l, x.entries ≤ 4096) (ht : taken ≤ 4096) :
    (takeEpoch taken l).1 ++ (takeEpoch taken l).2 = l ∧ taken + ((takeEpoch taken l).1.map fun x => x.entries).sum ≤ 4096 ∧
      ∀ x rest, (takeEpoch taken l).2 = x :: rest → 4096 < taken + ((takeEpoch taken l).1.map fun x => x.entries).sum + x.entries := by
  induction l generalizing taken with
  | nil => simp [takeEpoch, ht]
  | cons x l ih =>
    have hx := hl x List.mem_cons_self
    rw [takeEpoch]
    split
    · next hfull =>
      simp only [Bool.and_eq_true, decide_eq_true_eq] at hfull
      refine ⟨rfl, by simpa using ht, fun y rest h => ?_⟩
      obtain ⟨rfl, -⟩ := List.cons.inj h
      simpa using hfull.2
    · next hfits =>
      simp only [Bool.and_eq_true, decide_eq_true_eq] at hfits
      obtain ⟨happ, hsum, hnext⟩ := ih (taken + x.entries) (fun y hy => hl y (List.mem_cons_of_mem _ hy)) (by omega)
      refine ⟨by simp [happ], by simpa [Nat.add_assoc] using hsum, fun y rest h => ?_⟩
      have := hnext y rest h
      simp only [List.map_cons, List.sum_cons]
      omega

/-- Settles O13: acceptance marks the group of GROUP_COMMIT, GROUP_ABORT drops its own, and `takeEpoch` cuts where R107 says. -/
theorem epochsAndGroupCommands : Obligations.EpochsAndGroupCommands := by
  refine ⟨⟨fun r s g hacc hg => ?_, fun r s g hruns hg => ?_⟩, fun l hl => ?_⟩
  · have hlt := tenant_lt_of_accepted (r := r) rfl hacc
    have hmark : groupOf ((modGroup r.tenant r.group.toNat commitMark s).tenant r.tenant) r.group.toNat = some (commitMark g) := by
      rw [groupOf_modGroup_self (f := commitMark) (fun g => rfl) hlt, hg, Option.map_some]
    have hon : (groupCommitM r).onAccept s = (modGroup r.tenant r.group.toNat commitMark s,
        if 1 < (commitMark g).epochs then .split else .pending, commitResults (commitMark g)) := by
      simp only [groupCommitM, hmark]
    have hrep := hold_frame (i := .groupCommit r) (r := r)
      (due := if r.cls = 1 ∧ tooClose s r (.groupCommit r) = false then applyTime r.apply else s.now) (timed := decide (r.cls = 1)) hon
    rw [← execute_atSwap rfl rfl hacc rfl (.inr rfl)] at hrep
    refine ⟨_, commitMark g, exec_accepted rfl rfl hacc, ?_, rfl, rfl, rfl, rfl, rfl, countEpochs_fits⟩
    rw [groupOf_congr (hrep.groups _), tenant_modTenant_self _ (by simpa [modGroup] using hlt)]
    exact hmark
  · have hans := runs_answers (m := groupAbortM r) rfl hruns
    have hlt : (r.tenant : Nat) < s.tenants.length := by
      simp only [runsAtOnce, Bool.and_eq_true] at hruns
      exact tenant_lt_of_accepted (r := r) rfl hruns.1.1
    simp only [groupAbortM, hg] at hans
    refine ⟨_, hans, ?_, fun n hn => ?_, ?_⟩
    · rw [dropGroup, tenant_modTenant_self _ hlt, groupOf]
      simp
    · rw [dropGroup, tenant_modTenant_self _ hlt, groupOf, groupOf, List.find?_filter]
      congr 1
      funext x
      by_cases hx : x.num = n <;> simp [hx, hn]
    · rw [dropGroup, tenant_modTenant_self _ hlt]
      exact modTenant_congr rfl
  · simpa using takeEpoch_spec l 0 hl (Nat.zero_le _)

/-! The order of due commands (R37, R103). -/

theorem rankBefore_trans {a b c : Int × Nat × Nat} (h : rankBefore a b = true) (h' : rankBefore b c = true) :
    rankBefore a c = true := by
  simp only [rankBefore, Bool.or_eq_true, Bool.and_eq_true, decide_eq_true_eq] at *
  omega

/-- Ranks are in line: what does not come before b, where a comes before b or not after it. -/
theorem rankBefore_of_not {a b c : Int × Nat × Nat} (h : rankBefore a c = true) (h' : rankBefore b c = false) :
    rankBefore a b = true := by
  simp only [rankBefore, Bool.or_eq_true, Bool.and_eq_true, decide_eq_true_eq, Bool.or_eq_false_iff, Bool.and_eq_false_iff,
    decide_eq_false_iff_not] at *
  omega

theorem firstDue_none {s : State} {t : Nat} {l : List Pending} (h : firstDue s t l = none) : ∀ p ∈ l, isDue s p = false := by
  induction l with
  | nil => simp
  | cons x l ih =>
    rw [firstDue] at h
    split at h
    · split at h <;> cases h
    · next hl =>
      split at h
      · cases h
      · next hx => simpa [hx] using ih hl

/-- The first due command is due, none before it has its rank, and none of the others comes before it. -/
theorem firstDue_spec {s : State} {t : Nat} (l : List Pending) (p : Pending) (rest : List Pending)
    (h : firstDue s t l = some (p, rest)) :
    ∃ a b, l = a ++ p :: b ∧ rest = a ++ b ∧ isDue s p = true ∧
      (∀ q ∈ a, isDue s q = true → rankBefore (dueRank s t p) (dueRank s t q) = true) ∧
      (∀ q ∈ b, isDue s q = true → rankBefore (dueRank s t q) (dueRank s t p) = false) := by
  induction l generalizing p rest with
  | nil => cases h
  | cons x l ih =>
    rw [firstDue] at h
    split at h
    · next q tail hl =>
      obtain ⟨a, b, rfl, rfl, hq, ha, hb⟩ := ih q tail hl
      split at h
      · next hx =>
        cases h
        simp only [Bool.and_eq_true, Bool.not_eq_true'] at hx
        obtain ⟨hdueX, hqx⟩ := hx
        refine ⟨[], _, rfl, rfl, hdueX, by simp, fun y hy hdue => Bool.eq_false_iff.2 fun hyx => ?_⟩
        rcases List.mem_append.1 hy with hy | hy
        · exact absurd (rankBefore_trans (ha y hy hdue) hyx) (by simp [hqx])
        · rcases List.mem_cons.1 hy with rfl | hy
          · exact absurd hyx (by simp [hqx])
          · exact absurd (rankBefore_of_not hyx hqx) (by simp [hb y hy hdue])
      · next hx =>
        cases h
        refine ⟨x :: a, b, rfl, rfl, hq, fun y hy hdue => ?_, hb⟩
        rcases List.mem_cons.1 hy with rfl | hy
        · simpa [hdue] using hx
        · exact ha y hy hdue
    · next hl =>
      split at h
      · next hx =>
        cases h
        refine ⟨[], _, rfl, rfl, hx, by simp, fun y hy hdue => ?_⟩
        rw [firstDue_none hl y hy] at hdue
        cases hdue
      · cases h

/-! TIMED_COMMAND_APPLY (R100, R103). -/

theorem exec_timedCommandApply {t : Fin 16} {s : State} (hhalt : ctlHalted s = false) (hfw : fwRuns s = true) :
    exec (.timedCommandApply t) s = .next (msixScan 16 (applyDue t s)) :=
  if_neg (by simp [hhalt, hfw])

/-- With nothing due, or another tenant's command before it, nothing takes effect; a step does with the others of its boundary, any other
command by itself. -/
theorem applyDue_none {t : Nat} {s : State} (h : firstDue s t (s.tenant t).pend = none) : applyDue t s = s := by
  simp only [applyDue, h]

theorem applyDue_outranked {t : Nat} {s : State} {p : Pending} {rest : List Pending}
    (h : firstDue s t (s.tenant t).pend = some (p, rest)) (hrank : outranked s t p = true) : applyDue t s = s := by
  simp only [applyDue, h, hrank, if_true]

theorem applyDue_step {t : Nat} {s : State} {p : Pending} {rest : List Pending}
    (h : firstDue s t (s.tenant t).pend = some (p, rest)) (hrank : outranked s t p = false) (hstep : isStep p.cmd = true) :
    applyDue t s = applySteps (stepsWith s p) s := by
  simp only [applyDue, h, hrank, hstep, if_true, Bool.false_eq_true, if_false]

theorem applyDue_other {t : Nat} {s : State} {p : Pending} {rest : List Pending}
    (h : firstDue s t (s.tenant t).pend = some (p, rest)) (hrank : outranked s t p = false) (hstep : isStep p.cmd = false) :
    applyDue t s = issueHeld t p (nowNs s) (modTenant t (fun n => { n with pend := rest }) s) := by
  simp only [applyDue, h, hrank, hstep, Bool.false_eq_true, if_false]

/-- A command that is not late is told of by no event. -/
theorem tellLate_of_inTime {t : Nat} {p : Pending} (s : State) (hpassed : p.passed = false) (hhalted : p.halted = false) :
    tellLate t p s = s := by
  unfold tellLate
  split
  · simp [hpassed, hhalted]
  · rfl

theorem silentDomain_modTenant (t : Nat) (f : Tenant → Tenant) (s : State) (i : Instr) :
    silentDomain (modTenant t f s) i = silentDomain s i := rfl

theorem issueHeld_silent {t d done : Nat} {p : Pending} {s : State} (hd : silentDomain s p.cmd = some d)
    (hpassed : p.passed = false) (hhalted : p.halted = false) :
    issueHeld t p done s = holdWrite d { tenant := t, cmd := p.cmd, timed := p.timed, copied := p.copied } s := by
  simp only [issueHeld, hd, tellLate_of_inTime s hpassed hhalted]

theorem issueHeld_judged {t done : Nat} {p : Pending} {r : Req} {m : Meaning} {s : State} (hd : silentDomain s p.cmd = none)
    (hr : reqOf p.cmd = some r) (hm : meaningOf p.cmd = some m) (hpassed : p.passed = false) (hhalted : p.halted = false)
    (hjudge : judgeAgain s p.cmd m = none) :
    issueHeld t p done s = post t p.timed
      (mkReply r (opInfo p.cmd).op (m.effect p.copied s).2.1 done (m.effect p.copied s).2.2) (m.effect p.copied s).1 := by
  simp only [issueHeld, hd, applyHeld, hr, hm, hjudge, tellLate_of_inTime s hpassed hhalted]

theorem issueHeld_refused {t done : Nat} {p : Pending} {r : Req} {m : Meaning} {s : State} {st : Status}
    (hd : silentDomain s p.cmd = none) (hr : reqOf p.cmd = some r) (hm : meaningOf p.cmd = some m)
    (hjudge : judgeAgain s p.cmd m = some st) :
    issueHeld t p done s = post t p.timed (mkReply r (opInfo p.cmd).op st done []) (m.onRefuse st s) := by
  simp only [issueHeld, hd, applyHeld, hr, hm, hjudge]

/-- Settles O15: `firstDue` picks the first due command of a tenant, and `applyDue` issues it, judged again. -/
theorem timedCommandTakesEffect : Obligations.TimedCommandTakesEffect := by
  refine ⟨fun s t l p rest h => ?_, fun t s hhalt hfw => ⟨fun h => ?_, fun p rest h => ⟨fun hrank => ?_, fun hrank hstep => ?_⟩,
    fun p rest r m h hr hm hpassed hhalted hrank hstep => ⟨fun d hd => ?_, fun hd hjudge => ?_, fun st hd hjudge => ?_⟩⟩⟩
  · obtain ⟨a, b, hl, hrest, hdue, ha, hb⟩ := firstDue_spec l p rest h
    simp only [isDue, Bool.and_eq_true, Bool.not_eq_true', decide_eq_true_eq] at hdue
    exact ⟨a, b, hl, hrest, hdue.1, hdue.2, ha, hb⟩
  · rw [exec_timedCommandApply hhalt hfw, applyDue_none h]
  · rw [exec_timedCommandApply hhalt hfw, applyDue_outranked h hrank]
  · rw [exec_timedCommandApply hhalt hfw, applyDue_step h hrank hstep]
  · rw [exec_timedCommandApply hhalt hfw, applyDue_other h hrank hstep, issueHeld_silent (by rwa [silentDomain_modTenant]) hpassed hhalted]
  · rw [exec_timedCommandApply hhalt hfw, applyDue_other h hrank hstep, issueHeld_judged (by rwa [silentDomain_modTenant]) hr hm hpassed hhalted hjudge]
  · rw [exec_timedCommandApply hhalt hfw, applyDue_other h hrank hstep, issueHeld_refused (by rwa [silentDomain_modTenant]) hr hm hjudge]
    exact ⟨_, sansEvents_onRefuse hm st _, rfl⟩

end Sys2Proof.Machine
end

section
/-! The step, reset, and the commands that only report. -/

namespace Sys2Proof.Machine

/-- Settles O1: a step with a command waiting is defined so. -/
theorem stepRunsFront : Obligations.StepRunsFront := fun _ _ _ => rfl

theorem next_ite {c : Prop} [Decidable c] {a b : Out} (ha : ∃ t, a = .next t) (hb : ∃ t, b = .next t) :
    ∃ t, (if c then a else b) = .next t := by
  split <;> assumption

/-- Every row answers a next state: on each of its branches it ends a step or leaves the state. -/
theorem exec_next (i : Instr) (s : State) : ∃ t, exec i s = .next t := by
  cases i
  case packetTake | registerWrite | registerHoldTimeout | fenceWaitEnd | remoteReplyTimeout | slewEnd | refclkLost |
      refclkReturned | clockLost | clockReturned | captureEdge | scheduledAction | gridPulse | fsgFrameStart | ethLinkChange |
      ethFrameRx | sync | followUp | announce | pdelay | syncReceiptTimeout | announceReceiptTimeout | avtpPacket |
      avtpTalkerInterval | crfPduSend | commandCell | cellEnum | cellApply | armTimeout | portFrameStart | slaveFrameSync |
      slaveFrameTimeout | aportRateSwitch | deadlineMiss | lockTimeout | channelCProgramDone | powerFailTrip | holdEnRelease |
      cellMeasurement | dbgAp | dbgChal | dbgResp | coreHalted | pulseTrailingEdge | sectorEraseDone | registerAcknowledge =>
    dsimp only [exec, execPacketTake, execRegisterWrite, execRegisterHoldTimeout, execFenceWaitEnd, execRemoteReplyTimeout,
      execSlewEnd, execRefclkLost, execRefclkReturned, execClockLost, execClockReturned, execCaptureEdge, execScheduledAction,
      execGridPulse, execFsgFrameStart, execEthLinkChange, execEthFrameRx, execSync, execFollowUp, execAnnounce, execPdelay,
      execSyncReceiptTimeout, execAnnounceReceiptTimeout, execAvtpPacket, execAvtpTalkerInterval, execCrfPduSend,
      execCommandCell, execCellEnum, execCellApply, execArmTimeout, execPortFrameStart, execSlaveFrameSync,
      execSlaveFrameTimeout, execAportRateSwitch, execDeadlineMiss, execLockTimeout, execChannelCProgramDone,
      execPowerFailTrip, execHoldEnRelease, execCellMeasurement, execDbgAp, execDbgChal, execDbgResp, execCoreHalted,
      execPulseTrailingEdge, execSectorEraseDone, execRegisterAcknowledge]
    repeat' first
      | exact ⟨_, rfl⟩
      | split
  all_goals first
    | exact ⟨_, rfl⟩
    | exact next_ite ⟨_, rfl⟩ ⟨_, rfl⟩

/-- Settles O2: each row answers a next state, and a packet that runs at once its meaning's effect. -/
theorem everyCommandCompletes : Obligations.EveryCommandCompletes :=
  ⟨exec_next, fun _ _ _ hm h => runs_answers hm h⟩

/-- Settles O4: each register stands at the value that the spec gives, and every table has its entries. -/
theorem resetState : Obligations.ResetState := by
  refine ⟨rfl, rfl, rfl, rfl, rfl, rfl, rfl, rfl, rfl, rfl, rfl, rfl, rfl, ?_, ?_, ?_⟩
  · intro v
    cases v <;> rfl
  · intro t h1 h16
    interval_cases t <;> rfl
  · decide +kernel

/-! The commands that only report. -/

/-- Entries of one length. -/
theorem length_flatMap_const {α β : Type} (l : List α) (f : α → List β) (k : Nat) (h : ∀ x, (f x).length = k) :
    (l.flatMap f).length = l.length * k := by
  simp [List.length_flatMap, h]

@[simp] theorem length_storeBytes (s : State) (off n : Nat) : (storeBytes s off n).length = n := by simp [storeBytes]

/-- A command whose effect is results alone answers them. -/
theorem reports_of_effect {i : Instr} {m : Meaning} {s : State} {n : Nat} (hm : meaningOf i = some m) (hruns : runsAtOnce i s = true)
    (h : ∃ f res, m.effect (m.copy s) s = ({ s with free := f }, .ok, res) ∧ res.length = n) :
    ∃ (res : List Byte) (u : State), res.length = n ∧ Answers i s .ok res u ∧ u = { s with free := u.free } := by
  obtain ⟨f, res, heff, hlen⟩ := h
  have hans := runs_answers hm hruns
  rw [heff] at hans
  exact ⟨res, _, hlen, hans, rfl⟩

/-- A time to report draws free values at most. -/
theorem reportable_eq (t : Time) (s : State) : ∃ t' f, reportable t s = (t', { s with free := f }) := by
  unfold reportable
  split <;> exact ⟨_, _, rfl⟩

theorem accepted_of_runs {i : Instr} {s : State} (h : runsAtOnce i s = true) : accepted i s = true := by
  simp only [runsAtOnce, Bool.and_eq_true] at h
  exact h.1.1

/-- GROUP_STATUS that check 8 lets through names an open group. -/
theorem groupOf_of_groupStatus {r : Req} {s : State} (h : runsAtOnce (.groupStatus r) s = true) :
    ∃ g, groupOf (s.tenant r.tenant) r.group.toNat = some g := by
  obtain ⟨-, -, -, -, -, -, hgroup, -⟩ := refusal_none (runs_passes (r := r) rfl rfl h)
  cases hg : groupOf (s.tenant r.tenant) r.group.toNat with
  | some g => exact ⟨g, rfl⟩
  | none => simp [groupCheck, isGroupCmd, groupCmdCheck, hg] at hgroup

/-- FUSE_READ that runs names a field of Table 16.4. -/
theorem fuseKind_of_fuseRead {r : Req} {field : Half} {s : State} (h : runsAtOnce (.fuseRead r field) s = true) :
    ∃ k, fuseKind field.toNat = some k := by
  obtain ⟨-, -, -, -, -, -, -, -, hown⟩ := refusal_none (runs_passes (r := r) (m := fuseReadM field) rfl rfl h)
  have := check_passes hown (st := .range) List.mem_cons_self (by decide)
  simpa [Option.isSome_iff_exists] using this

/-- Settles O7: each effect is its table's bytes, with the state as it was or some free values drawn. -/
theorem reportsChangeNothing : Obligations.ReportsChangeNothing := by
  intro i s n hn hruns
  cases i <;> cases hn
  case groupStatus r =>
    obtain ⟨g, hg⟩ := groupOf_of_groupStatus hruns
    exact reports_of_effect rfl hruns ⟨_, _, by simp only [groupStatusM, hg]; rfl, by simp⟩
  case fuseRead r field =>
    obtain ⟨⟨w, once, ctr, hidden⟩, hk⟩ := fuseKind_of_fuseRead hruns
    exact reports_of_effect rfl hruns ⟨_, _, by simp only [fuseReadM, hk]; rfl, by simp⟩
  case sceneList r =>
    refine reports_of_effect rfl hruns ⟨_, _, rfl, ?_⟩
    rw [List.length_append, length_flatMap_const _ _ 4 fun k => by split <;> simp]
    split <;> simp
  case gptpStatus r domain =>
    refine reports_of_effect rfl hruns ?_
    dsimp only [gptpStatusM]
    cases decide (s.eth.gptp.mode = 1) && (slavePort s (decide (domain = 1))).isSome <;>
      exact ⟨_, _, rfl, by simp [List.length_flatMap]⟩
  case fsgStatus r k =>
    refine reports_of_effect rfl hruns ?_
    dsimp only [fsgStatusM]
    cases fsgNext (s.fsg k.toNat) with
    | none => exact ⟨_, _, rfl, by simp⟩
    | some q =>
      obtain ⟨t, f, ht⟩ := reportable_eq (ofQuarter q) s
      simp only [ht]
      exact ⟨f, _, rfl, by simp⟩
  all_goals exact reports_of_effect rfl hruns ⟨_, _, rfl, by simp [List.length_flatMap]⟩

end Sys2Proof.Machine
end

section
/-! Eyelets (04): writes of hosts to the inbox, and EY_RING_CFG. -/

namespace Sys2Proof.Machine

/-! Accesses over PCIe (R84, R87). -/

theorem exec_hostWrite (via : Transport) (addr v : Word) (n : BitVec 3) (s : State) :
    exec (.registerWrite (.host via) addr n v) s = .next (msixScan 16 (hostWrite via addr n v s)) := rfl

/-- The parts of an address of Eyelet t. -/
theorem eyeletAddr {t : Fin 16} {off a : Nat} (ha : a = 0x400F0000 + 4096 * t.val + off) (h : off < 4096) :
    (BitVec.ofNat 32 a).toNat = a ∧ a / 65536 = 0x400F ∧ a % 65536 / 4096 = t.val ∧ a % 4096 = off := by
  rw [BitVec.toNat_ofNat]
  omega

/-- A word that a host writes over PCIe to an Eyelet that answers it. -/
theorem hostWrite_pcie {t : Fin 16} {off a : Nat} {v : Word} {s : State} (hup : eyeletUp s t .pcie = true)
    (ha : a = 0x400F0000 + 4096 * t.val + off) (h : off < 4096) (h4 : off % 4 = 0) :
    hostWrite .pcie (BitVec.ofNat 32 a) 4 v s =
      if 0x100 ≤ off ∧ off < 0x500 then inboxWrite t (off - 0x100) (leBits 4 v) s else eyWrite t off v .pcie s := by
  obtain ⟨hnat, hblock, hten, hoff⟩ := eyeletAddr ha h
  have halign : a % 4 = 0 := by omega
  simp [hostWrite, hnat, offsetOf, hblock, hten, hoff, halign, hup, spitPort]

/-! An inbox of a tenant that is closing (R90, R117, R118). -/

/-- An inbox takes bytes of an open tenant alone. -/
theorem inboxWrite_of_not_open {t off : Nat} {bs : List Byte} {s : State} (h : (s.tenant t).st ≠ .open) : inboxWrite t off bs s = s := by
  simp [inboxWrite, h]

/-- A running engine whose Root is closing: its Eyelet still answers, over PCIe, but its inbox takes nothing. -/
def closingRoot : State :=
  { State.reset with
    tenants := [{ st := .closing, transports := 15 }]
    sys := { State.reset.sys with running := true, clkOk := BitVec.allOnes 29, rst := 0 } }

theorem closingRoot_up : eyeletUp closingRoot 0 .pcie = true := by decide +kernel

theorem closingRoot_write : exec (.registerWrite (.host .pcie) (BitVec.ofNat 32 0x400F0100) 4 0) closingRoot =
    .next (msixScan 16 closingRoot) := by
  rw [exec_hostWrite, hostWrite_pcie (t := 0) (off := 0x100) (a := 0x400F0100) closingRoot_up rfl (by decide) rfl, if_pos (by decide),
    inboxWrite_of_not_open (by decide)]

/-- Refutes O18: a word written over PCIe to the inbox of a tenant that is closing, whose Eyelet answers and whose inbox is not busy, is
not stored. -/
theorem not_eyeletAccesses : ¬ Obligations.EyeletAccesses := by
  rintro ⟨-, -, -, hinbox, -⟩
  obtain ⟨u, hexec, hread, -⟩ := hinbox 0 0 0 closingRoot closingRoot_up (by decide) rfl (by decide)
  have hsame : msixScan 16 closingRoot = msixScan 16 u := Host.Outcome.next.inj (closingRoot_write.symm.trans hexec)
  have hu : (u.tenant 0).inbox = (closingRoot.tenant 0).inbox := by
    rw [← (repliesOnly_msixScan 16 u).inbox 0, ← hsame, (repliesOnly_msixScan 16 closingRoot).inbox 0]
  have hstored := hread 0 (by decide)
  rw [show ((0 : Fin 16) : Nat) = 0 from rfl, hu] at hstored
  cases hstored

/-! EY_RING_CFG (R116). -/

theorem shaped_tenants_length {s : State} (h : shaped s = true) : s.tenants.length = 16 := by
  simp only [shaped, Bool.and_eq_true, decide_eq_true_eq] at h
  simp only [h]

theorem exec_eyRingCfgWrite {t : Fin 16} {v : Word} {s : State} (h : eyeletAny s t = true) :
    exec (.eyRingCfgWrite t v) s = .next (msixScan 16 (setRingCfg t v s)) := if_pos h

/-- The setting that a write of EY_RING_CFG makes while EN is 0. -/
theorem setRingCfg_off {t : Nat} {v : Word} {s : State} (h : (s.tenant t).ringEn = false) :
    setRingCfg t v s = deliver t (modTenant t (fun n => { n with
      clog2 := v.extractLsb' 0 4, rlog2 := v.extractLsb' 4 4
      ringEn := v.getLsbD 8 && decide (1 ≤ (v.extractLsb' 0 4).toNat) && decide ((v.extractLsb' 0 4).toNat ≤ 12) &&
        decide (1 ≤ (v.extractLsb' 4 4).toNat) && decide ((v.extractLsb' 4 4).toNat ≤ 12) }) s) := by
  simp only [setRingCfg, h, Bool.false_eq_true, if_false, Bool.and_assoc]

theorem setRingCfg_kept {t : Nat} {v : Word} {s : State} (h : (s.tenant t).ringEn = true) (hv : v.getLsbD 8 = true) :
    setRingCfg t v s = s := by
  simp only [setRingCfg, h, hv, if_true]

theorem setRingCfg_cleared {t : Nat} {v : Word} {s : State} (h : (s.tenant t).ringEn = true) (hv : v.getLsbD 8 = false) :
    setRingCfg t v s = deliver t (modTenant t (fun n => { n with ringEn := false }) s) := by
  simp only [setRingCfg, h, hv, if_true, if_false, Bool.false_eq_true]

/-- Settles O19: `setRingCfg` sets the fields, and delivering replies leaves them. -/
theorem ringConfig : Obligations.RingConfig := by
  intro t v s hany hshaped
  have hlt : t.val < s.tenants.length := by
    rw [shaped_tenants_length hshaped]
    exact t.isLt
  have hend := repliesOnly_msixScan 16 (setRingCfg t v s)
  refine ⟨_, exec_eyRingCfgWrite hany, fun hen hkeep => ?_, fun hen => ?_, fun hoff => ?_⟩
  · rw [setRingCfg_kept hen hkeep]
  · cases hkeep : v.getLsbD 8 with
    | true =>
      rw [setRingCfg_kept hen hkeep] at hend ⊢
      obtain ⟨hc, hr, he⟩ := hend.ringCfg t
      rw [hc, hr, he]
      exact ⟨rfl, rfl, hen⟩
    | false =>
      rw [setRingCfg_cleared hen hkeep] at hend ⊢
      obtain ⟨hc, hr, he⟩ := ((repliesOnly_deliver t _).trans hend).ringCfg t
      rw [hc, hr, he, tenant_modTenant_self _ hlt]
      exact ⟨rfl, rfl, rfl⟩
  · rw [setRingCfg_off hoff] at hend ⊢
    obtain ⟨hc, hr, he⟩ := ((repliesOnly_deliver t _).trans hend).ringCfg t
    rw [hc, hr, he, tenant_modTenant_self _ hlt]
    exact ⟨rfl, rfl, rfl⟩

end Sys2Proof.Machine
end

section
/-! The Last (02): steps of the counter, its cycles, its servo and its commands. -/

namespace Sys2Proof.Machine

/-! What an operation leaves, as a reading that it does not change. -/

/-- A reading that no turn of a loop changes. -/
theorem foldl_keeps {α β γ : Type} (μ : β → γ) {f : β → α → β} (h : ∀ s x, μ (f s x) = μ s) (l : List α) (s : β) :
    μ (l.foldl f s) = μ s := by
  induction l generalizing s with
  | nil => rfl
  | cons x l ih => rw [List.foldl_cons, ih, h]

/-- A state without its time pins, paths, FSGs and recorded events. -/
def sansTrig (s : State) : State :=
  { s with
    trig := State.reset.trig, evrec := State.reset.evrec
    sys := { s.sys with aonEvents := [], aonDropped := 0 } }

@[simp] theorem sansTrig_record (c o : Nat) (d : List (Nat × Nat)) (s : State) : sansTrig (record c o d s) = sansTrig s := by
  rw [record_eq]
  rfl

@[simp] theorem sansTrig_modPin (p : Nat) (f : Pin → Pin) (s : State) : sansTrig (modPin p f s) = sansTrig s := rfl

@[simp] theorem sansTrig_modFsg (k : Nat) (f : Fsg → Fsg) (s : State) : sansTrig (modFsg k f s) = sansTrig s := rfl

@[simp] theorem sansTrig_modPath (m : Nat) (f : Path → Path) (s : State) : sansTrig (modPath m f s) = sansTrig s := rfl

@[simp] theorem sansTrig_report (p : Nat) (x : PinReport) (s : State) : sansTrig (report p x s) = sansTrig s := by
  unfold report
  split <;> simp

@[simp] theorem sansTrig_startPulse (p w e : Nat) (s : State) : sansTrig (startPulse p w e s) = sansTrig s := rfl

/-- What is left of a state beside its time pins and events tells the rest. -/
theorem eq_of_sansTrig {s u : State} (h : sansTrig u = sansTrig s) :
    u = { s with
      trig := u.trig, evrec := u.evrec
      sys := { s.sys with aonEvents := u.sys.aonEvents, aonDropped := u.sys.aonDropped } } := by
  obtain ⟨_, _, _, sys, _, _, _, _, _, _, _, _, _, _, _, _, _, _⟩ := u
  obtain ⟨_, _, _, sys', _, _, _, _, _, _, _, _, _, _, _, _, _, _⟩ := s
  obtain ⟨⟩ := sys
  obtain ⟨⟩ := sys'
  simp only [sansTrig, State.mk.injEq, Sys.mk.injEq] at h ⊢
  simp only [h, and_self]

/-- A step moves the actions and pulses of a pin, and nothing beside the pins. -/
theorem sansTrig_stepPin (new : Time) (forward : Bool) (s : State) (p : Nat) : sansTrig (stepPin new forward s p) = sansTrig s := by
  unfold stepPin
  dsimp only
  split
  · split
    · rfl
    · rw [foldl_keeps sansTrig]
      · simp
      · intro s a
        split <;> simp
  · split
    · split
      · rfl
      · rw [sansTrig_modPin]
        split
        · split <;> simp
        · rfl
    · rfl

theorem sansTrig_stepFsg (new : Time) (s : State) (k : Nat) : sansTrig (stepFsg new s k) = sansTrig s := rfl

/-- What follows the steps of a boundary: one more cycle of the Last, the marks of the commands passed, and the pins. -/
theorem sansTrig_judgeStep (base : Time) (s : State) :
    sansTrig (judgeStep base s) = sansTrig { s with
      last := { s.last with cycles := s.last.cycles + 1 }
      tenants := if base < s.now then (markPassed s.now s).tenants else s.tenants } := by
  unfold judgeStep
  dsimp only
  rw [foldl_keeps sansTrig (sansTrig_stepFsg _), foldl_keeps sansTrig (sansTrig_stepPin _ _)]
  by_cases h : base < s.now
  · have h' : base < (modLast (fun l => { l with cycles := l.cycles + 1 }) s).now := h
    rw [if_pos (decide_eq_true h'), if_pos h]
    rfl
  · have h' : ¬ base < (modLast (fun l => { l with cycles := l.cycles + 1 }) s).now := h
    rw [if_neg (by simpa using h'), if_neg h]
    rfl

/-! A step (R37, R38, R50). -/

/-- The renumbering of a stream looks at the frequencies of the MCGs alone. -/
theorem renumberStream_congr {s s' : State} (q : Int)
    (h : s'.audio.mcgs.map (fun m => (m.mult, m.family)) = s.audio.mcgs.map (fun m => (m.mult, m.family))) :
    renumberStream s' q = renumberStream s q := by
  funext x
  have hm : ∀ k, (s'.mcg k).mult = (s.mcg k).mult ∧ (s'.mcg k).family = (s.mcg k).family :=
    fun k => Prod.mk.injEq .. ▸ (nth_of_map_eq h k :)
  unfold renumberStream
  simp only [hm]

/-- The frames move along with a step; the frequencies of the MCGs stay. -/
theorem mcgs_moveFrames (d : Time) (s : State) :
    (moveFrames d s).audio.mcgs.map (fun m => (m.mult, m.family)) = s.audio.mcgs.map (fun m => (m.mult, m.family)) := by
  simp [moveFrames, Function.comp_def]

/-- The Last after a step to `new`: by command it is valid from then on (R30), and a slew has ended (R50). -/
def steppedLast (cause : Nat) (new : Time) (l : Last) : Last :=
  { l with counter := new, slew := none, valid := l.valid || cause ≠ 0 }

/-- The grid after a step (R245). -/
theorem grid_moveCounter (cause who : Nat) (base new : Time) (s : State) :
    (moveCounter cause who base new s).audio.grid = (s.audio.grid + (new - base)) % gridSpan := by
  simp only [moveCounter, moveGrid, record_audio, renumber]
  split <;> simp [moveFrames]

@[simp] theorem renumber_trig (q : Int) (s : State) : (renumber q s).trig = s.trig := by
  unfold renumber
  split <;> rfl

@[simp] theorem renumber_tenants (q : Int) (s : State) : (renumber q s).tenants = s.tenants := by
  unfold renumber
  split <;> rfl

/-- A renumbering of a state that differs from s in its Last, its pins, its audio and its events. -/
theorem sansEvents_renumber {s w : State} (q : Int) (hw : sansEvents s w = { s with last := w.last, trig := w.trig, audio := w.audio })
    (hm : w.audio.mcgs.map (fun m => (m.mult, m.family)) = s.audio.mcgs.map (fun m => (m.mult, m.family))) :
    sansEvents s (renumber q w) = { renumber q s with last := w.last, trig := w.trig, audio := (renumber q w).audio } := by
  by_cases hq : q = 0
  · simpa only [renumber, hq, if_true] using hw
  · have heth : w.eth = s.eth := (congrArg State.eth hw :)
    have hplink : w.plink = s.plink := (congrArg State.plink hw :)
    have hlens : w.lens = s.lens := (congrArg State.lens hw :)
    simp only [renumber, hq, if_false, heth, hplink, hlens, renumberStream_congr q hm]
    simp only [sansEvents, State.mk.injEq] at hw ⊢
    simp only [hw, and_self]

/-- A step moves the counter, the grid and what is counted on it, and renumbers the boundaries; nothing else changes but the events. -/
theorem sansEvents_moveCounter (cause who : Nat) (base new : Time) (s : State) :
    sansEvents s (moveCounter cause who base new s) =
      { renumber ((s.audio.grid + (new - base)) / gridSpan) s with
        last := steppedLast cause new s.last, trig := (moveCounter cause who base new s).trig
        audio := (moveCounter cause who base new s).audio } := by
  set d := new - base with hd
  set s1 := record 0x0101 who [(1, cause), (4, sat32 (d / (nsU : Int))), (4, (nsOf s.now % 1000000000).toNat)] s with hs1
  set w := moveFrames d (modLast (steppedLast cause new) s1)
  set w' : State := { w with audio := { w.audio with grid := (w.audio.grid + d) % gridSpan } }
  have hmove : moveCounter cause who base new s =
      record 0x0507 engineTag [(8, (fracOf ((w.audio.grid + d) % gridSpan)).toNat)] (renumber ((w.audio.grid + d) / gridSpan) w') := rfl
  have hgrid : w.audio.grid = s.audio.grid := by
    rw [show w.audio.grid = s1.audio.grid from rfl, hs1, record_audio]
  have hw' : sansEvents s w' = { s with last := w'.last, trig := w'.trig, audio := w'.audio } := by
    simp only [w', w, moveFrames, modLast, hs1]
    rw [record_eq]
    rfl
  have hm : w'.audio.mcgs.map (fun m => (m.mult, m.family)) = s.audio.mcgs.map (fun m => (m.mult, m.family)) := by
    rw [show w'.audio.mcgs = w.audio.mcgs from rfl, mcgs_moveFrames, modLast_audio, hs1, record_audio]
  have hlast : w'.last = steppedLast cause new s.last := by
    rw [show w'.last = steppedLast cause new s1.last from rfl, hs1, record_last]
  rw [hmove, sansEvents_record, sansEvents_renumber _ hw' hm, hgrid, record_trig, record_audio, renumber_trig, hlast]

/-- The state s after a step that moves the grid's boundaries by q, with the Last, pins and audio of u. -/
def steppedState (s u : State) (q : Int) (tenants : List Tenant) : State :=
  { renumber q s with last := u.last, trig := u.trig, audio := u.audio, tenants := tenants }

/-- A step of the counter alone at its boundary: TIME_SET or TIME_STEP, or a step of the servo. -/
theorem sansEvents_applied {s w u : State} {base new : Time} {q : Int} (hu : u = judgeStep base w)
    (hw : sansEvents s w = { renumber q s with last := w.last, trig := w.trig, audio := w.audio }) (hnow : w.last.counter = new) :
    u.last = { w.last with cycles := w.last.cycles + 1 } ∧ u.audio = w.audio ∧
      u.tenants = (if base < new then (markPassed new s).tenants else s.tenants) ∧ sansEvents s u = steppedState s u q u.tenants := by
  have hrest := eq_of_sansTrig (hu ▸ sansTrig_judgeStep base w)
  have hlast : u.last = { w.last with cycles := w.last.cycles + 1 } := (congrArg State.last hrest :)
  have haudio : u.audio = w.audio := (congrArg State.audio hrest :)
  have htenants : w.tenants = s.tenants := by
    rw [show w.tenants = (sansEvents s w).tenants from rfl, hw]
    exact renumber_tenants q s
  have hmarked : (markPassed w.now w).tenants = (markPassed new s).tenants := by
    simp only [markPassed, State.now, hnow, htenants]
  have hwnow : w.now = new := hnow
  rw [hmarked, htenants, hwnow] at hrest
  have hnew : u.tenants = if base < new then (markPassed new s).tenants else s.tenants := (congrArg State.tenants hrest :)
  refine ⟨hlast, haudio, hnew, ?_⟩
  calc sansEvents s u = { sansEvents s w with last := u.last, trig := u.trig, tenants := u.tenants } := by
        rw [hlast, hnew]
        exact (congrArg (sansEvents s) hrest :)
    _ = _ := by rw [hw, steppedState, haudio]

/-- TIME_SET or TIME_STEP that applies. -/
theorem soloStep_ok {i : Instr} {s w : State} {res : List Byte} (h : stepByCommand (cycleEnd s) i s = (w, .ok, res)) :
    soloStep i s = (judgeStep (cycleEnd s) w, .ok, res) := by
  simp only [soloStep, h, if_true]

/-- The Last with the UTC fields that TIME_SET gives. -/
def setUtc (utc flags : Half) (l : Last) : Last := { l with utcOffset := utc, utcValid := flags.getLsbD 0 }

/-- Settles O20: the step moves the counter, and what follows it reaches only what the statement names. -/
theorem timeSetAndStep : Obligations.TimeSetAndStep := by
  refine ⟨fun r time utc flags s hruns => ?_, fun r offset s hruns => ⟨fun hin => ?_, fun hout => ?_⟩⟩
  · set w := modLast (setUtc utc flags)
      (moveCounter 2 r.tenant (cycleEnd s) (timeOf time) s) with hw
    have hmove := sansEvents_moveCounter 2 r.tenant (cycleEnd s) (timeOf time) s
    have hlastMoved := (congrArg State.last hmove :)
    have hans := runs_answers (m := timeSetM r time utc flags) rfl hruns
    simp only [timeSetM, soloStep_ok (i := .timeSet r time utc flags) (s := s) (w := w) rfl] at hans
    have hwlast : w.last = setUtc utc flags (steppedLast 2 (timeOf time) s.last) := by
      rw [hw, modLast_last]
      exact congrArg (setUtc utc flags) hlastMoved
    have hframe : sansEvents s w = { renumber ((s.audio.grid + (timeOf time - cycleEnd s)) / gridSpan) s with
        last := w.last, trig := w.trig, audio := w.audio } := by
      rw [hwlast]
      exact (congrArg (modLast (setUtc utc flags)) hmove :)
    obtain ⟨hlast, haudio, htenants, hall⟩ := sansEvents_applied rfl hframe (by rw [hwlast])
    refine ⟨_, hans, ?_⟩
    have hnew := hlast.trans (congrArg (fun l : Last => { l with cycles := w.last.cycles + 1 }) hwlast)
    exact ⟨(congrArg Last.counter hnew :), (congrArg Last.valid hnew :).trans (Bool.or_true _), (congrArg Last.slew hnew :),
      (congrArg Last.utcOffset hnew :), (congrArg Last.utcValid hnew :), (congrArg Last.servo hnew :), (congrArg Last.rateEff hnew :),
      (congrArg Last.cal hnew :), (congrArg Audio.grid haudio).trans (grid_moveCounter ..), hall.trans (by rw [htenants]; rfl)⟩
  · set w := moveCounter 1 r.tenant (cycleEnd s) (cycleEnd s + ofFrac offset.toInt) s with hw
    have hmove := sansEvents_moveCounter 1 r.tenant (cycleEnd s) (cycleEnd s + ofFrac offset.toInt) s
    have hwlast : w.last = steppedLast 1 (cycleEnd s + ofFrac offset.toInt) s.last := (congrArg State.last hmove :)
    have hans := runs_answers (m := timeStepM r offset) rfl hruns
    have hstep : stepByCommand (cycleEnd s) (.timeStep r offset) s = (w, .ok, stampBytes (reportStamp s)) := by
      simp [stepByCommand, hin, hw]
    simp only [timeStepM, soloStep_ok hstep] at hans
    have hgrid := grid_moveCounter 1 r.tenant (cycleEnd s) (cycleEnd s + ofFrac offset.toInt) s
    rw [add_sub_cancel_left] at hmove hgrid
    have hframe : sansEvents s w = { renumber ((s.audio.grid + ofFrac offset.toInt) / gridSpan) s with
        last := w.last, trig := w.trig, audio := w.audio } := by
      rw [hwlast]
      exact hmove
    obtain ⟨hlast, haudio, htenants, hall⟩ := sansEvents_applied (u := judgeStep (cycleEnd s) w) rfl hframe (by rw [hwlast])
    refine ⟨_, hans, ?_⟩
    have hnew := hlast.trans (congrArg (fun l : Last => { l with cycles := w.last.cycles + 1 }) hwlast)
    exact ⟨(congrArg Last.counter hnew :), (congrArg Last.valid hnew :).trans (Bool.or_true _), (congrArg Last.slew hnew :),
      (congrArg Last.servo hnew :), (congrArg Last.rateEff hnew :), (congrArg Last.cal hnew :), (congrArg Audio.grid haudio).trans hgrid, hall⟩
  · have hans := runs_answers (m := timeStepM r offset) rfl hruns
    have hno : soloStep (.timeStep r offset) s = (s, .range, []) := by
      simp [soloStep, stepByCommand, hout]
    simpa only [timeStepM, hno] using hans

end Sys2Proof.Machine
end

section
/-! The Last (02): its rate and slews, its cycles, the servo's samples, and calibration. -/

namespace Sys2Proof.Machine

/-! The rate the state gives, and servo states. -/

/-- Only the rate of the Last can change. -/
theorem setRate_eq (s : State) : setRate s = { s with last := { s.last with rateEff := (setRate s).last.rateEff } } := by
  unfold setRate
  split <;> rfl

theorem setRate_of_free {s : State} (h : s.last.servo = .free) : (setRate s).last.rateEff = freeRate s := by
  simp [setRate, h]

/-- A servo state change of the Last (Table 2.5), before its rate follows. -/
def enteredServo (s : State) (new : Servo) (l : Last) : Last := { l with
  servo := new, inRun := 0, outRun := 0
  valid := l.valid || new = .locked
  rHold := if new = .holdover then holdMean l else l.rHold
  thetaEntry := if new = .holdover then thetaOf s else l.thetaEntry
  holdTime := 0
  rateLog := if new = .locked then [] else l.rateLog
  sinceSample := if new = .locked then 0 else l.sinceSample }

theorem last_setServo (who : Nat) (new : Servo) (s : State) :
    (setServo who new s).last = { enteredServo s new s.last with rateEff := (setServo who new s).last.rateEff } := by
  conv_lhs => unfold setServo; rw [setRate_eq]
  simp only [record_last]
  rfl

theorem sansEvents_setServo (base : State) (who : Nat) (new : Servo) (s : State) :
    sansEvents base (setServo who new s) = { sansEvents base s with last := (setServo who new s).last } := by
  unfold setServo
  rw [setRate_eq, record_eq]
  rfl

/-- Settles O22. -/
theorem steeringCommands : Obligations.SteeringCommands := by
  refine ⟨fun r rate s hruns => ?_, fun r offset slew s hruns => ?_, fun r src domain s hruns => ?_, fun r a b c d e f s hruns => ?_⟩
  · refine ⟨_, runs_answers (m := rateSetM rate) rfl hruns, setRate_eq _, fun hfree => ?_⟩
    exact setRate_of_free (s := modLast (fun l => { l with rateSet := rate.toInt, slew := none }) s) hfree
  · have hans := runs_answers (m := timeAdjustM offset slew) rfl hruns
    simp only [timeAdjustM] at hans
    by_cases hzero : ofFrac offset.toInt = 0
    · simp only [hzero, if_true] at hans ⊢
      exact ⟨_, _, length_le _ _, hans, rfl⟩
    · simp only [hzero, if_false] at hans ⊢
      refine ⟨_, _, length_le _ _, hans, ?_⟩
      simp only [slewTime]
      split <;> rfl
  · have hans := runs_answers (m := sourceSetM r src domain) rfl hruns
    refine ⟨_, hans, ?_⟩
    simp only [sourceSetM, selectSource]
    by_cases hsrc : src = 0
    · simp only [hsrc, if_true, ne_eq, not_true_eq_false, false_implies, true_and, sansEvents_setServo]
      rw [last_setServo]
      exact ⟨rfl, rfl, rfl, rfl, rfl, Bool.or_false _, rfl⟩
    · simp only [hsrc, if_false, ne_eq, not_false_eq_true, true_implies, sansEvents_setServo]
      rw [last_setServo]
      exact ⟨rfl, rfl, rfl, rfl, rfl, rfl, Bool.or_false _, rfl⟩
  · refine ⟨_, runs_answers (m := servoConfigM a b c d e f) rfl hruns, ?_⟩
    simp only [servoConfigM, steered, decide_not, Bool.not_eq_true', decide_eq_false_iff_not]
    by_cases hsrc : s.last.src = 0 <;> simp [hsrc, modLast]

/-! TIME cycles (R25, R50). -/

theorem topTime_pos : 0 < topTime := by decide +kernel

/-- The Last after n cycles in which no slew ran. -/
def cycledLast (n : Nat) (l : Last) : Last :=
  passTime (2 * nsU * n) { l with counter := (l.counter + stepUnits l.rateEff * n) % topTime, cycles := l.cycles + n }

theorem runCycles_noSlew {n : Nat} {s : State} (h : s.last.slew = none) : runCycles n s = { s with last := cycledLast n s.last } := by
  simp [runCycles, cycledLast, slewMoved, modLast, passTime, h]

/-- The rate log of a time in LOCKED, in two pieces. -/
theorem logRate_logRate (r : Int) (n k : Nat) (l : List (Int × Nat)) : logRate r k (logRate r n l) = logRate r (n + k) l := by
  cases l with
  | nil => simp [logRate]
  | cons x l =>
    obtain ⟨r', c⟩ := x
    by_cases h : r = r'
    · simp [logRate, h, Nat.add_assoc]
    · simp [logRate, h]

/-- n + k cycles are n cycles and then k. -/
theorem cycledLast_add (n k : Nat) (l : Last) : cycledLast k (cycledLast n l) = cycledLast (n + k) l := by
  have hcounter : ((l.counter + stepUnits l.rateEff * n) % topTime + stepUnits l.rateEff * k) % topTime =
      (l.counter + stepUnits l.rateEff * (n + k : Nat)) % topTime := by
    rw [Int.emod_add_emod, Nat.cast_add, Int.mul_add, Int.add_assoc]
  simp only [cycledLast, passTime, hcounter, Nat.mul_add, Nat.add_assoc, Last.mk.injEq, true_and, and_true]
  refine ⟨?_, ?_⟩
  · split
    · exact logRate_logRate ..
    · rfl
  · split
    · exact Nat.add_assoc ..
    · rfl

/-- While the TIME domain carries the Last, its cycles pass. -/
theorem exec_timeCycle {n : Nat} {s : State} (hc : s.last.coarse = false) (hd : domainUp s 3 = true) :
    exec (.timeCycle n) s = .next (runCycles n s) :=
  if_neg (by simp [hc, hd])

/-- Settles O24. -/
theorem timeCyclesAndSlews : Obligations.TimeCyclesAndSlews := by
  refine ⟨fun n k s hc hd hs => ?_, fun s w hs hc hd hw => ?_⟩
  · refine ⟨{ s with last := cycledLast n s.last }, { s with last := cycledLast (n + k) s.last }, ?_, ?_, ?_, ?_, ?_, rfl, rfl, rfl, rfl⟩
    · rw [exec_timeCycle hc hd, runCycles_noSlew hs]
    · rw [exec_timeCycle (s := { s with last := cycledLast n s.last }) hc hd, runCycles_noSlew (s := { s with last := cycledLast n s.last }) hs,
        ← cycledLast_add]
    · rw [exec_timeCycle hc hd, runCycles_noSlew hs]
    · exact congrArg (fun x => (s.last.counter + x) % topTime) (Int.mul_comm _ _)
    · exact ⟨Int.emod_nonneg _ topTime_pos.ne', Int.emod_lt_of_pos _ topTime_pos⟩
  · refine ⟨runCycles 1 s, ?_, ?_, ?_, rfl, rfl⟩
    · have hrun : (w.left.natAbs ≤ (slewExtra s.last w).natAbs && !s.last.coarse && domainUp s 3) = true := by simp [hw, hc, hd]
      simp only [exec, execSlewEnd, hs, hrun, if_true]
    · simp [runCycles, modLast, passTime, slewMoved, hs, hw]
    · simp [runCycles, modLast, passTime, slewMoved, hs, hw]

/-! Servo samples (R35). -/

@[simp] theorem counter_setServo (who : Nat) (new : Servo) (s : State) : (setServo who new s).last.counter = s.last.counter := by
  rw [last_setServo]
  rfl

@[simp] theorem cfg_setServo (who : Nat) (new : Servo) (s : State) : (setServo who new s).last.cfg = s.last.cfg := by
  rw [last_setServo]
  rfl

@[simp] theorem counter_loopStep (s : State) : (loopStep s).last.counter = s.last.counter := rfl

@[simp] theorem counter_countInRun (a : Time) (s : State) : (countInRun a s).last.counter = s.last.counter := by
  unfold countInRun
  split
  · split <;> simp
  · rfl

@[simp] theorem counter_lockedSample (off : Time) (s : State) : (lockedSample off s).last.counter = s.last.counter := by
  unfold lockedSample
  generalize (if off < 0 then -off else off) = a
  dsimp only
  split
  · split <;> simp
  · rfl

/-- A sample in ACQUIRE that moves the counter is a step beyond STEP_THR. -/
theorem stepThr_of_acquireSample {off : Time} {s : State} (h : (acquireSample off s).last.counter ≠ s.last.counter) :
    s.last.cfg.stepThr ≠ 0 ∧ ofNs s.last.cfg.stepThr < (if off < 0 then -off else off) := by
  unfold acquireSample at h
  generalize (if off < 0 then -off else off) = a at h ⊢
  rw [counter_countInRun] at h
  split at h
  case isTrue hstep =>
    simp only [Bool.and_eq_true, decide_eq_true_eq] at hstep
    exact hstep.1
  case isFalse => exact absurd rfl h

/-- Settles O25: only `acquireSample` moves the counter, beyond STEP_THR, and LOCKED does not come to it. -/
theorem servoStepsOnlyInAcquire : Obligations.ServoStepsOnlyInAcquire := by
  intro off s h
  unfold servoSample at h
  split at h
  case isTrue => exact absurd rfl h
  case isFalse hrun =>
    simp only [Bool.or_eq_true, decide_eq_true_eq, not_or] at hrun
    dsimp only at h
    split at h
    case h_1 => exact absurd (by simp) h
    case h_2 hacquire =>
      rw [modLast_last] at hacquire
      have hthr := stepThr_of_acquireSample (s := modLast _ s) (h := (by simpa using h))
      exact ⟨by simp_all, hrun.1, hthr⟩
    case h_3 hlocked hacquire =>
      have hthr := stepThr_of_acquireSample (s := setServo engineTag .acquire (modLast _ s)) (h := (by simpa using h))
      rw [cfg_setServo] at hthr
      exact ⟨hlocked, hrun.1, hthr⟩

/-! Events that act on the Last. -/

theorem sansEvents_msixScan (base : State) (k : Nat) (s : State) :
    sansEvents base (msixScan k s) = { sansEvents base s with tenants := (msixScan k s).tenants, out := (msixScan k s).out } := by
  conv_lhs => rw [msixScan_eq]
  rfl

/-- Settles O26. -/
theorem lastEvents : Obligations.LastEvents := by
  refine ⟨fun s => ⟨fun hin => if_neg (by simp [hin]), fun hover => ?_⟩, fun die s => ?_, fun s hcoarse => ?_, fun s hcoarse hoff => ?_,
    fun s hcoarse hhz hon => ?_⟩
  · refine ⟨msixScan 16 (sourceLostOp s), if_pos hover, ?_⟩
    rw [sansEvents_msixScan, msixScan_last]
    unfold sourceLostOp
    cases hservo : s.last.servo <;> dsimp only
    · exact ⟨hservo, rfl, rfl, rfl⟩
    · simp only [record_last, sansEvents_record, sansEvents_setServo]
      rw [last_setServo]
      exact ⟨rfl, rfl, Bool.or_false _, rfl⟩
    · simp only [record_last, sansEvents_record, sansEvents_setServo]
      rw [last_setServo]
      exact ⟨rfl, rfl, Bool.or_false _, rfl⟩
    · exact ⟨hservo, rfl, rfl, rfl⟩
  · refine ⟨setRate (modLast (fun l => { l with die := die.toInt }) s), rfl, ?_, setRate_eq _, fun hfree => ?_, fun hservo => ?_⟩
    · rw [setRate_eq]
      rfl
    · exact setRate_of_free (s := modLast (fun l => { l with die := die.toInt }) s) hfree
    · rcases hservo with h | h <;> simp [setRate, h]
  · refine ⟨msixScan 16 (clearValid 0 s), if_pos hcoarse, ?_, ?_⟩
    · simp [clearValid]
    · rw [sansEvents_msixScan, msixScan_last]
      simp only [clearValid, sansEvents_record, record_last]
      rfl
  · exact if_neg (by simp [coarseRuns, hoff])
  · refine ⟨_, if_pos (by simp [coarseRuns, hcoarse, hhz, hon]), ?_, rfl⟩
    simp [coarseGranule, hhz, passTime]

/-! Calibration (R39 to R47, R184). -/

/-- A state without its paths and its events. -/
def sansPaths (s : State) : State :=
  sansEvents State.reset { s with trig := { s.trig with paths := [] } }

theorem sansPaths_retrim (pin : Nat) (s : State) (m : Nat) : sansPaths (retrim pin s m) = sansPaths s := by
  unfold retrim
  dsimp only
  split
  · split
    · unfold sansPaths
      rw [record_eq]
      rfl
    · rfl
  · rfl

/-- What is left of a state beside its paths and its events tells the rest. -/
theorem eq_of_sansPaths {s u : State} (h : sansPaths u = sansPaths s) :
    u.last = s.last ∧ sansEvents s u = { s with trig := { s.trig with paths := u.trig.paths } } := by
  refine ⟨(congrArg State.last h :), ?_⟩
  exact (congrArg (fun x : State => sansEvents s { x with trig := { x.trig with paths := u.trig.paths } }) h :)

theorem lengths_of_shaped_cal {s : State} (h : shaped s = true) :
    s.last.cal.trace.length = 32 ∧ s.last.cal.phyTx.length = 4 ∧ s.last.cal.phyRx.length = 4 ∧ s.last.cal.asym.length = 4 ∧
      s.last.cal.cell.length = 12 := by
  simp only [shaped, Bool.and_eq_true, decide_eq_true_eq] at h
  obtain ⟨⟨⟨⟨⟨⟨_, htrace⟩, htx⟩, hrx⟩, hasym⟩, hcell⟩, _⟩ := h
  exact ⟨htrace, htx, hrx, hasym, hcell⟩

/-- The terms of Table 2.9, one kind to a line. -/
theorem calTerm_iff (item index sub : Nat) : calTerm item index sub = true ↔
    (item = 1 ∧ sub = 0 ∧ index < 32) ∨ (item = 2 ∧ sub = 0 ∧ index < 4) ∨ (item = 2 ∧ sub = 1 ∧ index < 4) ∨
    (item = 3 ∧ sub = 0 ∧ index < 4) ∨ (item = 4 ∧ sub = 0 ∧ index = 0) ∨ (item = 4 ∧ sub = 1 ∧ index = 0) ∨
    (item = 4 ∧ sub = 2 ∧ index = 0) ∨ (item = 5 ∧ sub = 0 ∧ index < 12) := by
  unfold calTerm
  split <;> simp_all <;> omega

/-- A term reads the value it was set to. -/
theorem userTerm_setTerm_self {s : State} (hs : shaped s = true) {item index sub : Nat} (v : Int) (h : calTerm item index sub = true) :
    userTerm (setTerm item index sub v s.last.cal) item index sub = v := by
  obtain ⟨htrace, htx, hrx, hasym, hcell⟩ := lengths_of_shaped_cal hs
  rcases (calTerm_iff ..).mp h with ⟨rfl, rfl, hi⟩ | ⟨rfl, rfl, hi⟩ | ⟨rfl, rfl, hi⟩ | ⟨rfl, rfl, hi⟩ | ⟨rfl, rfl, rfl⟩ | ⟨rfl, rfl, rfl⟩ |
    ⟨rfl, rfl, rfl⟩ | ⟨rfl, rfl, hi⟩
  · exact nth_updAt_self _ _ _ (htrace.symm ▸ hi)
  · exact nth_updAt_self _ _ _ (htx.symm ▸ hi)
  · exact nth_updAt_self _ _ _ (hrx.symm ▸ hi)
  · exact nth_updAt_self _ _ _ (hasym.symm ▸ hi)
  · rfl
  · rfl
  · rfl
  · exact nth_updAt_self _ _ _ (hcell.symm ▸ hi)

/-- A term of another name keeps its value: it lies in another table, or at another place of the same. -/
theorem userTerm_setTerm_other (c : Calib) {item index sub i k j : Nat} (v : Int) (h : calTerm item index sub = true)
    (h' : calTerm i k j = true) (hne : ¬ (i = item ∧ k = index ∧ j = sub)) :
    userTerm (setTerm item index sub v c) i k j = userTerm c i k j := by
  rcases (calTerm_iff ..).mp h' with ⟨rfl, rfl, hi⟩ | ⟨rfl, rfl, hi⟩ | ⟨rfl, rfl, hi⟩ | ⟨rfl, rfl, hi⟩ | ⟨rfl, rfl, rfl⟩ | ⟨rfl, rfl, rfl⟩ |
    ⟨rfl, rfl, rfl⟩ | ⟨rfl, rfl, hi⟩ <;>
  rcases (calTerm_iff ..).mp h with ⟨rfl, rfl, h0⟩ | ⟨rfl, rfl, h0⟩ | ⟨rfl, rfl, h0⟩ | ⟨rfl, rfl, h0⟩ | ⟨rfl, rfl, rfl⟩ | ⟨rfl, rfl, rfl⟩ |
    ⟨rfl, rfl, rfl⟩ | ⟨rfl, rfl, h0⟩ <;>
  simp_all [userTerm, setTerm, nth_updAt_other, ne_comm]

/-- Settles O23. -/
theorem calSetChangesOneUserTerm : Obligations.CalSetChangesOneUserTerm := by
  intro r item index sub value s hruns hshaped
  have hterm : calTerm item.toNat index.toNat sub.toNat = true := by
    obtain ⟨_, _, _, _, _, _, _, _, hown⟩ := refusal_none (runs_passes (m := calSetM item index sub value) rfl rfl hruns)
    have hb := check_passes (st := .range) hown (List.mem_singleton.mpr rfl) (by decide)
    simp only [Bool.or_eq_false_iff, Bool.not_eq_false'] at hb
    exact hb.1
  refine ⟨_, runs_answers (m := calSetM item index sub value) rfl hruns, ?_⟩
  set s1 := modLast (fun l => { l with
    cal := setTerm item.toNat index.toNat sub.toNat value.toInt l.cal
    calOld := (l.calOld.filter fun x => s.now < x.2) ++ [(l.cal, s.now + ofNs 1000)] }) s
  have hpaths : sansPaths ((calSetM item index sub value).effect ((calSetM item index sub value).copy s) s).1 = sansPaths s1 := by
    simp only [calSetM]
    split
    · exact foldl_keeps sansPaths (sansPaths_retrim _) _ _
    · rfl
  obtain ⟨hlast, hrest⟩ := eq_of_sansPaths hpaths
  rw [hlast]
  refine ⟨userTerm_setTerm_self hshaped _ hterm, fun i k j hother hne => userTerm_setTerm_other _ _ hterm hother hne, ?_⟩
  exact hrest

end Sys2Proof.Machine
end

section
/-! The register bridge (03, R64 to R69): accesses held for a domain that does not acknowledge. -/

namespace Sys2Proof.Machine

/-- With no access held, none waits for the bridge. -/
theorem wakeBridge_of_none {s : State} (h : s.sys.held = []) : wakeBridge s = s := by
  simp [wakeBridge, h]

@[simp] theorem answer_held (who : RegMaster) (error write : Bool) (v : Word) (s : State) :
    (answer who error write v s).sys.held = s.sys.held := by
  cases who <;> rfl

theorem unhold_singleton {h : HeldAccess} {s : State} (hs : s.sys.held = [h]) :
    unhold h s = { s with sys := { s.sys with held := [] } } := by
  simp [unhold, modSys, hs]

/-- A class 0 command without a group, or a group command, runs at once; a register write that nobody acknowledges is held. -/
theorem exec_silent {i : Instr} {r : Req} {m : Meaning} {d : Nat} {s : State} (hr : reqOf i = some r) (hm : meaningOf i = some m)
    (ha : accepted i s = true) (hcls : r.cls = 0) (hgroup : r.group = 0 ∨ isGroupCmd i = true) (hswap : atSwap i = false)
    (hd : silentDomain s i = some d) :
    exec i s = .next (msixScan 16 (holdWrite d { tenant := r.tenant, cmd := i, timed := false, copied := m.copy s } s)) := by
  rw [exec_accepted hr hm ha]
  have hg : ¬ (decide (r.group ≠ 0) && !isGroupCmd i) = true := by
    rcases hgroup with h | h <;> simp [h]
  rw [execute, if_neg hg, if_neg (by simp [hcls]), if_pos hcls, hswap, if_neg (by simp)]
  simp [runNow, hd, hcls]

theorem exec_fenceWaitEnd {d : Fin 29} {h : HeldAccess} {s : State} (hh : heldFor s d.val = some h) (hw : h.waiting = true) :
    exec (.fenceWaitEnd d) s = .next (msixScan 16 (wakeBridge (giveUp h (tellHeld h (unhold h s))))) := by
  simp only [exec, execFenceWaitEnd, hh, hw]
  rfl

theorem domain_of_heldFor {d : Nat} {h : HeldAccess} {s : State} (hh : heldFor s d = some h) : h.domain = d := by
  have hp := List.find?_some hh
  simp only [Bool.and_eq_true, decide_eq_true_eq] at hp
  exact hp.1

/-- Settles O28. -/
theorem registerBridge : Obligations.RegisterBridge := by
  refine ⟨fun i r m d s => exec_silent, fun d h s hh hw => ?_, fun d h s hh hw hs => ⟨fun hj => ?_, fun j r hj hr => ?_⟩,
    fun d h s hh => ?_, fun h s hf => if_pos hf⟩
  · simp only [exec, execRegisterHoldTimeout, hh, hw]
    rfl
  · rw [exec_fenceWaitEnd hh hw, unhold_singleton hs]
    simp only [giveUp, tellHeld, hj, domain_of_heldFor hh]
    rw [wakeBridge_of_none (by simp)]
    rfl
  · rw [exec_fenceWaitEnd hh hw, unhold_singleton hs]
    simp only [giveUp, tellHeld, hj, hr, domain_of_heldFor hh, Option.isSome_some, if_true]
    set t : State := tellNoClock d.val { s with sys := { s.sys with held := [] } } with ht
    have htell : sansEvents s t = { s with sys := { s.sys with held := [] } } := by
      rw [ht, tellNoClock, drawFree, sansEvents_record]
      rfl
    refine ⟨t, htell, ?_⟩
    rw [wakeBridge_of_none]
    · rw [show nowNs t = nowNs s from (congrArg (fun x : State => nowNs x) htell :)]
    · rw [(repliesOnly_post ..).rest]
      exact (congrArg (fun x : State => x.sys.held) htell :)
  · simp only [exec, execRegisterAcknowledge, hh]
    rfl

end Sys2Proof.Machine
end

section
/-! The event recorder (13): how an event is recorded. -/

namespace Sys2Proof.Machine

/-- A data block fills its room (R345). -/
theorem length_packData (room : Nat) (fields : List (Nat × Nat)) : (packData room fields).length = room := by
  induction fields generalizing room with
  | nil => simp [packData]
  | cons x fields ih =>
    obtain ⟨n, v⟩ := x
    by_cases h : n ≤ room
    · simp [packData, h, ih]
    · simp [packData, h]

/-- Channel C takes nothing: it is not in use, or the code's RATE is 0. -/
theorem recordC_off {code origin : Nat} {d : List Byte} {valid : Bool} {time hours : Nat} {raw : Bool} {s : State}
    (h : (s.evrec.cState = 0 ∨ s.evrec.cState = 3) ∨ exemptCode code = false ∧ (rateOf s.evrec code).1 = 0) :
    recordC code origin d valid time hours raw s = s :=
  if_pos (by simpa using h)

/-- The recorder's own codes need no token (R351, R353). -/
theorem recordC_exempt {code origin : Nat} {d : List Byte} {valid : Bool} {time hours : Nat} {raw : Bool} {s : State}
    (h0 : s.evrec.cState ≠ 0) (h3 : s.evrec.cState ≠ 3) (hex : exemptCode code = true) (hroom : s.evrec.queue.length < 72) :
    recordC code origin d valid time hours raw s = modEvrec (fun e => { e with
      queue := e.queue ++ [{ code, origin, supp := min ((assoc s.evrec.supp code).getD 0) 255, hours, raw, valid, time, data := d }]
      supp := assocDel e.supp code }) s := by
  simp [recordC, h0, h3, hex, hroom]

/-- What channel C takes: nothing, or one entry with room for it; channel B stays. -/
theorem recordC_shape (code origin : Nat) (d : List Byte) (valid : Bool) (time hours : Nat) (raw : Bool) (s : State) :
    let u := recordC code origin d valid time hours raw s
    u.evrec.ring = s.evrec.ring ∧ u.evrec.bHead = s.evrec.bHead ∧
      (u.evrec.queue = s.evrec.queue ∨ s.evrec.queue.length < 72 ∧ ∃ x, u.evrec.queue = s.evrec.queue ++ [x]) := by
  unfold recordC
  rcases Bool.eq_false_or_eq_true (exemptCode code) with hex | hex <;> simp only [hex, if_true, Bool.false_eq_true, if_false] <;> split
  · exact ⟨rfl, rfl, .inl rfl⟩
  · split
    case isTrue hin => exact ⟨rfl, rfl, .inr ⟨by simpa using hin, _, rfl⟩⟩
    case isFalse => exact ⟨rfl, rfl, .inl rfl⟩
  · exact ⟨rfl, rfl, .inl rfl⟩
  · split
    case isTrue hin =>
      simp only [Bool.and_eq_true, decide_eq_true_eq] at hin
      exact ⟨rfl, rfl, .inr ⟨by omega, _, rfl⟩⟩
    case isFalse => exact ⟨rfl, rfl, .inl rfl⟩

/-- An event of a recorder in service enters both channels. -/
theorem record_inService {code origin : Nat} {fields : List (Nat × Nat)} {s : State} (h : s.evrec.bService = true) :
    record code origin fields s = recordC code origin (packData 8 fields) s.last.valid (recordTime s) s.evrec.hours (!s.evrec.settled)
      (recordB code origin (packData 8 fields) s) :=
  if_neg (by simp [h])

/-- An event of a recorder out of service waits in AON (R77). -/
theorem record_outOfService {code origin : Nat} {fields : List (Nat × Nat)} {s : State} (h : s.evrec.bService = false) :
    record code origin fields s = modSys (fun y =>
      if y.aonEvents.length < 16 then
        { y with aonEvents := y.aonEvents ++ [{
          code, origin, data := packData 8 fields, valid := s.last.valid, time := recordTime s
          hours := s.evrec.hours, raw := !s.evrec.settled }] }
      else { y with aonDropped := y.aonDropped + 1 }) s :=
  if_pos (by simp [h])

/-- Settles O49. -/
theorem eventsAreRecorded : Obligations.EventsAreRecorded := by
  intro code origin fields s d u
  refine ⟨length_packData 8 fields, by rw [sansEvents_record]; rfl, fun hb => ?_, fun hb => ?_⟩
  · have hu : u = recordC code origin d s.last.valid (recordTime s) s.evrec.hours (!s.evrec.settled) (recordB code origin d s) :=
      record_inService hb
    obtain ⟨hring, hhead, hqueue⟩ := recordC_shape code origin d s.last.valid (recordTime s) s.evrec.hours (!s.evrec.settled)
      (recordB code origin d s)
    rw [hu, hring, hhead]
    refine ⟨rfl, rfl, fun hoff => ?_, fun h0 h3 hex hroom => ?_, fun hex hrate => ?_, ?_⟩
    · rw [recordC_off (s := recordB code origin d s) (Or.inl hoff)]
      exact ⟨rfl, rfl⟩
    · rw [recordC_exempt (s := recordB code origin d s) h0 h3 hex hroom]
      exact ⟨_, rfl, rfl, rfl, rfl, rfl, rfl, rfl⟩
    · rw [recordC_off (s := recordB code origin d s) (Or.inr ⟨hex, hrate⟩)]
      rfl
    · rcases hqueue with h | ⟨hroom, x, h⟩ <;> rw [h]
      · exact le_max_left ..
      · exact le_trans (by simpa using hroom) (le_max_right ..)
  · have hu : u = _ := record_outOfService hb
    refine ⟨by rw [hu]; rfl, fun hroom => ?_, fun hfull => ?_⟩
    · simp only [hu, modSys, hroom, if_true]
      exact ⟨_, rfl, rfl, rfl, rfl⟩
    · simp [hu, modSys, not_lt.mpr hfull]

end Sys2Proof.Machine
end

section
/-! Buses and their ranges (10, R283 to R286). -/

namespace Sys2Proof.Machine

theorem bus_modBus_self {b : Nat} {s : State} (f : Bus → Bus) (hb : b < s.prism.buses.length) : (modBus b f s).bus b = f (s.bus b) :=
  nth_updAt_self _ _ _ hb

theorem bus_modBus_other {b k : Nat} (f : Bus → Bus) (s : State) (h : k ≠ b) : (modBus b f s).bus k = s.bus k :=
  nth_updAt_other _ _ _ _ h.symm

@[simp] theorem length_buses_modBus (b : Nat) (f : Bus → Bus) (s : State) : (modBus b f s).prism.buses.length = s.prism.buses.length :=
  List.length_modify ..

@[simp] theorem bus_record (c o : Nat) (d : List (Nat × Nat)) (s : State) (k : Nat) : (record c o d s).bus k = s.bus k := by
  simp [State.bus]

theorem shaped_buses_length {s : State} (h : shaped s = true) : s.prism.buses.length = 128 := by
  simp only [shaped, Bool.and_eq_true, decide_eq_true_eq] at h
  tauto

/-- A bus that takes a new range. -/
def ranged (r : Nat) (q : Bus) : Bus := { q with range := r, below := 0, steps := q.steps + 1 }

theorem bus_setRange_self {b r : Nat} {s : State} (hb : b < s.prism.buses.length) (h : (s.bus b).range ≠ r) :
    (setRange b r s).bus b = ranged r (s.bus b) := by
  rw [setRange, if_neg h, bus_record, bus_modBus_self _ hb]
  rfl

theorem bus_setRange_other {b k : Nat} (r : Nat) (s : State) (h : k ≠ b) : (setRange b r s).bus k = s.bus k := by
  unfold setRange
  dsimp only
  split
  · rfl
  · rw [bus_record, bus_modBus_other _ _ h]

theorem modBus_congr {b : Nat} {f g : Bus → Bus} {s : State} (h : f (s.bus b) = g (s.bus b)) : modBus b f s = modBus b g s := by
  unfold modBus
  rw [updAt_congr s.prism.buses b h]

/-- The step-up thresholds rise with the range. -/
theorem aboveUp_zero_of_one {v : Int} (h : aboveUp v 1 = true) : aboveUp v 0 = true := by
  simp only [aboveUp, rangeS] at h ⊢
  norm_num at h ⊢
  omega

/-- The smallest range that fits lies above the one in force. -/
theorem range_lt_fitRange {v : Int} {r : Nat} (hr : r < 2) (h : aboveUp v r = true) : r < fitRange v := by
  interval_cases r
  · rw [fitRange, h]
    split
    · contradiction
    · split <;> decide
  · simp [fitRange, h, aboveUp_zero_of_one h]

/-- A bus with the word of its sum. -/
def formedBus (v : Int) (q : Bus) : Bus := { q with formed := busWord v q.range, formedS := rangeS q.range }

/-- A bus whose sum stays within its range: it counts toward the step down, or starts counting anew. -/
def countBelow (v : Int) (q : Bus) : Bus := { q with below := if 0 < q.range && belowDown v q.range then q.below + 1 else 0 }

/-- In fixed mode the mix stage only forms the word. -/
theorem busStage_fixed {sums : List (Nat × Int)} {s : State} {b : Nat} (h : (s.bus b).auto = false) :
    busStage sums s b = modBus b (formedBus (valueOf sums b)) s := by
  simp only [busStage, h, Bool.not_false, if_true]
  rfl

/-- In auto mode a sum above the threshold takes a higher range. -/
theorem busStage_above {sums : List (Nat × Int)} {s : State} {b : Nat} (h : (s.bus b).auto = true) (hr : (s.bus b).range < 2)
    (hup : aboveUp (valueOf sums b) (s.bus b).range = true) :
    busStage sums s b = setRange b (fitRange (valueOf sums b)) (modBus b (formedBus (valueOf sums b)) s) := by
  simp only [busStage, h, hr, hup, Bool.not_true, Bool.false_eq_true, if_false, decide_true, Bool.and_self, if_true]
  rfl

/-- In auto mode another sum counts toward the step down, or not. -/
theorem busStage_within {sums : List (Nat × Int)} {s : State} {b : Nat} (h : (s.bus b).auto = true)
    (hup : ¬ ((s.bus b).range < 2 ∧ aboveUp (valueOf sums b) (s.bus b).range = true)) :
    busStage sums s b = modBus b (countBelow (valueOf sums b)) (modBus b (formedBus (valueOf sums b)) s) := by
  have hnot : ¬ ((s.bus b).range < 2 && aboveUp (valueOf sums b) (s.bus b).range) = true := by simpa using hup
  simp only [busStage, h, Bool.not_true, Bool.false_eq_true, if_false, if_neg hnot]
  rfl

/-- Settles O42. -/
theorem busRanges : Obligations.BusRanges := by
  refine ⟨fun sums s b hb hshaped => ?_, fun b s hshaped hauto hrange hbelow => ?_⟩
  · have hlen : b < s.prism.buses.length := by rw [shaped_buses_length hshaped]; exact hb
    intro q v u
    set s1 := modBus b (formedBus v) s with hs1
    have hbus : s1.bus b = formedBus v q := bus_modBus_self _ hlen
    have hother : ∀ k, k ≠ b → s1.bus k = s.bus k := fun k hk => bus_modBus_other _ _ hk
    have hlen1 : b < s1.prism.buses.length := by simpa [hs1] using hlen
    rcases Bool.eq_false_or_eq_true q.auto with hauto | hauto
    · by_cases hup : q.range < 2 ∧ aboveUp v q.range = true
      · have hu : u = setRange b (fitRange v) s1 := busStage_above hauto hup.1 hup.2
        have hfit := range_lt_fitRange hup.1 hup.2
        have hself : u.bus b = ranged (fitRange v) (formedBus v q) := by
          rw [hu, bus_setRange_self hlen1 (by rw [hbus]; exact hfit.ne), hbus]
        rw [hself]
        refine ⟨rfl, rfl, fun k hk => ?_, fun h => ?_, fun _ _ _ => ⟨hfit, rfl, rfl, rfl⟩, fun _ h => ?_⟩
        · rw [hu, bus_setRange_other _ _ hk, hother k hk]
        · simp [h] at hauto
        · rcases h with h | h
          · exact absurd hup.1 (not_lt.mpr h)
          · simp [h] at hup
      · have hu : u = modBus b (countBelow v) s1 := busStage_within hauto hup
        have hself : u.bus b = countBelow v (formedBus v q) := by
          rw [hu, bus_modBus_self _ hlen1, hbus]
        rw [hself]
        refine ⟨rfl, rfl, fun k hk => ?_, fun h => ?_, fun _ hr h => absurd ⟨hr, h⟩ hup, fun _ _ => ⟨rfl, by by_cases h : 0 < q.range <;> simp [countBelow, formedBus, h]⟩⟩
        · rw [hu, bus_modBus_other _ _ hk, hother k hk]
        · simp [h] at hauto
    · have hu : u = s1 := busStage_fixed hauto
      rw [hu, hbus]
      exact ⟨rfl, rfl, hother, fun _ => ⟨rfl, rfl⟩, fun h => by simp [h] at hauto, fun h => by simp [h] at hauto⟩
  · have hlen : b.val < s.prism.buses.length := by rw [shaped_buses_length hshaped]; exact b.isLt
    have hne : (s.bus b).range ≠ (s.bus b).range - 1 := by omega
    refine ⟨setRange b ((s.bus b).range - 1) s, if_pos (by simp [hauto, hrange, hbelow]), ?_⟩
    rw [bus_setRange_self hlen hne]
    refine ⟨rfl, rfl, rfl, ?_⟩
    rw [setRange, if_neg hne, sansEvents_record]
    exact modBus_congr (s := s) (f := ranged ((s.bus b).range - 1)) (g := fun _ => ranged ((s.bus b).range - 1) (s.bus b)) rfl

end Sys2Proof.Machine
end

section
/-! Lens instructions (11): what one that is at its core's pc does to the core. -/

namespace Sys2Proof.Machine

theorem core_modLens_self {n : Nat} {s : State} (f : LensCore → LensCore) (h : n < s.lens.length) : (modLens n f s).core n = f (s.core n) :=
  nth_updAt_self _ _ _ h

theorem core_modLens_other {n k : Nat} (f : LensCore → LensCore) (s : State) (h : k ≠ n) : (modLens n f s).core k = s.core k :=
  nth_updAt_other _ _ _ _ h.symm

/-- Beyond the cores there is nothing to change. -/
theorem modLens_of_le {n : Nat} {s : State} (f : LensCore → LensCore) (h : s.lens.length ≤ n) : modLens n f s = s := by
  unfold modLens
  rw [show updAt s.lens n f = s.lens from List.modify_eq_self h]

/-- What is left of a ready instruction: its operation. -/
theorem lensTurn_ready {n : Fin 8} {i : Instr} {op : State → Except LensCause State} {s t : State} (h : lensReady n i s = true)
    (hop : op s = .ok t) (ha : (t.core n).aborting = false) : lensTurn n i op s = .next (msixScan 16 t) := by
  simp only [lensReady, Bool.and_eq_true, Bool.not_eq_true', decide_eq_true_eq] at h
  obtain ⟨⟨⟨⟨hlive, hhalt⟩, hregion⟩, hword⟩, -⟩ := h
  simp [lensTurn, hlive, hhalt, lensInstr, hregion, hword, hop, ha, fin]

theorem core_lt_of_ready {n : Fin 8} {i : Instr} {s : State} (h : lensReady n i s = true) : n.val < s.lens.length := by
  by_contra hlen
  have hcore : s.core n = default := by
    simp [State.core, nth, List.getD_eq_getElem?_getD, List.getElem?_eq_none (not_lt.mp hlen)]
  simp [lensReady, lensLive, hcore, show (default : LensCore).run = none from rfl] at h

theorem aborting_of_ready {n : Fin 8} {i : Instr} {s : State} (h : lensReady n i s = true) : (s.core n).aborting = false := by
  simp only [lensReady, Bool.and_eq_true, Bool.not_eq_true'] at h
  exact h.2

/-- A ready instruction that changes its core alone. -/
theorem lensTurn_onCore {n : Fin 8} {i : Instr} {f : LensCore → LensRes} {s : State} {r : LensCore} (h : lensReady n i s = true)
    (hf : f (s.core n) = .ok r) (ha : r.aborting = (s.core n).aborting) :
    lensTurn n i (onCore n f) s = .next (msixScan 16 (modLens n (fun _ => r) s)) := by
  refine lensTurn_ready h (by rw [onCore, hf]; rfl) ?_
  rw [core_modLens_self _ (core_lt_of_ready h), ha, aborting_of_ready h]

/-- One that also draws a free value. -/
theorem lensTurn_onCoreFree {n : Fin 8} {i : Instr} {f : Half → LensCore → LensRes} {s : State} {r : LensCore} (h : lensReady n i s = true)
    (hf : f ((Config.freeBits s.free).setWidth 16) (s.core n) = .ok r) (ha : r.aborting = (s.core n).aborting) :
    lensTurn n i (onCoreFree n f) s = .next (msixScan 16 (modLens n (fun _ => r) { s with free := s.free + 1 })) := by
  refine lensTurn_ready h ?_ ?_
  · simp only [onCoreFree, drawFree, onCore]
    rw [show ({ s with free := s.free + 1 } : State).core n = s.core n from rfl, hf]
    rfl
  · rw [core_modLens_self _ (by exact core_lt_of_ready h), ha, aborting_of_ready h]

/-! What a core keeps. -/

@[simp] theorem aborting_afterInstr (k a : Nat) (c : LensCore) : (afterInstr k a c).aborting = c.aborting := by
  induction k generalizing c with
  | zero => rfl
  | succ k ih =>
    unfold afterInstr
    split
    · split
      · rfl
      · split
        · rfl
        · rw [ih]
          unfold popLoop
          split <;> rfl
    · rfl

@[simp] theorem aborting_nextInstr (n : Nat) (c : LensCore) : (nextInstr n c).aborting = c.aborting := by simp [nextInstr]

theorem aborting_withMoves {v : Half} {x y : Move} {q : Option (Nat × Half)} {f : LensCore → LensCore} {c r : LensCore}
    (h : withMoves v x y q f c = .ok r) : r.aborting = (f c).aborting := by
  unfold withMoves at h
  split at h
  · cases h
  · cases h
  · split at h
    · cases h
    · injection h with h
      subst h
      dsimp only
      unfold ptrWrites
      rw [foldl_keeps LensCore.aborting (fun _ _ => by rfl), foldl_keeps LensCore.aborting (fun _ _ => by rfl)]

/-- The moves of an instruction run: it completes. -/
theorem withMoves_ok {x y : Move} {c : LensCore} (v : Half) (f : LensCore → LensCore) (h : movesRun c x y = true) :
    ∃ r, withMoves v x y none f c = .ok r := by
  unfold movesRun at h
  unfold withMoves
  split at h
  · next a b ha hb =>
    rw [ha, hb]
    exact ⟨_, if_neg (by simpa using h)⟩
  · cases h

/-- An instruction of class ALU or MAC without a REP: once, and on. -/
theorem runAlu_once {g : LensCore → LensRes} {c r : LensCore} (hrep : c.rep = none) (hg : g c = .ok r) :
    runAlu false g c = .ok (nextInstr 1 r) := by
  simp [runAlu, hg, hrep, repeatGo, bit]

/-- The instruction i, ready on core n, is the operation f with the moves x and y. -/
def MovesOnce (n : Fin 8) (x y : Move) (s : State) (i : Instr) (f : LensCore → LensCore) : Prop :=
  lensReady n i s = true → ∃ c, withMoves ((Config.freeBits s.free).setWidth 16) x y none f (s.core n) = .ok c ∧
    exec i s = .next (msixScan 16 (modLens n (fun _ => nextInstr 1 c) { s with free := s.free + 1 }))

theorem aborting_accumAll (l : List (Nat × Int)) (c : LensCore) : (accumAll l c).aborting = c.aborting :=
  foldl_keeps (fun p : LensCore × Bool => p.1.aborting) (fun _ _ => by rfl) l (c, false)

/-- Accumulators written one after another (MPY4). -/
def putAll (l : List (Nat × Int)) (c : LensCore) : LensCore := l.foldl (fun c v => putA v.1 v.2 c) c

theorem aborting_putAll (l : List (Nat × Int)) (c : LensCore) : (putAll l c).aborting = c.aborting :=
  foldl_keeps LensCore.aborting (fun _ _ => by rfl) l c

section
variable {n : Fin 8} {x y : Move} {s : State} (hrep : (s.core n).rep = none) (hm : movesRun (s.core n) x y = true)
include hrep hm

/-- An instruction of class ALU or MAC at its core's pc. -/
theorem movesOnce {i : Instr} {op : Half → LensCore → LensRes} {g : LensCore → LensRes} {f : LensCore → LensCore}
    (hexec : exec i s = lensTurn n i (onCoreFree n op) s)
    (hop : op ((Config.freeBits s.free).setWidth 16) (s.core n) = runAlu false g (s.core n))
    (hg : g (s.core n) = withMoves ((Config.freeBits s.free).setWidth 16) x y none f (s.core n))
    (hf : (f (s.core n)).aborting = (s.core n).aborting) : MovesOnce n x y s i f := by
  intro hready
  obtain ⟨c, hc⟩ := withMoves_ok _ f hm
  refine ⟨c, hc, ?_⟩
  rw [hexec, lensTurn_onCoreFree hready (hop.trans (runAlu_once hrep (hg.trans hc)))]
  rw [aborting_nextInstr, aborting_withMoves hc, hf]

/-- One over an operand D(x). -/
theorem movesOnce_mac {i : Instr} {p : BitVec 4} (f : Int → LensCore → LensCore)
    (hexec : exec i s = lensTurn n i (onCoreFree n fun v => macOp v x y p false f) s)
    (hf : (f (getD_ (s.core n) p).toInt (s.core n)).aborting = (s.core n).aborting) :
    MovesOnce n x y s i (f (getD_ (s.core n) p).toInt) :=
  movesOnce hrep hm hexec (g := fun c => withMoves ((Config.freeBits s.free).setWidth 16) x y none (f (getD_ c p).toInt) c) rfl rfl hf

theorem mpy4_movesOnce (a : BitVec 3) (p q : BitVec 4) (neg : Bool) : MovesOnce n x y s (.lMpy4 n a p q false neg x y)
    (fun c => putAll (fourProducts c a q neg (getD_ (s.core n) p).toInt) c) :=
  movesOnce_mac hrep hm (fun w c => putAll (fourProducts c a q neg w) c) rfl (aborting_putAll ..)

theorem mac4_movesOnce (a : BitVec 3) (p q : BitVec 4) (neg : Bool) : MovesOnce n x y s (.lMac4 n a p q false neg x y)
    (fun c => accumAll (fourProducts c a q neg (getD_ (s.core n) p).toInt) c) :=
  movesOnce_mac hrep hm (fun w c => accumAll (fourProducts c a q neg w) c) rfl (aborting_accumAll ..)

theorem mac2e_movesOnce (a : BitVec 3) (p q : BitVec 4) (neg : Bool) : MovesOnce n x y s (.lMac2e n a p q neg x y)
    (fun c => accumAll [(a.toNat, signed neg (roundWide ((Config.freeBits s.free).setWidth 16)
      (((getD_ c (p + 1)).toInt * 2 ^ 32 + (getD_ c p).toNat) * (getD_ c q).toInt)))] c) :=
  movesOnce hrep hm rfl rfl rfl (aborting_accumAll ..)

theorem mac2c_movesOnce (a : BitVec 3) (p q : BitVec 4) (neg : Bool) : MovesOnce n x y s (.lMac2c n a p q neg x y)
    (fun c => accumAll [
      (a.toNat, signed neg ((getD_ c p).toInt * (getD_ c q).toInt - (getD_ c (p + 1)).toInt * (getD_ c (q + 1)).toInt)),
      (a.toNat + 1, signed neg ((getD_ c p).toInt * (getD_ c (q + 1)).toInt + (getD_ c (p + 1)).toInt * (getD_ c q).toInt))] c) :=
  movesOnce hrep hm rfl rfl rfl (aborting_accumAll ..)

end

/-- Settles O44: each row runs its operation on the core as it finds it. -/
theorem lensComputes : Obligations.LensComputes := by
  intro n x y s hrep hm moved
  have row := fun {i : Instr} {op : Half → LensCore → LensRes} {g : LensCore → LensRes} {f : LensCore → LensCore} =>
    movesOnce (n := n) (i := i) (op := op) (g := g) (f := f) hrep hm
  refine ⟨fun d a b => ⟨row rfl rfl rfl rfl, row rfl rfl rfl rfl, row rfl rfl rfl rfl, row rfl rfl rfl rfl, row rfl rfl rfl rfl,
    fun sh => ⟨row rfl rfl rfl rfl, row rfl rfl rfl rfl, row rfl rfl rfl rfl⟩, row rfl rfl rfl rfl, row rfl rfl rfl rfl, row rfl rfl rfl rfl,
    row rfl rfl rfl rfl, row rfl rfl rfl rfl, row rfl rfl rfl rfl, row rfl rfl rfl rfl⟩, fun a p q neg =>
    ⟨?_, ?_, mpy4_movesOnce hrep hm a p q neg, mac4_movesOnce hrep hm a p q neg, mac2e_movesOnce hrep hm a p q neg,
    mac2c_movesOnce hrep hm a p q neg, row rfl rfl rfl rfl, row rfl rfl rfl rfl, fun sh => row rfl rfl rfl rfl, row rfl rfl rfl rfl⟩⟩
  · exact movesOnce_mac hrep hm (fun w c => putA a.toNat (signed neg (w * (getD_ c q).toInt)) c) rfl rfl
  · exact movesOnce_mac hrep hm (fun w c => accumAll [(a.toNat, signed neg (w * (getD_ c q).toInt))] c) rfl (aborting_accumAll ..)

end Sys2Proof.Machine
end

section
/-! Control, immediate and bus instructions of a Lens core (11, Tables 11.7 and 11.10). -/

namespace Sys2Proof.Machine

@[simp] theorem aborting_finishBlock {c : LensCore} (out : Int) (h : c.discard = false) : (finishBlock out c).aborting = c.aborting := by
  simp only [finishBlock, h, Bool.false_eq_true, if_false]
  split <;> rfl

@[simp] theorem aborting_enterKernel (k out : Int) (slot : Nat) (init : Bool) (rest : List (Nat × Bool)) (c : LensCore) :
    (enterKernel k out slot init rest c).aborting = c.aborting := by
  unfold enterKernel
  dsimp only
  split <;> rfl

@[simp] theorem aborting_branchTo (t : Nat) (c : LensCore) : (branchTo t c).aborting = c.aborting := by
  unfold branchTo popLoop
  dsimp only
  split
  · split
    · rfl
    · split
      · split <;> rfl
      · rfl
  · rfl

theorem aborting_writeSel {r : Nat} {v : Word} {c c1 : LensCore} (h : writeSel r v c = .ok c1) : c1.aborting = c.aborting := by
  unfold writeSel at h
  dsimp only at h
  repeat' split at h
  all_goals cases h
  all_goals rfl

theorem runOne_of_none {f : LensCore → LensRes} {c : LensCore} (h : c.rep = none) : runOne f c = f c := by simp [runOne, h]

section
variable {n : Fin 8} {s : State} (hrep : (s.core n).rep = none)
include hrep

/-- An instruction of another class than ALU and MAC, at its core's pc. -/
theorem turns_of_op {i : Instr} {f : LensCore → LensRes} {r : LensCore} (hexec : exec i s = lensTurn n i (onCore n (runOne f)) s)
    (hf : f (s.core n) = .ok r) (ha : r.aborting = (s.core n).aborting) (hready : lensReady n i s = true) :
    exec i s = .next (msixScan 16 (modLens n (fun _ => r) s)) :=
  hexec.trans (lensTurn_onCore hready ((runOne_of_none hrep).trans hf) ha)

theorem loop_enters {rot reg : Bool} {dc : BitVec 4} {count : Half} {e : BitVec 13} {k : Nat}
    (hk : k = if reg then (getD_ (s.core n) dc).toNat % 65536 else count.toNat) (h0 : k ≠ 0)
    (hclass : classOf (pmWord (s.core n) e.toNat) ≠ 0) (hlen : (s.core n).loops.length < 4) :
    lensReady n (.lLoop n rot reg dc count e) s = true →
      exec (.lLoop n rot reg dc count e) s = .next (msixScan 16 (modLens n (fun _ => { s.core n with
        loops := { start := (s.core n).pc + 1, last := e.toNat, count := k, rotOuter := (s.core n).rot, rot := rot, first := true } :: (s.core n).loops
        rot := if rot then 0 else (s.core n).rot
        cache := if (s.core n).pc + 1 ≤ e.toNat ∧ e.toNat < (s.core n).pc + 1 + 16 then some ((s.core n).pc + 1, e.toNat) else (s.core n).cache
        pc := (s.core n).pc + 1, cycles := (s.core n).cycles + 1 }) s)) := by
  refine turns_of_op hrep rfl ?_ rfl
  simp only [lLoopOp, ← hk, hclass, h0, if_false, not_le.mpr hlen, Bool.and_eq_true, decide_eq_true_eq]

end

/-! The Store as a core reaches it. -/

/-- A write of the Store changes its cells and the number of its writes. -/
theorem storeWrite_eq (off : Nat) (l : List (Byte × Bool)) (s : State) : storeWrite off l s =
    { s with store := { s.store with cells := (storeWrite off l s).store.cells, writes := (storeWrite off l s).store.writes } } := by
  induction l generalizing off s with
  | nil => rfl
  | cons p l ih =>
    obtain ⟨b, en⟩ := p
    cases en
    · exact ih (off + 1) s
    · have hput : storePut off b s = { s with store := { s.store with
          cells := (storePut off b s).store.cells, writes := (storePut off b s).store.writes } } := by
        unfold storePut
        split <;> rfl
      exact (ih (off + 1) (storePut off b s)).trans (congrArg (fun x : State => { x with store := { x.store with
        cells := (storeWrite (off + 1) l (storePut off b s)).store.cells
        writes := (storeWrite (off + 1) l (storePut off b s)).store.writes } }) hput)

/-- Who had the Store last does not matter to what a write leaves in it. -/
theorem storeWrite_rrBulk (off : Nat) (l : List (Byte × Bool)) (g : List Nat → List Nat) (s : State) :
    storeWrite off l (modStore (fun m => { m with rrBulk := g m.rrBulk }) s) = modStore (fun m => { m with rrBulk := g m.rrBulk }) (storeWrite off l s) := by
  induction l generalizing off s with
  | nil => rfl
  | cons p l ih =>
    obtain ⟨b, en⟩ := p
    cases en
    · exact ih (off + 1) s
    · have hput : storePut off b (modStore (fun m => { m with rrBulk := g m.rrBulk }) s) = modStore (fun m => { m with rrBulk := g m.rrBulk }) (storePut off b s) := by
        unfold storePut
        rw [show keyOf (modStore (fun m => { m with rrBulk := g m.rrBulk }) s).store (pageOf off) = keyOf s.store (pageOf off) from rfl]
        split <;> rfl
      simp only [storeWrite, if_true, hput, ih]

/-- The Store's grant to a core. -/
theorem granted_core (n : Fin 8) (s : State) :
    granted 0 (6 + n) s = modStore (fun m => { m with rrBulk := updAt m.rrBulk 0 fun _ => 6 + n.val + 1 }) s := by
  unfold granted
  rw [if_neg (by omega), if_neg (by simp; omega)]

/-- With no PAGE_COPY running, none goes on. -/
theorem advanceCopies_of_noCopy {s : State} (h : noCopy s = true) : advanceCopies s = s := by
  refine if_neg ?_
  simp only [noCopy, List.all_eq_true, Option.isNone_iff_eq_none] at h
  simp only [List.any_eq_true, not_exists, not_and]
  intro m hm
  simp [h m hm]

/-- A core that holds its page reads the Store. -/
theorem storeReadAs_owned {master tag off k : Nat} {s : State} (hcopy : noCopy s = true) (htag : ownerOf s 5 (pageOf off) = tag) :
    storeReadAs master tag off k s = (s, false, storeBytes s off k) := by
  rw [storeReadAs, advanceCopies_of_noCopy hcopy, if_pos (by simpa [tagOk, ownerOf] using htag)]

/-- A core that holds its page writes the Store. -/
theorem storeWriteAs_owned {master tag off : Nat} {l : List (Byte × Bool)} {s : State} (hcopy : noCopy s = true)
    (htag : ownerOf s 5 (pageOf off) = tag) : storeWriteAs master tag off l s = (storeWrite off l s, false) := by
  rw [storeWriteAs, advanceCopies_of_noCopy hcopy, if_pos (by simpa [tagOk, ownerOf] using htag)]

section
variable {n : Fin 8} {s : State} (hcopy : noCopy s = true) {addr : Nat} (hown : ownerOf s 5 (pageOf addr) = ownerOf s 4 n)
include hcopy hown

theorem coreLoad_owned (haddr : addr < 2 ^ 24) :
    coreLoad n addr s = (granted 0 (6 + n) s, false, BitVec.ofNat 32 (unle (storeBytes s addr 4))) := by
  rw [coreLoad, inStore, if_neg (by simpa using haddr), granted_core]
  rw [storeReadAs_owned (by exact hcopy) (by exact hown)]
  rfl

theorem coreStore_owned (haddr : addr < 2 ^ 24) (v : Word) :
    coreStore n addr v s = (granted 0 (6 + n) (storePoke addr (leBits 4 v) s), false) := by
  rw [coreStore, inStore, if_neg (by simpa using haddr), granted_core, storeWriteAs_owned (by exact hcopy) (by exact hown),
    storeWrite_rrBulk _ _ (fun rr => updAt rr 0 fun _ => 6 + n.val + 1), granted_core]
  rfl

end

/-- A BUS instruction whose access is done. -/
theorem busOp_done {n : Nat} {a : BitVec 4} {mask beats : Nat}
    {f : Nat → State → Except LensCause (State × Bool × (LensCore → LensCore))} {s t : State} {err : Bool} {g : LensCore → LensCore}
    (hrep : (s.core n).rep = none) (halign : (getD_ (s.core n) a).toNat % mask = 0) (hheld : storeHeld s (6 + n) = false)
    (hf : f (getD_ (s.core n) a).toNat s = .ok (t, err, g)) :
    busOp n a mask beats f s = .ok (modLens n (fun c => nextInstr (busCycles s beats) { g c with be := err }) t) := by
  simp [busOp, hrep, halign, hheld, hf]

/-- A ready BUS instruction whose access is done. -/
theorem bus_turns {n : Fin 8} {i : Instr} {op : State → Except LensCause State} {s t : State} {beats : Nat} {g : LensCore → LensCore}
    (hexec : exec i s = lensTurn n i op s) (hready : lensReady n i s = true)
    (hop : op s = .ok (modLens n (fun c => nextInstr (busCycles s beats) { g c with be := false }) t)) (ht : t.lens = s.lens)
    (hg : (g (s.core n)).aborting = (s.core n).aborting) :
    exec i s = .next (msixScan 16 (modLens n (fun c => nextInstr (busCycles s beats) { g c with be := false }) t)) ∧
      (modLens n (fun c => nextInstr (busCycles s beats) { g c with be := false }) t).core n =
        nextInstr (busCycles s beats) { g (s.core n) with be := false } := by
  have hcore : t.core n = s.core n := congrArg (nth · n.val) ht
  have hself := core_modLens_self (s := t) (fun c => nextInstr (busCycles s beats) { g c with be := false })
    (by rw [ht]; exact core_lt_of_ready hready)
  rw [hcore] at hself
  refine ⟨hexec.trans (lensTurn_ready hready hop ?_), hself⟩
  rw [hself, aborting_nextInstr]
  exact hg.trans (aborting_of_ready hready)

/-- What follows an instruction touches the program counter and the loops. -/
theorem afterInstr_eq (k a : Nat) (c : LensCore) : afterInstr k a c =
    { c with pc := (afterInstr k a c).pc, loops := (afterInstr k a c).loops, rot := (afterInstr k a c).rot } := by
  induction k generalizing c with
  | zero => rfl
  | succ k ih =>
    unfold afterInstr
    split
    · split
      · rfl
      · split
        · rfl
        · rw [ih]
          unfold popLoop
          split <;> rfl
    · rfl

theorem be_nextInstr (k : Nat) (c : LensCore) : (nextInstr k c).be = c.be := by
  rw [nextInstr, afterInstr_eq]

theorem xm_nextInstr (k : Nat) (c : LensCore) : (nextInstr k c).xm = c.xm := by
  rw [nextInstr, afterInstr_eq]

theorem granted_lens (n : Fin 8) (s : State) : (granted 0 (6 + n) s).lens = s.lens := by
  rw [granted_core]
  rfl

theorem granted_cells (n : Fin 8) (s : State) : (granted 0 (6 + n) s).store.cells = s.store.cells := by
  rw [granted_core]
  rfl

theorem storePoke_lens (off : Nat) (l : List Byte) (s : State) : (storePoke off l s).lens = s.lens := by
  rw [storePoke, storeWrite_eq]

/-- With no debug access waiting, the end of a locked sequence only frees the Store. -/
theorem releaseLock_of_none {s : State} (h : s.dbg.apWait = none) : releaseLock s = modStore (fun m => { m with lock := none }) s := by
  simp [releaseLock, apRetry, h]

/-- END of a kernel that is not being discarded: its output is noted, and the next entry of the block follows. -/
theorem lEndOp_eq {k : LensRun} {c : LensCore} (hrun : c.run = some k) (hd : c.discard = false) :
    let c1 : LensCore := { c with cycles := c.cycles + 1 }
    let out := match (nth c.slots k.slot).kernel with | some h => readOutput c1 h k.blk | none => []
    let c2 := if k.init then c1 else { c1 with slots := updAt c.slots k.slot (fun q => { q with outq := q.outq ++ [(k.out, out)] }) }
    lEndOp c = .ok (match k.rest with
      | (slot, init) :: rest => enterKernel k.blk k.out slot init rest c2
      | [] => finishBlock k.out c2) := by
  cases c
  cases hrun
  cases hd
  obtain ⟨blk, out, slot, init, rest⟩ := k
  cases init <;> cases rest <;> rfl

/-- REP of a body that may be repeated. -/
theorem lRepOp_eq {reg : Bool} {dc : BitVec 4} {count : BitVec 13} {k : Nat} {c : LensCore}
    (hk : k = if reg then (getD_ c dc).toNat % 8192 else count.toNat) (hmax : k ≤ 4096)
    (hclass : classOf (pmWord c (c.pc + 1)) = 1 ∨ classOf (pmWord c (c.pc + 1)) = 2) :
    lRepOp reg dc count c = .ok (if k = 0 then afterInstr 5 (c.pc + 1) { c with cycles := c.cycles + 1 }
      else { c with rep := some k, pc := c.pc + 1, cycles := c.cycles + 1 }) := by
  have hok : ¬ (4096 < k || (classOf (pmWord c (c.pc + 1)) ≠ 1 && classOf (pmWord c (c.pc + 1)) ≠ 2)) = true := by
    rcases hclass with h | h <;> simp [h] <;> omega
  simp only [lRepOp, ← hk]
  rw [if_neg hok]
  split <;> rfl

theorem getLsbD_setBit_self {w i : Nat} (v : BitVec w) (b : Bool) (h : i < w) : (setBit v i b).getLsbD i = b := by
  cases b
  · simp only [setBit, Bool.false_eq_true, if_false, BitVec.getLsbD_and, BitVec.getLsbD_not, BitVec.getLsbD_ofNat, Nat.testBit_two_pow_self, h,
      decide_true, Bool.and_self, Bool.not_true, Bool.and_false]
  · simp only [setBit, if_true, BitVec.getLsbD_or, BitVec.getLsbD_ofNat, Nat.testBit_two_pow_self, h, decide_true, Bool.and_self, Bool.or_true]

/-- A core halted by BRK. -/
theorem halted_setHalted {k : Nat} (hk : k < 9) (s : State) : (setHalted k true s).dbg.halted.getLsbD k = true := by
  simp [setHalted, getLsbD_setBit_self, hk, -BitVec.getLsbD_eq_getElem]

/-- LKS by the holder of its page: the word is read, and a locked sequence opens on its line. -/
theorem lLks_opens {n : Fin 8} {d a : BitVec 4} {s : State} {v : Word} (hrep : (s.core n).rep = none)
    (halign : (getD_ (s.core n) a).toNat % 4 = 0) (hheld : storeHeld s (6 + n) = false)
    (hload : coreLoad n (getD_ (s.core n) a).toNat s = (granted 0 (6 + n) s, false, v)) :
    lLksOp n d a s = .ok (modLens n (fun c => nextInstr (busCycles s 1) { putD d v c with be := false })
      (modStore (fun m => { m with
        lock := some { master := 6 + n.val, line := (getD_ (s.core n) a).toNat / 32 }, timedOut := m.timedOut.erase (6 + n.val) })
        (granted 0 (6 + n) s))) := by
  refine busOp_done hrep halign hheld (g := putD d v) ?_
  rw [hload]
  rfl

/-- UNS by the holder of its page: the word is written, and a sequence on its line is closed. -/
theorem lUns_closes {n : Fin 8} {d a : BitVec 4} {s : State} (hrep : (s.core n).rep = none) (halign : (getD_ (s.core n) a).toNat % 4 = 0)
    (hheld : storeHeld s (6 + n) = false) (hout : s.store.timedOut.contains (6 + n.val) = false) (hwait : s.dbg.apWait = none)
    {w : State} (hw : w = { s with store := w.store })
    (hstore : coreStore n (getD_ (s.core n) a).toNat (getD_ (s.core n) d) s = (w, false)) :
    ∃ t, lUnsOp n d a s = .ok (modLens n (fun c => nextInstr (busCycles s 1) { id c with be := false }) t) ∧
      t.lens = s.lens ∧ t.store.cells = w.store.cells ∧
      (s.store.lock.any (fun k => k.line = (getD_ (s.core n) a).toNat / 32) = true → t.store.lock = none) := by
  have hrelease : releaseLock w = modStore (fun m => { m with lock := none }) w := releaseLock_of_none (by rw [hw]; exact hwait)
  have hlens : w.lens = s.lens := (congrArg State.lens hw :)
  cases hl : s.store.lock with
  | none =>
    refine ⟨w, busOp_done hrep halign hheld (g := id) ?_, hlens, rfl, fun h => by simp at h⟩
    simp only [hout, Bool.false_eq_true, if_false, hstore, hl]
  | some k =>
    by_cases hline : k.line = (getD_ (s.core n) a).toNat / 32
    · refine ⟨releaseLock w, busOp_done hrep halign hheld (g := id) ?_, ?_⟩
      · simp only [hout, Bool.false_eq_true, if_false, hstore, hl, hline, if_true]
      · rw [hrelease]
        exact ⟨hlens, rfl, fun _ => rfl⟩
    · refine ⟨w, busOp_done hrep halign hheld (g := id) ?_, hlens, rfl, fun h => absurd (by simpa using h) hline⟩
      simp only [hout, Bool.false_eq_true, if_false, hstore, hl, hline]

/-- LDB by the holder of its page: the beats are read into XM, and the pointer moves on. -/
theorem lLdb_loads {n : Fin 8} {p : BitVec 3} {a n1 : BitVec 4} {s : State} (hrep : (s.core n).rep = none)
    (hheld : storeHeld s (6 + n) = false) (hcopy : noCopy s = true) (hburst : burstOk (getD_ (s.core n) a).toNat (n1.toNat + 1) = true)
    (hown : ownerOf s 5 (pageOf (getD_ (s.core n) a).toNat) = ownerOf s 4 n)
    (hlocal : (nth (s.core n).p p.toNat).toNat + 8 * (n1.toNat + 1) ≤ localWords) :
    lLdbOp n p a n1 s = .ok (modLens n (fun c' => nextInstr (busCycles s (n1.toNat + 1)) { { c' with
      xm := localPoke c'.xm (nth (s.core n).p p.toNat).toNat ((List.range (8 * (n1.toNat + 1))).map fun i =>
        BitVec.ofNat 32 (peekLe (storeBytes s (getD_ (s.core n) a).toNat (32 * (n1.toNat + 1))) (4 * i) 4))
      p := updAt c'.p p.toNat (fun q => q + BitVec.ofNat 16 (8 * (n1.toNat + 1))) } with be := false }) (granted 0 (6 + n) s)) := by
  unfold lLdbOp
  refine busOp_done hrep (Nat.mod_one _) hheld (g := fun c' => { c' with
    xm := localPoke c'.xm (nth (s.core n).p p.toNat).toNat ((List.range (8 * (n1.toNat + 1))).map fun i =>
      BitVec.ofNat 32 (peekLe (storeBytes s (getD_ (s.core n) a).toNat (32 * (n1.toNat + 1))) (4 * i) 4))
    p := updAt c'.p p.toNat (fun q => q + BitVec.ofNat 16 (8 * (n1.toNat + 1))) }) ?_
  rw [if_neg (not_lt.mpr hlocal), if_pos hburst, granted_core, storeReadAs_owned (by exact hcopy) (by exact hown)]
  rfl

/-- STB by the holder of its page: the beats are written, and the pointer moves on. -/
theorem lStb_stores {n : Fin 8} {p : BitVec 3} {a n1 : BitVec 4} {s : State} (hrep : (s.core n).rep = none)
    (hheld : storeHeld s (6 + n) = false) (hcopy : noCopy s = true) (hburst : burstOk (getD_ (s.core n) a).toNat (n1.toNat + 1) = true)
    (hown : ownerOf s 5 (pageOf (getD_ (s.core n) a).toNat) = ownerOf s 4 n)
    (hlocal : (nth (s.core n).p p.toNat).toNat + 8 * (n1.toNat + 1) ≤ localWords) :
    lStbOp n p a n1 s = .ok (modLens n (fun c' => nextInstr (busCycles s (n1.toNat + 1)) { { c' with
        p := updAt c'.p p.toNat (fun q => q + BitVec.ofNat 16 (8 * (n1.toNat + 1))) } with be := false })
      (granted 0 (6 + n) (storePoke (getD_ (s.core n) a).toNat ((List.range (8 * (n1.toNat + 1))).flatMap fun i =>
        leBits 4 (localGet (s.core n).xm ((nth (s.core n).p p.toNat).toNat + i))) s))) := by
  unfold lStbOp
  refine busOp_done hrep (Nat.mod_one _) hheld (g := fun c' => { c' with
    p := updAt c'.p p.toNat (fun q => q + BitVec.ofNat 16 (8 * (n1.toNat + 1))) }) ?_
  rw [if_neg (not_lt.mpr hlocal)]
  dsimp only
  rw [if_pos hburst, granted_core, storeWriteAs_owned (by exact hcopy) (by exact hown),
    storeWrite_rrBulk _ _ (fun rr => updAt rr 0 fun _ => 6 + n.val + 1)]
  rw [granted_core]
  rfl

/-- Settles O45. -/
theorem lensControlAndTransfers : Obligations.LensControlAndTransfers := by
  intro n s hrep c turns
  refine ⟨turns_of_op hrep rfl rfl (aborting_nextInstr ..), fun k hrun hdiscard => ?_, fun cc t => ?_, fun t hlen => ?_, fun k l hcalls hready => ?_,
    fun rot reg dc count e k hk h0 hclass hlen => loop_enters hrep hk h0 hclass hlen, fun rot reg dc count e h0 hclass => ?_,
    fun reg dc count k hk hmax hclass => ?_, fun hready => ⟨fun hscope => ?_, fun hscope => ?_⟩, fun r imm c1 hsel => ?_, fun r1 r2 c1 hsel => ?_,
    fun d a addr ha halign haddr hheld hcopy hown => ?_, fun p a n1 addr ha hburst hheld hcopy hown hlocal => ?_⟩
  · intro c1 out c2
    have hend := lEndOp_eq hrun hdiscard
    have hc2 : c2.aborting = c.aborting ∧ c2.discard = false := by
      simp only [c2]
      split <;> exact ⟨rfl, hdiscard⟩
    refine ⟨fun hrest => ?_, fun slot init more hrest => ?_⟩ <;> simp only [hrest] at hend
    · exact turns_of_op hrep rfl hend ((aborting_finishBlock _ hc2.2).trans hc2.1)
    · exact turns_of_op hrep rfl hend ((aborting_enterKernel ..).trans hc2.1)
  · refine turns_of_op hrep rfl rfl ?_
    split <;> simp [c]
  · exact turns_of_op hrep rfl (if_neg (not_le.mpr hlen)) rfl
  · refine lensTurn_onCoreFree hready ((runOne_of_none hrep).trans ?_) rfl
    simp only [lRetOp, show (s.core n).calls = k :: l from hcalls]
    rfl
  · refine turns_of_op hrep rfl ?_ (aborting_afterInstr ..)
    simp only [lLoopOp, show classOf (pmWord (s.core n) e.toNat) ≠ 0 from hclass, if_false]
    exact if_pos h0
  · refine turns_of_op hrep rfl (lRepOp_eq hk hmax hclass) ?_
    split
    · exact aborting_afterInstr ..
    · rfl
  · refine lensTurn_ready hready (op := lBrkOp n) ?_ ?_ (t := modLens n (fun _ => nextInstr 1 c) s)
    · simp only [lBrkOp, onCore, runOne_of_none hrep, lNopOp, hscope]
      rfl
    · rw [core_modLens_self _ (core_lt_of_ready hready), aborting_nextInstr]
      exact aborting_of_ready hready
  · refine ⟨setHalted (1 + n) true (modLens n (fun _ => nextInstr 1 c) s), lensTurn_ready hready (op := lBrkOp n) ?_ ?_, halted_setHalted (by omega) _⟩
    · simp only [lBrkOp, onCore, runOne_of_none hrep, lNopOp, hscope]
      rfl
    · rw [show (setHalted (1 + n) true (modLens n (fun _ => nextInstr 1 c) s)).core n = (modLens n (fun _ => nextInstr 1 c) s).core n by
        simp [setHalted, State.core], core_modLens_self _ (core_lt_of_ready hready), aborting_nextInstr]
      exact aborting_of_ready hready
  · refine turns_of_op hrep rfl (f := lLdiOp r imm) ?_ ((aborting_nextInstr ..).trans (aborting_writeSel hsel))
    rw [lLdiOp, hsel]
    rfl
  · refine turns_of_op hrep rfl (f := lMvrOp r1 r2) ?_ ((aborting_nextInstr ..).trans (aborting_writeSel hsel))
    rw [lMvrOp, hsel]
    rfl
  · subst ha
    have hload := coreLoad_owned hcopy hown haddr
    have hstore := coreStore_owned hcopy hown haddr (getD_ c d)
    have hgranted := granted_lens n s
    have hpoked := (granted_lens n (storePoke (getD_ c a).toNat (leBits 4 (getD_ c d)) s)).trans (storePoke_lens ..)
    intro step
    refine ⟨fun hready => ?_, fun hready => ?_, fun hready => ?_, fun hready hout hwait => ?_⟩
    · exact (bus_turns rfl hready (op := lLdsOp n d a) (busOp_done hrep halign hheld (by rw [hload])) hgranted rfl).1
    · exact (bus_turns rfl hready (op := lStsOp n d a) (busOp_done hrep halign hheld (by rw [hstore])) hpoked rfl).1
    · obtain ⟨hexec, hcore⟩ := bus_turns rfl hready (op := lLksOp n d a) (lLks_opens hrep halign hheld hload) hgranted rfl
      exact ⟨_, hexec, rfl, granted_cells n s, hcore⟩
    · have hframe := storeWrite_eq (getD_ c a).toNat ((leBits 4 (getD_ c d)).map fun b => (b, true)) s
      have hw : granted 0 (6 + n) (storePoke (getD_ c a).toNat (leBits 4 (getD_ c d)) s) =
          { s with store := (granted 0 (6 + n) (storePoke (getD_ c a).toNat (leBits 4 (getD_ c d)) s)).store } := by
        rw [granted_core, storePoke, hframe]
        rfl
      obtain ⟨t, hop, hlens, hcells, hclose⟩ := lUns_closes hrep halign hheld hout hwait hw hstore
      obtain ⟨hexec, hcore⟩ := bus_turns rfl hready (op := lUnsOp n d a) (g := id) hop hlens rfl
      exact ⟨_, hexec, hcells.trans (granted_cells n _), hclose, hcore⟩
  · subst ha
    refine ⟨fun hready => ?_, fun hready => ?_⟩
    · obtain ⟨hexec, hcore⟩ := bus_turns rfl hready (lLdb_loads hrep hheld hcopy hburst hown hlocal) (granted_lens n s) rfl
      refine ⟨_, hexec, ?_, ?_, granted_cells n s⟩ <;> rw [hcore]
      · rw [be_nextInstr]
      · rw [xm_nextInstr]
    · obtain ⟨hexec, hcore⟩ := bus_turns rfl hready (lStb_stores hrep hheld hcopy hburst hown hlocal)
        ((granted_lens n _).trans (storePoke_lens ..)) rfl
      refine ⟨_, hexec, ?_, ?_, granted_cells n _⟩ <;> rw [hcore]
      · rw [be_nextInstr]
      · rw [xm_nextInstr]

end Sys2Proof.Machine
end

section
/-! What a Lens instruction leaves alone (R132, R313). -/

namespace Sys2Proof.Machine

theorem noCopy_congr {s t : State} (h : t.tenants.map copyOf = s.tenants.map copyOf) : noCopy t = noCopy s := by
  have hall := congrArg (List.all · Option.isNone) h
  simp only [List.all_map] at hall
  exact hall

/-! From s core n alone goes on to t: its events, its answers and the bytes of the Store apart, all is as before. -/
structure CoreFrame (n : Nat) (s t : State) : Prop where
  core : ∀ m, m ≠ n → t.core m = s.core m
  last : t.last = s.last
  owners : t.owners = s.owners
  owner : t.store.owner = s.store.owner
  keys : t.store.keys = s.store.keys
  pwr : t.pwr = s.pwr
  pend : ∀ k, (t.tenant k).pend = (s.tenant k).pend
  prism : t.prism = s.prism
  audio : t.audio = s.audio
  eth : t.eth = s.eth
  plink : t.plink = s.plink
  trig : t.trig = s.trig
  apWait : s.dbg.apWait = none → t.dbg.apWait = none
  copies : noCopy s = true → noCopy t = true

/-- When no debug access waits and no PAGE_COPY runs, the bytes of the pages that the holder of core n does not hold stay. -/
def KeepsBytes (n : Nat) (s t : State) : Prop :=
  s.dbg.apWait = none → noCopy s = true → ∀ key off, off < 2 ^ 24 → ownerOf s 5 (pageOf off) ≠ ownerOf s 4 n →
    assoc t.store.cells (cellKey key off) = assoc s.store.cells (cellKey key off)

/-- Core n alone goes on, within the pages that its holder holds. -/
structure CoreOnly (n : Nat) (s t : State) : Prop where
  frame : CoreFrame n s t
  bytes : KeepsBytes n s t

namespace CoreFrame

variable {n : Nat} {s t u : State}

theorem refl (n : Nat) (s : State) : CoreFrame n s s :=
  ⟨fun _ _ => rfl, rfl, rfl, rfl, rfl, rfl, fun _ => rfl, rfl, rfl, rfl, rfl, rfl, id, id⟩

theorem ownerOf_eq (h : CoreFrame n s t) (ty u : Nat) : ownerOf t ty u = ownerOf s ty u := by
  simp [ownerOf, h.owner, h.owners]

theorem trans (h : CoreFrame n s t) (h' : CoreFrame n t u) : CoreFrame n s u where
  core m hm := (h'.core m hm).trans (h.core m hm)
  last := h'.last.trans h.last
  owners := h'.owners.trans h.owners
  owner := h'.owner.trans h.owner
  keys := h'.keys.trans h.keys
  pwr := h'.pwr.trans h.pwr
  pend k := (h'.pend k).trans (h.pend k)
  prism := h'.prism.trans h.prism
  audio := h'.audio.trans h.audio
  eth := h'.eth.trans h.eth
  plink := h'.plink.trans h.plink
  trig := h'.trig.trans h.trig
  apWait hw := h'.apWait (h.apWait hw)
  copies hc := h'.copies (h.copies hc)

end CoreFrame

namespace CoreOnly

variable {n : Nat} {s t u : State}

theorem of_cells (h : CoreFrame n s t) (hc : t.store.cells = s.store.cells) : CoreOnly n s t :=
  ⟨h, fun _ _ _ _ _ _ => by rw [hc]⟩

theorem refl (n : Nat) (s : State) : CoreOnly n s s := of_cells (.refl n s) rfl

theorem trans (h : CoreOnly n s t) (h' : CoreOnly n t u) : CoreOnly n s u where
  frame := h.frame.trans h'.frame
  bytes hw hc key off hoff hown := (h'.bytes (h.frame.apWait hw) (h.frame.copies hc) key off hoff
    (by rwa [h.frame.ownerOf_eq, h.frame.ownerOf_eq])).trans (h.bytes hw hc key off hoff hown)

/-- A change of the events, the free values, what is sent, the debug flags and the Store's arbiters. -/
theorem of_rest (n : Nat) (h : t = { s with
    free := t.free, out := t.out, evrec := t.evrec, sys := t.sys
    dbg := { t.dbg with apWait := s.dbg.apWait }
    store := { t.store with cells := s.store.cells, owner := s.store.owner, keys := s.store.keys } }) : CoreOnly n s t := by
  rw [h]
  exact of_cells ⟨fun _ _ => rfl, rfl, rfl, rfl, rfl, rfl, fun _ => rfl, rfl, rfl, rfl, rfl, rfl, id, id⟩ rfl

theorem record (n c o : Nat) (d : List (Nat × Nat)) (s : State) : CoreOnly n s (Machine.record c o d s) :=
  of_rest n (by rw [record_eq])

theorem modLens (n : Nat) (f : LensCore → LensCore) (s : State) : CoreOnly n s (Machine.modLens n f s) :=
  of_cells { CoreFrame.refl n s with core := fun _ hm => core_modLens_other f s hm } rfl

theorem granted (n target master : Nat) (s : State) : CoreOnly n s (Machine.granted target master s) := by
  unfold Machine.granted
  split
  · exact refl n s
  · split <;> exact of_rest n rfl

theorem illegalAccess (n master target addr tag : Nat) (s : State) : CoreOnly n s (Machine.illegalAccess master target addr tag s) := by
  unfold Machine.illegalAccess
  split
  · exact record ..
  · exact (of_rest n (t := { s with free := s.free + 1 }) rfl).trans (record ..)

theorem setHalted (n k : Nat) (on : Bool) (s : State) : CoreOnly n s (Machine.setHalted k on s) :=
  (of_rest n rfl).trans (record ..)

theorem msixScan (n k : Nat) (s : State) : CoreOnly n s (Machine.msixScan k s) := by
  have htenants := (repliesOnly_msixScan k s).tenants
  have hcopy : ∀ m, copyOf (sansEyelet m) = copyOf m := fun _ => rfl
  refine of_cells { CoreFrame.refl n s with
    core := fun _ _ => by simp [State.core], last := by simp, owners := by simp, owner := by simp, keys := by simp, pwr := by simp
    pend := fun k => (congrArg Tenant.pend (nth_of_map_eq htenants k :) :)
    prism := by simp, audio := by simp, eth := by simp, plink := by simp, trig := by simp, apWait := by simp
    copies := ?_ } (by simp)
  have hmap := congrArg (List.map copyOf) htenants
  simp only [List.map_map, Function.comp_def, hcopy] at hmap
  exact fun hs => (noCopy_congr hmap).trans hs

theorem countMiss (n : Nat) (s : State) : CoreOnly n s (Machine.countMiss n s) := by
  unfold Machine.countMiss
  dsimp only
  split
  · exact (modLens ..).trans <| (record ..).trans <| (modLens ..).trans (record ..)
  · exact (modLens ..).trans (record ..)

theorem kernelFault (n : Nat) (e : LensCause) (s : State) : CoreOnly n s (Machine.kernelFault n e s) := by
  unfold Machine.kernelFault
  dsimp only
  split
  · exact refl n s
  · exact (modLens ..).trans <| (countMiss ..).trans <| (record ..).trans (modLens ..)

end CoreOnly

/-! The Store as a master reaches it. -/

/-- A state without the bytes of the Store and without the class 2 commands, whose page copies may go on. -/
def sansBytes (s : State) : State :=
  { s with
    free := 0, store := { s.store with cells := [], writes := 0 }
    tenants := s.tenants.map fun n => { n with class2 := [] } }

theorem sansBytes_storeWrite (off : Nat) (l : List (Byte × Bool)) (s : State) : sansBytes (storeWrite off l s) = sansBytes s := by
  rw [storeWrite_eq]
  rfl

theorem sansBytes_advanceCopy (s : State) (t : Nat) : sansBytes (advanceCopy t s) = sansBytes s := by
  unfold advanceCopy
  split
  · split
    · rfl
    · simp only [drawFree, copyTo]
      split
      · have hclass2 : ∀ (f : Tenant → Tenant) (u : State), (∀ n, { f n with class2 := [] } = { n with class2 := [] }) →
            sansBytes (modTenant t f u) = sansBytes u := fun f u hf => by
          unfold sansBytes modTenant
          rw [map_updAt _ _ _ _ hf]
        rw [hclass2 _ _ (fun n => by rfl), storePoke, sansBytes_storeWrite]
        rfl
      · rfl
  · rfl

theorem sansBytes_advanceCopies (s : State) : sansBytes (advanceCopies s) = sansBytes s := by
  unfold advanceCopies
  split
  · exact foldl_keeps sansBytes (fun s t => sansBytes_advanceCopy s t) _ s
  · rfl

/-- What is left beside the bytes tells the rest. -/
theorem coreFrame_of_sansBytes {n : Nat} {s t : State} (h : sansBytes t = sansBytes s) (hc : noCopy s = true → noCopy t = true) :
    CoreFrame n s t where
  core m _ := (congrArg (fun x => State.core x m) h :)
  last := (congrArg State.last h :)
  owners := (congrArg State.owners h :)
  owner := (congrArg (fun x => x.store.owner) h :)
  keys := (congrArg (fun x => x.store.keys) h :)
  pwr := (congrArg State.pwr h :)
  pend k := (congrArg Tenant.pend (nth_of_map_eq (congrArg State.tenants h :) k) :)
  prism := (congrArg State.prism h :)
  audio := (congrArg State.audio h :)
  eth := (congrArg State.eth h :)
  plink := (congrArg State.plink h :)
  trig := (congrArg State.trig h :)
  apWait hw := (congrArg (fun x => x.dbg.apWait) h :).trans hw
  copies := hc

/-- The page copies of the firmware go on, or none runs. -/
theorem coreOnly_advanceCopies (n : Nat) (s : State) : CoreOnly n s (advanceCopies s) := by
  by_cases hc : noCopy s = true
  · rw [advanceCopies_of_noCopy hc]
    exact .refl n s
  · exact ⟨coreFrame_of_sansBytes (sansBytes_advanceCopies s) fun h => absurd h hc, fun _ h => absurd h hc⟩

theorem coreOnly_storeReadAs (n master tag off k : Nat) (s : State) : CoreOnly n s (storeReadAs master tag off k s).1 := by
  unfold storeReadAs
  dsimp only
  split
  · exact coreOnly_advanceCopies n s
  · exact (coreOnly_advanceCopies n s).trans (.record ..)

theorem coreFrame_storeWrite (n off : Nat) (l : List (Byte × Bool)) (s : State) : CoreFrame n s (storeWrite off l s) :=
  coreFrame_of_sansBytes (sansBytes_storeWrite off l s) fun hs => by
    rw [storeWrite_eq]
    exact hs

theorem coreFrame_storeWriteAs (n master tag off : Nat) (l : List (Byte × Bool)) (s : State) :
    CoreFrame n s (storeWriteAs master tag off l s).1 := by
  unfold storeWriteAs
  dsimp only
  split
  · exact (coreOnly_advanceCopies n s).frame.trans (coreFrame_storeWrite ..)
  · exact ((coreOnly_advanceCopies n s).trans (.record ..)).frame

theorem cellKey_div {y : Nat} (key : Nat) (h : y < 2 ^ 24) : cellKey key y / 2 ^ 24 = key := by
  unfold cellKey
  omega

theorem cellKey_mod {y : Nat} (key : Nat) (h : y < 2 ^ 24) : cellKey key y % 2 ^ 24 = y := by
  unfold cellKey
  omega

theorem cellKey_inj {key k off y : Nat} (hoff : off < 2 ^ 24) (hy : y < 2 ^ 24) : cellKey k y = cellKey key off ↔ k = key ∧ y = off := by
  unfold cellKey
  omega

/-- What a byte written leaves under a key: itself, nothing of its block under another key, and every other cell. -/
theorem assoc_putCell {key off k y : Nat} {b : Byte} {l : List (Nat × Byte)} (hoff : off < 2 ^ 24) (hy : y < 2 ^ 24) :
    assoc (putCell key off b l) (cellKey k y) =
      if k = key ∧ y = off then (if stagingPage (pageOf off) && b = 0 then none else some b)
      else if k ≠ key ∧ y / 16 = off / 16 then none else assoc l (cellKey k y) := by
  have hrest : assoc (l.filter fun c => !sameBlock key off c) (cellKey k y) =
      if k ≠ key ∧ y / 16 = off / 16 then none else assoc l (cellKey k y) := by
    have hf := assoc_filter (fun x => !(x / 2 ^ 24 ≠ key && x % 2 ^ 24 / 16 = off / 16)) l (cellKey k y)
    rw [cellKey_div k hy, cellKey_mod k hy] at hf
    refine Eq.trans hf ?_
    by_cases h : k ≠ key ∧ y / 16 = off / 16
    · rw [if_pos h]
      exact if_neg (by simp [h.1, h.2])
    · rw [if_neg h]
      rw [not_and_or] at h
      exact if_pos (by rcases h with h | h <;> simp [h])
  unfold putCell
  dsimp only
  by_cases hat : k = key ∧ y = off
  · obtain ⟨rfl, rfl⟩ := hat
    refine Eq.trans ?_ (if_pos ⟨rfl, rfl⟩).symm
    split
    · rw [assoc_assocDel, if_pos rfl]
    · rw [assoc_assocSet_same]
  · have hne : cellKey k y ≠ cellKey key off := fun h => hat ((cellKey_inj hoff hy).mp h)
    rw [if_neg hat, ← hrest]
    split
    · rw [assoc_assocDel, if_neg hne]
    · rw [assoc_assocSet_other _ _ _ _ hne.symm]

/-- A byte written leaves the cells of every other page. -/
theorem assoc_storePut_otherPage {off k y : Nat} {b : Byte} {s : State} (hoff : off < 2 ^ 24) (hy : y < 2 ^ 24) (h : pageOf off ≠ pageOf y) :
    assoc (storePut off b s).store.cells (cellKey k y) = assoc s.store.cells (cellKey k y) := by
  have hblock : y / 16 ≠ off / 16 := by
    intro hb
    simp only [pageOf, pageSize] at h
    omega
  unfold storePut
  split
  · rw [modStore_store, assoc_putCell hoff hy, if_neg (fun hat => h (by rw [hat.2])), if_neg (fun hat => hblock hat.2)]
  · rfl

/-- Bytes written within a page leave the cells of every other page. -/
theorem assoc_storeWrite_otherPage {off k y : Nat} {l : List (Byte × Bool)} {s : State} (hend : off % 65536 + l.length ≤ 65536)
    (hoff : off < 2 ^ 24) (hy : y < 2 ^ 24) (h : pageOf off ≠ pageOf y) :
    assoc (storeWrite off l s).store.cells (cellKey k y) = assoc s.store.cells (cellKey k y) := by
  induction l generalizing off s with
  | nil => rfl
  | cons p l ih =>
    obtain ⟨b, en⟩ := p
    rw [List.length_cons] at hend
    have hput : assoc (if en then storePut off b s else s).store.cells (cellKey k y) = assoc s.store.cells (cellKey k y) := by
      split
      · exact assoc_storePut_otherPage hoff hy h
      · rfl
    cases l with
    | nil => exact hput
    | cons q l =>
      rw [List.length_cons] at hend
      refine (ih ?_ ?_ ?_).trans hput
      · rw [List.length_cons]
        omega
      · omega
      · simp only [pageOf, pageSize] at h ⊢
        omega

/-- The core's own writes stay within the pages that its holder holds. -/
theorem coreOnly_storeWriteAs {n off : Nat} {l : List (Byte × Bool)} {s : State} (master : Nat) (hend : off % 65536 + l.length ≤ 65536)
    (hoff : off < 2 ^ 24) : CoreOnly n s (storeWriteAs master (ownerOf s 4 n) off l s).1 := by
  refine ⟨coreFrame_storeWriteAs .., fun _ hc key y hy hown => ?_⟩
  unfold storeWriteAs
  rw [advanceCopies_of_noCopy hc]
  dsimp only
  split
  · next htag =>
    refine assoc_storeWrite_otherPage hend hoff hy fun hpage => hown ?_
    rw [← hpage]
    simpa [tagOk, ownerOf] using htag
  · exact congrArg (assoc · (cellKey key y)) (by simp [refuseTag])

/-! The instructions. -/

theorem coreOnly_coreLoad (n a : Nat) (s : State) : CoreOnly n s (coreLoad n a s).1 := by
  unfold coreLoad
  split
  · exact .illegalAccess ..
  · exact (CoreOnly.granted ..).trans (coreOnly_storeReadAs ..)

theorem ownerOf_granted (target master ty u : Nat) (s : State) : ownerOf (granted target master s) ty u = ownerOf s ty u :=
  (CoreOnly.granted 0 target master s).frame.ownerOf_eq ty u

theorem coreOnly_coreStore {n a : Nat} (v : Word) (s : State) (halign : a % 4 = 0) : CoreOnly n s (coreStore n a v s).1 := by
  unfold coreStore
  split
  · exact .illegalAccess ..
  · next hin =>
    rw [← ownerOf_granted 0 (6 + n) 4 n s]
    refine (CoreOnly.granted ..).trans (coreOnly_storeWriteAs _ ?_ (by simpa [inStore] using hin))
    simp only [List.length_map, length_leBits]
    omega

theorem coreFrame_debugStore (n addr : Nat) (w : Option Word) (s : State) : CoreFrame n s (debugStore addr w s) := by
  have hanswer : ∀ (error : Bool) (v : Option Word) (u : State), CoreFrame n u (apAnswer error v u) := fun error v u =>
    (CoreOnly.of_rest n rfl).frame
  unfold debugStore
  split
  · exact .refl ..
  · split
    · exact (coreOnly_storeReadAs ..).frame.trans (hanswer ..)
    · exact (coreFrame_storeWriteAs ..).trans (hanswer ..)

/-- The end of a locked sequence lets a waiting debug access go on. -/
theorem coreOnly_releaseLock (n : Nat) (s : State) : CoreOnly n s (releaseLock s) := by
  have hunlock : CoreOnly n s (modStore (fun m => { m with lock := none }) s) := .of_rest n rfl
  cases hwait : s.dbg.apWait with
  | none =>
    rw [releaseLock_of_none hwait]
    exact hunlock
  | some x =>
    refine ⟨hunlock.frame.trans ?_, fun h => by simp [hwait] at h⟩
    unfold releaseLock apRetry
    split
    · exact .refl ..
    · split
      · exact .refl ..
      · next a w _ _ =>
        refine CoreFrame.trans ?_ (coreFrame_debugStore n a w _)
        exact { CoreFrame.refl n _ with apWait := fun _ => rfl }

theorem coreOnly_busOp {n : Nat} {a : BitVec 4} {mask beats : Nat}
    {f : Nat → State → Except LensCause (State × Bool × (LensCore → LensCore))} {s t : State}
    (hf : ∀ r, (getD_ (s.core n) a).toNat % mask = 0 → f (getD_ (s.core n) a).toNat s = .ok r → CoreOnly n s r.1)
    (h : busOp n a mask beats f s = .ok t) : CoreOnly n s t := by
  unfold busOp at h
  dsimp only at h
  split at h
  · cases h
  split at h
  · cases h
  next halign =>
    split at h
    · cases h
      exact .refl ..
    · split at h
      · cases h
      · next u err g hr =>
        cases h
        exact (hf (u, err, g) (by simpa using halign) hr).trans (.modLens ..)

theorem coreOnly_onCore {n : Nat} {f : LensCore → LensRes} {s t : State} (h : onCore n f s = .ok t) : CoreOnly n s t := by
  unfold onCore at h
  cases hf : f (s.core n) with
  | error e => simp [hf, Except.map] at h
  | ok c =>
    simp only [hf, Except.map] at h
    cases h
    exact .modLens ..

theorem coreOnly_onCoreFree {n : Nat} {f : Half → LensCore → LensRes} {s t : State} (h : onCoreFree n f s = .ok t) : CoreOnly n s t :=
  (CoreOnly.of_rest n (t := { s with free := s.free + 1 }) rfl).trans (coreOnly_onCore h)

theorem coreOnly_lBrkOp {n : Nat} {s t : State} (h : lBrkOp n s = .ok t) : CoreOnly n s t := by
  unfold lBrkOp at h
  split at h
  · cases h
  · next u hu =>
    cases h
    split
    · exact (coreOnly_onCore hu).trans (.setHalted ..)
    · exact coreOnly_onCore hu

theorem coreOnly_lLdsOp {n : Nat} {d a : BitVec 4} {s t : State} (h : lLdsOp n d a s = .ok t) : CoreOnly n s t :=
  coreOnly_busOp (fun r _ hr => by cases hr; exact coreOnly_coreLoad ..) h

theorem coreOnly_lStsOp {n : Nat} {d a : BitVec 4} {s t : State} (h : lStsOp n d a s = .ok t) : CoreOnly n s t :=
  coreOnly_busOp (fun r halign hr => by cases hr; exact coreOnly_coreStore _ _ halign) h

theorem coreOnly_lLksOp {n : Nat} {d a : BitVec 4} {s t : State} (h : lLksOp n d a s = .ok t) : CoreOnly n s t := by
  refine coreOnly_busOp (fun r _ hr => ?_) h
  cases hr
  dsimp only
  split
  · exact coreOnly_coreLoad ..
  · exact (coreOnly_coreLoad ..).trans (.of_rest n rfl)

theorem coreOnly_lUnsOp {n : Nat} {d a : BitVec 4} {s t : State} (h : lUnsOp n d a s = .ok t) : CoreOnly n s t := by
  refine coreOnly_busOp (fun r halign hr => ?_) h
  split at hr <;> cases hr
  · exact .of_rest n rfl
  · have hstore := coreOnly_coreStore (n := n) (getD_ (s.core n) d) s halign
    dsimp only
    split
    · split
      · exact hstore.trans (coreOnly_releaseLock ..)
      · exact hstore
    · exact hstore

theorem coreOnly_lLdbOp {n : Nat} {p : BitVec 3} {a n1 : BitVec 4} {s t : State} (h : lLdbOp n p a n1 s = .ok t) : CoreOnly n s t := by
  unfold lLdbOp at h
  refine coreOnly_busOp (fun r _ hr => ?_) h
  dsimp only at hr
  split at hr
  · cases hr
  by_cases hburst : burstOk (getD_ (s.core n) a).toNat (n1.toNat + 1) = true
  · rw [if_pos hburst] at hr
    injection hr with hr
    subst hr
    exact (CoreOnly.granted ..).trans (coreOnly_storeReadAs ..)
  · rw [if_neg hburst] at hr
    injection hr with hr
    subst hr
    exact .illegalAccess ..

theorem coreOnly_lStbOp {n : Nat} {p : BitVec 3} {a n1 : BitVec 4} {s t : State} (h : lStbOp n p a n1 s = .ok t) : CoreOnly n s t := by
  unfold lStbOp at h
  refine coreOnly_busOp (fun r _ hr => ?_) h
  dsimp only at hr
  split at hr
  · cases hr
  by_cases hburst : burstOk (getD_ (s.core n) a).toNat (n1.toNat + 1) = true
  · rw [if_pos hburst, ← ownerOf_granted 0 (6 + n) 4 n s] at hr
    injection hr with hr
    subst hr
    simp only [burstOk, inStore, Bool.and_eq_true, decide_eq_true_eq] at hburst
    obtain ⟨⟨hin, -⟩, hend⟩ := hburst
    refine (CoreOnly.granted ..).trans (coreOnly_storeWriteAs _ ?_ hin)
    simp only [List.length_map, List.length_flatMap, length_leBits, List.map_const', List.sum_replicate, List.length_range, smul_eq_mul]
    omega
  · rw [if_neg hburst] at hr
    injection hr with hr
    subst hr
    exact .illegalAccess ..

/-- The turn of an instruction whose operation stays with its core. -/
theorem coreOnly_lensTurn {n : Fin 8} {i : Instr} {op : State → Except LensCause State} {s t : State}
    (hop : ∀ u, op s = .ok u → CoreOnly n s u) (h : lensTurn n i op s = .next t) : CoreOnly n s t := by
  unfold lensTurn at h
  split at h
  · injection h with h
    subst h
    exact .refl ..
  · injection h with h
    subst h
    refine CoreOnly.trans ?_ (.msixScan ..)
    unfold lensInstr
    dsimp only
    split
    · exact .kernelFault ..
    · split
      · exact .kernelFault ..
      · split
        · exact .refl ..
        · split
          · exact .kernelFault ..
          · next u hu =>
            split
            · exact (hop u hu).trans (.modLens ..)
            · exact hop u hu

/-- Every Lens row stays with its core. -/
theorem coreOnly_exec {i : Instr} {n : Fin 8} {s t : State} (hi : coreOf i = some n) (h : exec i s = .next t) : CoreOnly n s t := by
  cases i <;> cases hi
  case lNop | lEnd | lBr | lCall | lLoop | lRep | lLdi | lMvr => exact coreOnly_lensTurn (fun _ hu => coreOnly_onCore hu) h
  case lBrk => exact coreOnly_lensTurn (fun _ hu => coreOnly_lBrkOp hu) h
  case lLds => exact coreOnly_lensTurn (fun _ hu => coreOnly_lLdsOp hu) h
  case lSts => exact coreOnly_lensTurn (fun _ hu => coreOnly_lStsOp hu) h
  case lLks => exact coreOnly_lensTurn (fun _ hu => coreOnly_lLksOp hu) h
  case lUns => exact coreOnly_lensTurn (fun _ hu => coreOnly_lUnsOp hu) h
  case lLdb => exact coreOnly_lensTurn (fun _ hu => coreOnly_lLdbOp hu) h
  case lStb => exact coreOnly_lensTurn (fun _ hu => coreOnly_lStbOp hu) h
  all_goals exact coreOnly_lensTurn (fun _ hu => coreOnly_onCoreFree hu) h

/-- Settles O46: every operation of a core reaches that core, its grants and the pages of its holder. -/
theorem lensIsolation : Obligations.LensIsolation := by
  intro i n s t hi h
  obtain ⟨hf, hbytes⟩ := coreOnly_exec hi h
  exact ⟨hf.core, hf.last, hf.owners, hf.owner, hf.keys, hf.pwr, hf.pend, hf.prism, hf.audio, hf.eth, hf.plink, hf.trig, hbytes⟩

end Sys2Proof.Machine
end

section
/-! The Store (05): its bytes, its transactions, locked sequences, and class 2 commands that end. -/

namespace Sys2Proof.Machine

/-! A class 2 command that ends (R100, R117). -/

/-- The readback of a class 2 command's unit, as its effect takes it. -/
def doneBytes (ok : Bool) (readback : BitVec 256) : List Byte := le 1 (bit ok) ++ leBits 32 readback

/-- The last command of a tenant's class 2 queue, when it ends well, has its effect and its final reply. -/
theorem endsAs_effect {t : Fin 16} {i : Instr} {m : Meaning} {s : State} (ok : Bool) (rb : BitVec 256) (hm : meaningOf i = some m)
    (h : endsWell t i s = true) : EndsAs t ok rb i s (m.effect (doneBytes ok rb) s).2.1 (m.effect (doneBytes ok rb) s).2.2
      (m.effect (doneBytes ok rb) s).1 := by
  simp only [endsWell, hm, Bool.and_eq_true, Bool.not_eq_true'] at h
  obtain ⟨⟨⟨hqueue, hreq⟩, hhalt⟩, hrun⟩ := h
  split at hqueue
  · next c m' hc hm' =>
    cases hm'
    simp only [Bool.and_eq_true, decide_eq_true_eq, Bool.not_eq_true'] at hqueue
    obtain ⟨⟨hcmd, hdenied⟩, hready⟩ := hqueue
    cases hr : reqOf i with
    | none => simp [hr] at hreq
    | some r =>
      refine ⟨r, hr, ?_⟩
      have hend : endClass2 t (doneBytes ok rb) s = finishClose t (say r i (m.effect (doneBytes ok rb) s).2.1 (m.effect (doneBytes ok rb) s).2.2
          (modTenant t (fun n => { n with class2 := [] }) (m.effect (doneBytes ok rb) s).1)) := by
        simp only [endClass2, hc, hcmd, hr, hm, hdenied, hready, Bool.not_false, Bool.not_true, Bool.and_false, Bool.false_eq_true, if_false]
        rfl
      rw [← hend]
      exact if_neg (by simp [hhalt, hrun])
  · cases hqueue

theorem tenant_of_endsWell {t : Fin 16} {i : Instr} {r : Req} {s : State} (hr : reqOf i = some r) (h : endsWell t i s = true) :
    r.tenant = t := by
  simp only [endsWell, hr, Bool.and_eq_true, decide_eq_true_eq] at h
  exact h.1.1.2

/-! Bytes of the Store (R135, R138). -/

theorem storeWrite_nil (off : Nat) (s : State) : storeWrite off [] s = s := rfl

theorem keyOf_storeWrite (off : Nat) (l : List (Byte × Bool)) (s : State) (page : Nat) :
    keyOf (storeWrite off l s).store page = keyOf s.store page := by
  rw [storeWrite_eq]
  rfl

theorem storePut_of_key {off k : Nat} {b : Byte} {s : State} (h : keyOf s.store (pageOf off) = some k) :
    storePut off b s = modStore (fun m => { m with cells := putCell k off b m.cells, writes := m.writes + 1 }) s := by
  simp only [storePut, h]

theorem storePoke_cons (off : Nat) (b : Byte) (l : List Byte) (s : State) : storePoke off (b :: l) s = storePoke (off + 1) l (storePut off b s) := rfl

/-- What reads a cell of the Store: the byte last listed, or blank. -/
theorem storeByte_of_key {a j : Nat} {s : State} (h : keyOf s.store (pageOf a) = some j) :
    storeByte s a = (assoc s.store.cells (cellKey j a)).getD (blankByte s j a) := by
  simp only [storeByte, h]

theorem pageOf_within {off i n : Nat} (hend : off % pageSize + n ≤ pageSize) (hi : i < n) : pageOf (off + i) = pageOf off := by
  simp only [pageOf, pageSize] at *
  omega

/-- The cells after bytes written under a key: at their offsets the bytes, elsewhere under that key as before. -/
theorem assoc_storePoke {off k y : Nat} {l : List Byte} {s : State}
    (hkey : ∀ i, i < l.length → off + i < 2 ^ 24 ∧ keyOf s.store (pageOf (off + i)) = some k) (hy : y < 2 ^ 24) :
    assoc (storePoke off l s).store.cells (cellKey k y) =
      if off ≤ y ∧ y < off + l.length then (if stagingPage (pageOf y) && nth l (y - off) = 0 then none else some (nth l (y - off)))
      else assoc s.store.cells (cellKey k y) := by
  induction l generalizing off s with
  | nil => exact (if_neg (by simp)).symm
  | cons b l ih =>
    obtain ⟨hoff, hfirst⟩ := hkey 0 (by simp)
    rw [Nat.add_zero] at hoff hfirst
    have hput := assoc_putCell (key := k) (k := k) (b := b) (l := s.store.cells) hoff hy
    simp only [ne_eq, not_true_eq_false, false_and, if_false, true_and] at hput
    rw [storePoke_cons, storePut_of_key hfirst]
    refine (ih fun i hi => ?_).trans ?_
    · have hnext := hkey (i + 1) (by simpa using hi)
      rwa [← Nat.add_assoc, Nat.add_right_comm] at hnext
    · rw [modStore_store, hput, List.length_cons]
      rcases Nat.lt_trichotomy y off with h | h | h
      · rw [if_neg (by omega), if_neg (by omega), if_neg (by omega)]
      · subst h
        rw [if_neg (by omega), if_pos rfl, if_pos (show y ≤ y ∧ y < y + (l.length + 1) by omega), Nat.sub_self]
        rfl
      · obtain ⟨d, rfl⟩ : ∃ d, y = off + 1 + d := ⟨y - (off + 1), by omega⟩
        have hidx : nth (b :: l) (off + 1 + d - off) = nth l (off + 1 + d - (off + 1)) := by
          rw [show off + 1 + d - off = d + 1 by omega, Nat.add_sub_cancel_left]
          rfl
        rw [if_neg (show ¬ off + 1 + d = off by omega), hidx]
        by_cases hd : d < l.length
        · rw [if_pos (show off + 1 ≤ off + 1 + d ∧ off + 1 + d < off + 1 + l.length by omega),
            if_pos (show off ≤ off + 1 + d ∧ off + 1 + d < off + (l.length + 1) by omega)]
        · rw [if_neg (by omega), if_neg (by omega)]

theorem keys_within {off k n : Nat} {s : State} (hoff : off < 2 ^ 24) (hend : off % pageSize + n ≤ pageSize)
    (hkey : keyOf s.store (pageOf off) = some k) (i : Nat) (hi : i < n) : off + i < 2 ^ 24 ∧ keyOf s.store (pageOf (off + i)) = some k := by
  refine ⟨?_, by rw [pageOf_within hend hi, hkey]⟩
  simp only [pageSize] at hend
  omega

/-- Bytes written within a page read back. -/
theorem storeByte_storePoke_at {off k i : Nat} {l : List Byte} {s : State} (hoff : off < 2 ^ 24) (hend : off % pageSize + l.length ≤ pageSize)
    (hkey : keyOf s.store (pageOf off) = some k) (hi : i < l.length) : storeByte (storePoke off l s) (off + i) = nth l i := by
  have hkeys := keys_within hoff hend hkey
  have hkey' : keyOf (storePoke off l s).store (pageOf (off + i)) = some k := by
    rw [storePoke, keyOf_storeWrite, (hkeys i hi).2]
  rw [storeByte_of_key hkey', assoc_storePoke hkeys (hkeys i hi).1, if_pos (by omega), Nat.add_sub_cancel_left]
  by_cases hblank : stagingPage (pageOf (off + i)) = true ∧ nth l i = 0
  · rw [if_pos (by simpa using hblank)]
    simp [blankByte, hblank.1, hblank.2]
  · rw [if_neg (by simpa using hblank)]
    rfl

/-- A listed byte outside of what is written reads as before. -/
theorem storeByte_storePoke_outside {off k a j : Nat} {l : List Byte} {s : State} (hoff : off < 2 ^ 24)
    (hend : off % pageSize + l.length ≤ pageSize) (hkey : keyOf s.store (pageOf off) = some k) (ha : a < 2 ^ 24)
    (hout : a < off ∨ off + l.length ≤ a) (hj : keyOf s.store (pageOf a) = some j) (hlisted : (assoc s.store.cells (cellKey j a)).isSome = true) :
    storeByte (storePoke off l s) a = storeByte s a := by
  have hj' : keyOf (storePoke off l s).store (pageOf a) = some j := by rw [storePoke, keyOf_storeWrite, hj]
  have hcell : assoc (storePoke off l s).store.cells (cellKey j a) = assoc s.store.cells (cellKey j a) := by
    by_cases hpage : pageOf off = pageOf a
    · have hjk : k = j := Option.some.inj (hkey.symm.trans ((congrArg (keyOf s.store) hpage).trans hj))
      subst hjk
      rw [assoc_storePoke (keys_within hoff hend hkey) ha, if_neg (by omega)]
    · exact assoc_storeWrite_otherPage (by simpa [pageSize] using hend) hoff ha hpage
  obtain ⟨b, hb⟩ := Option.isSome_iff_exists.mp hlisted
  rw [storeByte_of_key hj', storeByte_of_key hj, hcell, hb]
  rfl

theorem writes_storePoke (off : Nat) (l : List Byte) (s : State) : (storePoke off l s).store.writes = s.store.writes + l.length := by
  induction l generalizing off s with
  | nil => rfl
  | cons b l ih =>
    rw [storePoke_cons, ih, List.length_cons]
    have hput : (storePut off b s).store.writes = s.store.writes + 1 := by
      unfold storePut
      split <;> rfl
    omega

theorem storePoke_eq (off : Nat) (l : List Byte) (s : State) : storePoke off l s =
    { s with store := { s.store with cells := (storePoke off l s).store.cells, writes := s.store.writes + l.length } } := by
  rw [← writes_storePoke off l s]
  exact storeWrite_eq ..

/-- A page copy leaves in its page the bytes it read. -/
theorem storeByte_copyTo {t src dst line upTo k i : Nat} {s : State} (hcopy : copyOf (s.tenant t) = some (src, dst, line))
    (hup : upTo ≤ 1024) (hdst : dst < 256) (hkey : keyOf s.store dst = some k) (hi : i < 64 * (upTo - line)) :
    storeByte (copyTo t upTo s) (dst * pageSize + 64 * line + i) = storeByte s (src * pageSize + 64 * line + i) := by
  have hpage : pageOf (dst * pageSize + 64 * line) = dst := by
    simp only [pageOf, pageSize]
    omega
  have hlen : (storeBytes s (src * pageSize + 64 * line) (64 * (upTo - line))).length = 64 * (upTo - line) := length_storeBytes ..
  simp only [copyTo, hcopy]
  refine (storeByte_storePoke_at (k := k) ?_ ?_ ?_ (by rwa [hlen])).trans ?_
  · simp only [pageSize]
    omega
  · rw [hlen]
    simp only [pageSize]
    omega
  · rw [hpage, hkey]
  · simp [storeBytes, nth, hi]

/-! Transactions (R132) and locked sequences (R127, R128). -/

/-- A tag is judged by who holds the page. -/
theorem tagOk_granted (target master tag off : Nat) (s : State) : tagOk (granted target master s) tag off = tagOk s tag off := by
  unfold tagOk
  rw [(CoreOnly.granted 0 target master s).frame.owner]

theorem matrixTag_granted (target master : Nat) (q : MatrixReq) (s : State) : matrixTag (granted target master s) q = matrixTag s q := by
  have hdbg : (granted target master s).dbg = s.dbg := by
    unfold granted
    split
    · rfl
    · split <;> rfl
  simp only [matrixTag, hdbg, ownerOf_granted]

/-- The round finds the one request there is. -/
theorem nextRound_singleton (ptr : Nat) (q : MatrixReq) : nextRound ptr [q] = some q := by
  have hfind : ∀ k, List.find? (fun x : MatrixReq => x.master.val = (ptr + k) % 16) [q] = if q.master.val = (ptr + k) % 16 then some q else none :=
    fun k => by by_cases h : q.master.val = (ptr + k) % 16 <;> simp [h]
  unfold nextRound
  simp only [hfind]
  cases hs : (List.range 16).findSome? fun k => if q.master.val = (ptr + k) % 16 then some q else none with
  | none =>
    have hnone := List.findSome?_eq_none_iff.mp hs ((q.master.val + 16 - ptr % 16) % 16) (List.mem_range.mpr (Nat.mod_lt _ (by decide)))
    have hat : q.master.val = (ptr + (q.master.val + 16 - ptr % 16) % 16) % 16 := by omega
    simp [← hat] at hnone
  | some x =>
    obtain ⟨k, -, hk⟩ := List.exists_of_findSome?_eq_some hs
    split at hk
    · exact hk ▸ rfl
    · cases hk

theorem nextRound_filter_singleton (ptr : Nat) (q : MatrixReq) (p : MatrixReq → Bool) :
    nextRound ptr ([q].filter p) = if p q then some q else none := by
  cases hp : p q
  · rw [List.filter_cons_of_neg (by simp [hp])]
    simp [nextRound]
  · rw [List.filter_cons_of_pos hp]
    exact nextRound_singleton ptr q

/-- One request for a target that nobody keeps from it is granted. -/
theorem arbiter_singleton {q : MatrixReq} {s : State} {t : Nat} (ht : q.target.val = t) (hwait : mustWait s q = false) :
    arbiter s t [q] = some q := by
  have hmine : ([q].filter fun q => q.target.val = t && !mustWait s q) = [q] := by simp [ht, hwait]
  have hpick : ∀ a b : Bool, ((if a then some q else none).orElse fun _ => (if b then some q else none).orElse fun _ => some q) = some q := by
    intro a b
    cases a <;> cases b <;> rfl
  simp only [arbiter, hmine, nextRound_filter_singleton, List.head?_cons, hpick]
  split
  · cases hfind : [q].find? fun w => w.write && !w.lock && sameLine w q with
    | none => rfl
    | some w => exact congrArg some (List.mem_singleton.mp (List.mem_of_find?_eq_some hfind))
  · rfl

/-- A transaction alone at a free Store is granted, and nothing waits behind it. -/
theorem matrixCycle_alone {q : MatrixReq} {s : State} (ht : q.target = 0) (hlock : s.store.lock = none) (hw : s.store.waiting = [])
    (hb : s.store.bursts = []) : matrixCycle [q] s = matrixAccess q s := by
  have hburst : finishBursts s = s := by
    have hsame : modStore (fun m => { m with bursts := [] }) s = s := by
      unfold modStore
      rw [← hb]
    simp only [finishBursts, hb, List.foldl_nil, hsame]
  have hlater : modStore (fun m => { m with waiting := m.waiting.erase q }) (modStore (fun m => { m with waiting := m.waiting ++ [q] }) s) = s := by
    have herase : (s.store.waiting ++ [q]).erase q = s.store.waiting := by simp [hw]
    unfold modStore
    dsimp only
    rw [herase]
  have hheld : ∀ m, storeHeld s m = false := fun m => by simp [storeHeld, hlock]
  set t := modStore (fun m => { m with waiting := m.waiting ++ [q] }) s with hts
  have hwaiting : t.store.waiting = [q] := by simp [hts, hw]
  have hfree : mustWait t q = false := by
    have hheld' : storeHeld t q.master.val = false := hheld q.master.val
    simp [mustWait, ht, hheld']
  have hpick : ((List.range 6).findSome? fun k => arbiter t k t.store.waiting) = some q := by
    rw [hwaiting, show List.range 6 = 0 :: [1, 2, 3, 4, 5] from rfl, List.findSome?_cons, arbiter_singleton (by rw [ht]; rfl) hfree]
  unfold matrixCycle
  rw [hburst]
  dsimp only
  rw [← hts, hwaiting, List.length_singleton, arbitrate, hpick]
  dsimp only
  rw [hlater, arbitrate, afterLock, hheld 0]
  rfl

/-- An admitted transaction on a free Store is the Store's. -/
theorem matrixAccess_store {q : MatrixReq} {s : State} (ht : q.target = 0) (hup : domainUp s 2 = true) (hpath : hasPath q.master.val 0 = true)
    (hfit : burstFits q = true) (hsession : q.master = 1 → s.dbg.session ≠ none) (hcut : q.cut = none) :
    matrixAccess q s = atStore q (granted 0 q.master.val s) := by
  have hm : ¬ (decide (q.master.val = 1) && s.dbg.session.isNone) = true := by
    intro h
    simp only [Bool.and_eq_true, decide_eq_true_eq, Option.isNone_iff_eq_none] at h
    exact hsession (Fin.ext h.1) h.2
  have htv : q.target.val = 0 := by rw [ht]; rfl
  unfold matrixAccess
  dsimp only
  rw [if_neg hm, hup, htv, hpath, hfit]
  simp [debugBarred, ht, grant, hcut, atTarget]

theorem spanOf_store {q : MatrixReq} (ht : q.target = 0) : spanOf q = 32 * q.beats := by
  rw [spanOf, ht]
  rfl

/-- A transaction that is no half of a locked sequence leaves the lock. -/
theorem lockAfter_of_not {q : MatrixReq} (error : Bool) (s : State) (h : isLocked q = false) : lockAfter q error s = s := by
  simp [lockAfter, h]

theorem noCopy_granted (target master : Nat) {s : State} (h : noCopy s = true) : noCopy (granted target master s) = true :=
  (CoreOnly.granted 0 target master s).frame.copies h

section
variable {q : MatrixReq} {s : State} (ht : q.target = 0) (hlock : isLocked q = false) (hcopy : noCopy s = true)
include ht hlock hcopy

theorem atStore_read (hw : q.write = false) (htag : tagOk s (matrixTag s q) q.addr.toNat = true) :
    atStore q s = emit (.response q.master.val false (storeBytes s q.addr.toNat (32 * q.beats))) s := by
  have hown : ownerOf s 5 (pageOf q.addr.toNat) = matrixTag s q := by simpa [tagOk, ownerOf] using htag
  simp [atStore, hlock, hw, storeReadAs_owned hcopy hown, lockAfter_of_not, respond, spanOf_store ht]

omit ht in
theorem atStore_write (hw : q.write = true) (htag : tagOk s (matrixTag s q) q.addr.toNat = true) :
    atStore q s = emit (.response q.master.val false []) (storeWrite q.addr.toNat (beatBytes q) s) := by
  have hown : ownerOf s 5 (pageOf q.addr.toNat) = matrixTag s q := by simpa [tagOk, ownerOf] using htag
  simp [atStore, hlock, hw, storeWriteAs_owned hcopy hown, lockAfter_of_not, respond]

theorem atStore_refused (htag : tagOk s (matrixTag s q) q.addr.toNat = false) :
    atStore q s = emit (.response q.master.val true (if q.write then [] else List.replicate (32 * q.beats) 0))
      (record 0x0901 (matrixTag s q) [(1, q.master.val), (1, pageOf q.addr.toNat), (1, matrixTag s q)] s) := by
  cases hw : q.write <;>
    simp [atStore, hlock, hw, storeReadAs, storeWriteAs, advanceCopies_of_noCopy hcopy, htag, lockAfter_of_not, respond, refuseTag, spanOf_store ht]

end

/-- With no packet taken and not executed, none runs. -/
theorem runTaken_of_none {s : State} (h : s.tenants.all (fun n => n.taken = []) = true) (k : Nat) : runTaken k s = s := by
  have hflat : (s.tenants.flatMap fun n => n.taken) = [] := by simpa [List.flatMap_eq_nil_iff] using h
  cases k with
  | zero => rfl
  | succ k => simp [runTaken, firstTaken, hflat]

theorem afterLock_of_none {s : State} (before : State) (h : s.tenants.all (fun n => n.taken = []) = true) : afterLock before s = s := by
  unfold afterLock
  split
  · exact runTaken_of_none h 128
  · rfl

/-- Settles O48. -/
theorem storePagesAndAccesses : Obligations.StorePagesAndAccesses := by
  refine ⟨⟨fun off k l s hoff hend hkey => ⟨fun i hi => storeByte_storePoke_at hoff hend hkey hi,
      fun a j ha hout hj hlisted => storeByte_storePoke_outside hoff hend hkey ha hout hj hlisted, storePoke_eq off l s⟩,
    fun r page offset data s hruns => runs_answers (m := pageWriteM page offset data) rfl hruns,
    fun t ok rb r src dst s hends line hcopy hline => ?_, fun t src dst line upTo s hcopy hle hup hsrc hdst hne hks hkd => ?_,
    fun t ok rb r offset data s hends => endsAs_effect ok rb (m := fwWriteM offset data) rfl hends⟩,
    fun q s ht hup hpath hfit hsession hlock hl hcut hcopy hw hb => ?_, fun l s hl hfrozen hwait htaken => ?_, fun s => rfl⟩
  · obtain ⟨r', hr, hexec⟩ := endsAs_effect ok rb (m := pageCopyM r src dst) rfl hends
    refine ⟨r', hr, hexec.trans ?_⟩
    have hcopy' : copyOf (s.tenant r.tenant) = some (src.toNat, dst.toNat, line) := by rw [tenant_of_endsWell rfl hends]; exact hcopy
    simp only [pageCopyM, copyTo, hcopy']
    rw [tenant_of_endsWell rfl hends, modTenant_modTenant]
  · obtain ⟨k, hk⟩ := Option.isSome_iff_exists.mp hkd
    refine ⟨fun i hi => storeByte_copyTo hcopy hup hdst hk hi, ?_⟩
    simp only [copyTo, hcopy]
    rw [modTenant_store, storePoke_eq]
  · intro s1 tag a
    have hexec : exec (.storeAccess [q]) s = .next (msixScan 16 (atStore q s1)) := by
      have hcycle : matrixCycle [q] s = atStore q s1 := by
        rw [matrixCycle_alone ht hlock hw hb, matrixAccess_store ht hup hpath hfit hsession hcut]
      exact congrArg fin hcycle
    have htag1 : tagOk s1 (matrixTag s1 q) a = tagOk s tag a := by rw [matrixTag_granted, tagOk_granted]
    have hmt : matrixTag s1 q = tag := matrixTag_granted ..
    have hcopy1 := noCopy_granted 0 q.master.val hcopy
    rw [hexec]
    refine ⟨fun hread hok => ?_, fun hwrite hok => ?_, fun hno => ?_⟩
    · rw [atStore_read ht hl hcopy1 hread (htag1.trans hok)]
    · rw [atStore_write hl hcopy1 hwrite (htag1.trans hok)]
    · rw [atStore_refused ht hl hcopy1 (htag1.trans hno), hmt]
  · set w := modStore (fun m => { m with timedOut := l.master :: m.timedOut })
      (record 0x0902 (if 6 ≤ l.master && l.master < 14 then ownerOf s 0x04 (l.master - 6) else engineTag) [(1, l.master), (4, 32 * l.line)] s) with hw
    have hexec : exec .lockTimeout s = .next (msixScan 16 (afterLock s (releaseLock w))) := by
      simp only [exec, execLockTimeout, hl, hfrozen]
      rfl
    have hwait' : w.dbg.apWait = none := by simpa [hw] using hwait
    have htaken' : (modStore (fun m => { m with lock := none }) w).tenants.all (fun n => n.taken = []) = true := by simpa [hw] using htaken
    refine ⟨modStore (fun m => { m with lock := none }) w, ?_, rfl, List.mem_cons_self, ?_⟩
    · rw [hexec, releaseLock_of_none hwait', afterLock_of_none s htaken']
    · rw [hw, record_eq]
      rfl

end Sys2Proof.Machine
end

section
/-! Tenants opened and closed, units revoked (04). -/

namespace Sys2Proof.Machine

/-! What closing a tenant and revoking units leave. -/

/-- What a revoke leaves but for the units it returns: the Last, the grants, the pages' tags, the keys, the fuses and the power state. -/
def heldView (s : State) : Last × List (Nat × Nat × Nat) × List (BitVec 5) × List (Option Nat) × List Fuse × Pwr :=
  (s.last, s.owners, s.store.owner, s.store.keys, s.sys.fuses, s.pwr)

/-- A tenant that is not open stays so, and what it no longer has does not come back. -/
structure Shrinks (n m : Tenant) : Prop where
  shut : n.st ≠ .open → m.st ≠ .open
  pend : n.pend = [] → m.pend = []
  groups : n.groups = [] → m.groups = []
  scenes : n.scenes = [] → m.scenes = []
  class2 : n.class2 = [] → m.class2 = []

theorem Shrinks.refl (n : Tenant) : Shrinks n n := ⟨id, id, id, id, id⟩

theorem Shrinks.trans {a b c : Tenant} (h : Shrinks a b) (h' : Shrinks b c) : Shrinks a c :=
  ⟨h'.shut ∘ h.shut, h'.pend ∘ h.pend, h'.groups ∘ h.groups, h'.scenes ∘ h.scenes,
    h'.class2 ∘ h.class2⟩

/-- No unit and no key changes hands, the Last and the fuses stay, and no tenant opens or takes on work. -/
structure ClosingStep (s u : State) : Prop where
  view : heldView u = heldView s
  tenant : ∀ t, Shrinks (s.tenant t) (u.tenant t)

namespace ClosingStep

theorem refl (s : State) : ClosingStep s s := ⟨rfl, fun _ => .refl _⟩

theorem trans {s u v : State} (h : ClosingStep s u) (h' : ClosingStep u v) : ClosingStep s v :=
  ⟨h'.view.trans h.view, fun t => (h.tenant t).trans (h'.tenant t)⟩

/-- The later step first, as the state it leads to is the one known. -/
theorem after {s u v : State} (h' : ClosingStep u v) (h : ClosingStep s u) : ClosingStep s v := h.trans h'

theorem of_tenants {s u : State} (hview : heldView u = heldView s) (h : u.tenants = s.tenants) : ClosingStep s u :=
  ⟨hview, fun t => by simpa only [State.tenant, h] using Shrinks.refl _⟩

theorem modTenant {f : Tenant → Tenant} (t : Nat) (hf : ∀ n, Shrinks n (f n)) (s : State) :
    ClosingStep s (Machine.modTenant t f s) := by
  refine ⟨rfl, fun k => ?_⟩
  by_cases hk : k = t
  · subst k
    by_cases hlt : t < s.tenants.length
    · rw [tenant_modTenant_self f hlt]
      exact hf _
    · have hout : (Machine.modTenant t f s).tenant t = s.tenant t := by
        simp only [State.tenant, modTenant_tenants, nth, List.getD_eq_getElem?_getD]
        rw [List.getElem?_eq_none (by simpa using hlt), List.getElem?_eq_none (by simpa using hlt)]
      rw [hout]
      exact .refl _
  · rw [tenant_modTenant_other f s (Ne.symm hk)]
    exact .refl _

theorem foldl {α : Type} {f : State → α → State} (h : ∀ s x, ClosingStep s (f s x)) (l : List α) (s : State) :
    ClosingStep s (l.foldl f s) := by
  induction l generalizing s with
  | nil => exact refl s
  | cons x l ih => exact (h s x).trans (ih _)

theorem record (c o : Nat) (d : List (Nat × Nat)) (s : State) : ClosingStep s (Machine.record c o d s) :=
  of_tenants (by simp [heldView]) (by simp)

theorem deliverOne (t : Nat) (s : State) : ClosingStep s (Machine.deliverOne t s) := by
  have hkeep : ∀ f : Tenant → Tenant, (∀ n, (f n).st = n.st ∧ (f n).pend = n.pend ∧ (f n).groups = n.groups ∧
      (f n).scenes = n.scenes ∧ (f n).class2 = n.class2) → ClosingStep s (Machine.modTenant t f s) := fun f hf =>
    modTenant t (fun n => ⟨by simp [hf], by simp [hf], by simp [hf], by simp [hf], by simp [hf]⟩) s
  unfold Machine.deliverOne
  dsimp only
  split
  · exact refl s
  · split_ifs
    · exact after (of_tenants (s := Machine.modTenant t _ s) rfl rfl) (hkeep _ fun n => ⟨rfl, rfl, rfl, rfl, rfl⟩)
    · exact refl s
    · exact refl s
    · exact hkeep _ fun n => ⟨rfl, rfl, rfl, rfl, rfl⟩

theorem deliverMany (k t : Nat) (s : State) : ClosingStep s (Machine.deliverMany k t s) := by
  induction k generalizing s with
  | zero => exact refl s
  | succ k ih => exact (deliverOne t s).trans (ih _)

theorem finishClose (t : Nat) (s : State) : ClosingStep s (Machine.finishClose t s) := by
  unfold Machine.finishClose
  dsimp only
  split
  · exact after (record ..) (modTenant t (fun n => by exact ⟨fun _ => nofun, id, id, id, id⟩) s)
  · exact refl s

theorem enqueue (t : Nat) (timed : Bool) (r : Reply) (s : State) : ClosingStep s (Machine.enqueue t timed r s) := by
  unfold Machine.enqueue
  split
  · exact refl s
  · refine (modTenant t (fun n => ?_) s).trans ((deliverMany _ t _).trans (finishClose t _))
    split <;> exact ⟨id, id, id, id, id⟩

theorem queueCell (c : QueuedCell) (s : State) : ClosingStep s (Machine.queueCell c s) := by
  unfold Machine.queueCell
  split
  · exact refl s
  · split
    · exact of_tenants rfl rfl
    · exact after (record ..) (of_tenants rfl rfl)

theorem post (t : Nat) (timed : Bool) (r : Reply) (s : State) : ClosingStep s (Machine.post t timed r s) := by
  unfold Machine.post
  split
  · exact refl s
  · split
    · split
      · exact enqueue ..
      · exact queueCell ..
    · exact enqueue ..

theorem denyReply (timed : Bool) (s : State) (i : Instr) : ClosingStep s (Machine.denyReply timed s i) := by
  unfold Machine.denyReply
  split
  · exact post ..
  · exact refl s

theorem denyTaken (s : State) (a : Arrival) : ClosingStep s (Machine.denyTaken s a) := by
  cases a with
  | cmd i => exact denyReply ..
  | raw r b => exact post ..

theorem disarm (s : State) : ClosingStep s (Machine.disarm s) := by
  unfold Machine.disarm
  split
  · exact after (of_tenants (s := modGroup _ _ _ s) rfl rfl) (modTenant _ (fun n => by exact ⟨id, id, fun h => by simp [h], id, id⟩) s)
  · exact refl s

theorem cancelPending (t : Nat) (pick : Instr → Bool) (s : State) : ClosingStep s (Machine.cancelPending t pick s) := by
  unfold Machine.cancelPending
  refine after (foldl (fun u p => ?_) _ _) (modTenant t (fun n => by exact ⟨id, fun h => by simp [h], id, id, id⟩) s)
  split
  · exact disarm u
  · exact denyReply ..

theorem storeWrite (off : Nat) (l : List (Byte × Bool)) (s : State) : ClosingStep s (Machine.storeWrite off l s) := by
  rw [storeWrite_eq]
  exact of_tenants rfl rfl

theorem advanceCopy (t : Nat) (s : State) : ClosingStep s (Machine.advanceCopy t s) := by
  unfold Machine.advanceCopy
  split
  · split
    · exact refl s
    · simp only [drawFree, copyTo]
      split
      · exact after (modTenant t (fun n => by exact ⟨id, id, id, id, fun h => by simp [h, updAt]⟩) _) (after (storeWrite ..) (of_tenants rfl rfl))
      · exact of_tenants rfl rfl
  · exact refl s

theorem dropStaged (t ty : Nat) (us : List Nat) (f : Class2 → Class2) (s : State) : ClosingStep s (Machine.modTenant t
    (fun n => { Machine.dropStaged ty us n with class2 := n.class2.map f }) s) :=
  modTenant t (fun n => by exact ⟨id, id, fun h => by simp [Machine.dropStaged, h], id, fun h => by simp [h]⟩) s

theorem apAnswer (e : Bool) (d : Option Word) (s : State) : ClosingStep s (Machine.apAnswer e d s) := of_tenants rfl rfl

theorem answer (who : RegMaster) (e w : Bool) (v : Word) (s : State) : ClosingStep s (Machine.answer who e w v s) := by
  cases who with
  | host | hostRead | spi => exact refl s
  | debug | matrix => exact of_tenants rfl rfl

theorem refuseTag (m p tag : Nat) (s : State) : ClosingStep s (Machine.refuseTag m p tag s) := record ..

theorem advanceCopies (s : State) : ClosingStep s (Machine.advanceCopies s) := by
  unfold Machine.advanceCopies
  split
  · exact foldl (fun u t => advanceCopy t u) _ s
  · exact refl s

theorem storeReadAs (m tag off n : Nat) (s : State) : ClosingStep s (Machine.storeReadAs m tag off n s).1 := by
  unfold Machine.storeReadAs
  dsimp only
  split
  · exact advanceCopies s
  · exact (advanceCopies s).trans (refuseTag ..)

theorem storeWriteAs (m tag off : Nat) (l : List (Byte × Bool)) (s : State) :
    ClosingStep s (Machine.storeWriteAs m tag off l s).1 := by
  unfold Machine.storeWriteAs
  dsimp only
  split
  · exact (advanceCopies s).trans (storeWrite ..)
  · exact (advanceCopies s).trans (refuseTag ..)

theorem debugStore (a : Nat) (w : Option Word) (s : State) : ClosingStep s (Machine.debugStore a w s) := by
  unfold Machine.debugStore
  split
  · exact refl s
  · cases w with
    | none => exact (storeReadAs ..).trans (apAnswer ..)
    | some v => exact (storeWriteAs ..).trans (apAnswer ..)

theorem apRetry (s : State) : ClosingStep s (Machine.apRetry s) := by
  unfold Machine.apRetry
  split
  · exact refl s
  · split
    · exact refl s
    · exact after (debugStore ..) (of_tenants rfl rfl)

theorem releaseLock (s : State) : ClosingStep s (Machine.releaseLock s) :=
  after (apRetry _) (of_tenants rfl rfl)

theorem setHalted (k : Nat) (on : Bool) (s : State) : ClosingStep s (Machine.setHalted k on s) := by
  unfold Machine.setHalted
  exact after (record ..) (of_tenants rfl rfl)

theorem clearCore (n : Nat) (s : State) : ClosingStep s (Machine.clearCore n s) := of_tenants rfl rfl

theorem modDbg (f : Dbg → Dbg) (s : State) : ClosingStep s (Machine.modDbg f s) := of_tenants rfl rfl

theorem ite {c : Prop} [Decidable c] {s u v : State} (h : ClosingStep s u) (h' : ClosingStep s v) :
    ClosingStep s (if c then u else v) := by
  split
  · exact h
  · exact h'

theorem revokeCore (s : State) (n : Nat) : ClosingStep s (Machine.revokeCore s n) := by
  have hlock : ClosingStep s (if s.store.lock.any (fun l => l.master = 6 + n) then Machine.releaseLock s else s) :=
    .ite (releaseLock s) (refl s)
  exact after (.after (clearCore n _) (.ite (setHalted ..) (refl _))) hlock

theorem stopPin (p : Nat) (s : State) : ClosingStep s (Machine.stopPin p s) :=
  after (foldl (fun u o => of_tenants (u := modPin o pinOff u) rfl rfl) _ _) (of_tenants rfl rfl)

theorem tellFreed (l : List Nat) (s : State) : ClosingStep s (Machine.tellFreed l s) := foldl (fun _ _ => record ..) _ s

theorem fadeOutUnits (ty : Nat) (us : List Nat) (s : State) : ClosingStep s (Machine.fadeOutUnits ty us s) :=
  after (tellFreed ..) (of_tenants rfl rfl)

/-- Whatever the type of the units, stopping them keeps who holds them. -/
theorem stopUnits (ty : Nat) (us : List Nat) (s : State) : ClosingStep s (Machine.stopUnits ty us s) := by
  unfold Machine.stopUnits
  split
  case h_1 | h_2 | h_3 => exact fadeOutUnits ..
  case h_4 => exact foldl revokeCore us s
  case h_5 => exact foldl (fun u p => stopPin p u) us s
  case h_11 =>
    refine foldl (fun u m => ?_) us s
    dsimp only
    split <;> exact of_tenants rfl rfl
  case h_12 => exact refl s
  all_goals exact foldl (fun u m => by exact of_tenants rfl rfl) us s

theorem endDebugAccess (s : State) : ClosingStep s (Machine.endDebugAccess s) := by
  unfold Machine.endDebugAccess
  dsimp only
  have hheld : ClosingStep s (modSys (fun y => { y with held := y.held.filter fun h => h.who ≠ .debug })
      (s.sys.held.foldl (fun s h => if h.who = .debug then Machine.answer h.who true h.write 0 s else s) s)) :=
    (foldl (fun u h => .ite (answer ..) (refl u)) _ s).trans (of_tenants rfl rfl)
  split
  · exact hheld.trans (of_tenants rfl rfl)
  · exact hheld

theorem closeSession (cause : Nat) (s : State) : ClosingStep s (Machine.closeSession cause s) := by
  unfold Machine.closeSession
  refine .ite (refl s) ?_
  exact after (record ..) <| after (modDbg ..) <|
    after (foldl (fun u k => .ite (setHalted ..) (refl u)) _ _) (endDebugAccess s)

end ClosingStep

/-! The units a revoke returns. -/

/-- What a revoke does before the units change hands. -/
def revokeWork (t ty : Nat) (us : List Nat) (s : State) : State :=
  let s := cancelPending t (namesUnit ty us) s
  let s := if (s.tenant t).class2.head?.any fun c => namesUnit ty us c.cmd then advanceCopy t s else s
  let s := modTenant t (fun n =>
    { dropStaged ty us n with class2 := n.class2.map fun c => if namesUnit ty us c.cmd then { c with denied := true } else c }) s
  stopUnits ty us s

/-- A revoke ends, stops and then returns the units to Root. -/
theorem revokeUnits_eq (t ty : Nat) (us : List Nat) (s : State) :
    revokeUnits t ty us s = grantUnits ty 0 us (revokeWork t ty us s) := rfl

theorem closingStep_revokeWork (t ty : Nat) (us : List Nat) (s : State) : ClosingStep s (revokeWork t ty us s) :=
  (ClosingStep.cancelPending ..).trans <|
    (ClosingStep.ite (.advanceCopy ..) (.refl _)).trans <| (ClosingStep.dropStaged ..).trans (.stopUnits ..)

/-- A closing step leaves every unit with its holder. -/
theorem ClosingStep.ownerOf {s u : State} (h : ClosingStep s u) (ty n : Nat) : ownerOf u ty n = ownerOf s ty n := by
  have howners : u.owners = s.owners := (congrArg (fun x => x.2.1) h.view :)
  have hpages : u.store.owner = s.store.owner := (congrArg (fun x => x.2.2.1) h.view :)
  simp only [Machine.ownerOf, howners, hpages]

theorem ClosingStep.pages_length {s u : State} (h : ClosingStep s u) : u.store.owner.length = s.store.owner.length :=
  congrArg List.length (congrArg (fun x => x.2.2.1) h.view :)

/-- What a run of revokes leaves, with the units that it returns: nothing else of the grants, the keys, the Last or the fuses. -/
structure Returned (gone : Nat → Nat → Prop) (s u : State) : Prop where
  back : ∀ ty n, gone ty n → ownerOf u ty n = 0
  kept : ∀ ty n, ¬ gone ty n → ownerOf u ty n = ownerOf s ty n
  last : u.last = s.last
  keys : u.store.keys = s.store.keys
  fuses : u.sys.fuses = s.sys.fuses
  pages : u.store.owner.length = s.store.owner.length
  tenant : ∀ t, Shrinks (s.tenant t) (u.tenant t)

theorem ClosingStep.returned {s u : State} (h : ClosingStep s u) : Returned (fun _ _ => False) s u where
  back _ _ := False.elim
  kept ty n _ := h.ownerOf ty n
  last := (congrArg (fun x => x.1) h.view :)
  keys := (congrArg (fun x => x.2.2.2.1) h.view :)
  fuses := (congrArg (fun x => x.2.2.2.2.1) h.view :)
  pages := h.pages_length
  tenant := h.tenant

theorem Returned.congr {g g' : Nat → Nat → Prop} {s u : State} (h : Returned g s u) (hg : ∀ ty n, g ty n ↔ g' ty n) :
    Returned g' s u := by
  have e : g = g' := funext fun ty => funext fun n => propext (hg ty n)
  exact e ▸ h

theorem Returned.trans {g g' : Nat → Nat → Prop} {s u v : State} (h : Returned g s u) (h' : Returned g' u v) :
    Returned (fun ty n => g' ty n ∨ g ty n) s v where
  back ty n hn := by
    by_cases hg' : g' ty n
    · exact h'.back ty n hg'
    · rw [h'.kept ty n hg']
      exact h.back ty n (hn.resolve_left hg')
  kept ty n hn := by
    obtain ⟨hg', hg⟩ := not_or.1 hn
    rw [h'.kept ty n hg', h.kept ty n hg]
  last := h'.last.trans h.last
  keys := h'.keys.trans h.keys
  fuses := h'.fuses.trans h.fuses
  pages := h'.pages.trans h.pages
  tenant t := (h.tenant t).trans (h'.tenant t)

/-- The units of a revoke return to Root; pages must be among the Store's. -/
theorem returned_revokeUnits {ty : Nat} {us : List Nat} {s : State} (t : Nat)
    (hpages : ty = 5 → ∀ n ∈ us, n < s.store.owner.length) :
    Returned (fun ty' n => ty' = ty ∧ n ∈ us) s (revokeUnits t ty us s) := by
  have hwork := closingStep_revokeWork t ty us s
  have hgrant := grantUnits_eq ty 0 us (revokeWork t ty us s)
  rw [revokeUnits_eq]
  have hkeep : ∀ {α : Type} (f : State → α), (∀ o p (v : State), f { v with owners := o, store := { v.store with owner := p } } = f v) →
      f (grantUnits ty 0 us (revokeWork t ty us s)) = f (revokeWork t ty us s) := fun f hf => by rw [hgrant, hf]
  have hret := hwork.returned
  refine ⟨?_, ?_, ?_, ?_, ?_, ?_, ?_⟩
  · rintro _ n ⟨rfl, hn⟩
    exact ownerOf_grantUnits_mem (fun e => by rw [hwork.pages_length]; exact hpages e n hn) (by decide) hn
  · intro ty' n hn
    rw [ownerOf_grantUnits_other _ _ _ hn, hwork.ownerOf]
  · exact (hkeep State.last fun _ _ _ => rfl).trans hret.last
  · exact (hkeep (fun v => v.store.keys) fun _ _ _ => rfl).trans hret.keys
  · exact (hkeep (fun v => v.sys.fuses) fun _ _ _ => rfl).trans hret.fuses
  · refine Eq.trans ?_ hwork.pages_length
    generalize revokeWork t ty us s = v
    clear hwork hgrant hkeep hret hpages
    induction us generalizing v with
    | nil => rfl
    | cons n us ih => rw [grantUnits_cons, ih, setOwner_pages_length]
  · intro k
    simpa only [State.tenant, hkeep State.tenants fun _ _ _ => rfl] using hwork.tenant k

/-! REVOKE. -/

/-- A REVOKE that no check refuses names a range that Table 4.10 allows. -/
theorem revoke_accepted {r : Req} {tenant type : Byte} {first count : Half} {s : State}
    (h : refusal (.revoke r tenant type first count) r (revokeM tenant type first count) s = none) :
    badUnits type first count = false := by
  obtain ⟨-, -, -, -, -, -, -, -, hown⟩ := refusal_none h
  exact (Bool.or_eq_false_iff.1 (check_passes hown List.mem_cons_self (by decide))).1

/-- Settles O10: REVOKE returns the units of its range whose holder is the tenant (log entry 43), after it has ended the work that
names them. -/
theorem revokeReturnsUnits : Obligations.RevokeReturnsUnits := by
  intro r tenant type first count s hruns hshaped
  have hrange := revoke_accepted (runs_passes rfl rfl hruns)
  have hret := returned_revokeUnits (ty := type.toNat) (s := s) tenant.toNat
    (us := (unitList first count).filter fun u => ownerOf s type.toNat u = tenant.toNat)
    fun h5 n hn => shaped_pages_length hshaped ▸ page_lt_of_mem_unitList hrange h5 (List.mem_filter.1 hn).1
  have hgone : ∀ ty n, (ty = type.toNat ∧ first.toNat ≤ n ∧ n < first.toNat + count.toNat ∧ ownerOf s ty n = tenant.toNat) ↔
      ty = type.toNat ∧ n ∈ (unitList first count).filter fun u => ownerOf s type.toNat u = tenant.toNat := by
    intro ty n
    simp only [List.mem_filter, mem_unitList, decide_eq_true_eq]
    exact ⟨fun ⟨e, h, h', ho⟩ => ⟨e, ⟨h, h'⟩, e ▸ ho⟩, fun ⟨e, ⟨h, h'⟩, ho⟩ => ⟨e, h, h', e ▸ ho⟩⟩
  refine ⟨_, _, ?_, runs_answers (m := revokeM tenant type first count) rfl hruns, fun ty n hn => ?_, fun ty n hn => ?_, ?_, ?_⟩
  · rfl
  · exact (ownerOf_record ..).trans (hret.back ty n ((hgone ty n).1 hn))
  · exact (ownerOf_record ..).trans (hret.kept ty n fun h => hn ((hgone ty n).2 h))
  · exact (record_last ..).trans hret.last
  · exact (record_sys_fuses ..).trans hret.fuses

/-! TENANT_OPEN and TENANT_CLOSE. -/

/-- What holds of a closed tenant and of every entry written holds of the tenant written. -/
theorem tenant_modTenant_holds {P : Tenant → Prop} {f : Tenant → Tenant} (t : Nat) (s : State) (hnone : P default)
    (hf : ∀ n, P (f n)) : P ((modTenant t f s).tenant t) := by
  by_cases hlt : t < s.tenants.length
  · exact tenant_modTenant_self f hlt ▸ hf _
  · have hout : (modTenant t f s).tenant t = default := by
      simp only [State.tenant, modTenant_tenants, nth, List.getD_eq_getElem?_getD]
      rw [List.getElem?_eq_none (by simpa using hlt)]
      rfl
    rw [hout]
    exact hnone

theorem pend_cancelPending (t : Nat) (s : State) : ((cancelPending t (fun _ => true) s).tenant t).pend = [] := by
  unfold cancelPending
  refine ((ClosingStep.foldl (fun u p => ?_) _ _).tenant t).pend
    (tenant_modTenant_holds (P := fun n => n.pend = []) t s rfl fun n => by simp)
  exact .ite (.disarm u) (.denyReply ..)

/-- What TENANT_CLOSE ends of an open tenant: its copy, and with S_DENIED each command taken, pending or running. -/
def cancelWork (t : Nat) (s : State) : State :=
  let n := s.tenant t
  let own := n.pend.filter fun p => !fabricCommit s t p.cmd
  let cancelled := n.taken.length + own.length + n.class2.length
  let discarded := stagedBy s t
  let s := advanceCopy t s
  let s := modTenant t (fun n => { n with
    st := .closing, inboxBusy := false, taken := [], cancelled, discarded
    class2 := (n.class2.take 1).map fun c => { c with denied := true } }) s
  let s := n.taken.foldl (fun s x => denyTaken s x.2) s
  let s := cancelPending t (fun _ => true) s
  (n.class2.drop 1).foldl (fun s c => denyReply false s c.cmd) s

theorem closeTenant_fst (t : Nat) (s : State) : (closeTenant t s).1 = finishClose t (stripTenant t (cancelWork t s)) := by
  unfold closeTenant cancelWork
  dsimp only

/-- Cancelling its work takes no unit from the tenant, and leaves it shut with nothing pending. -/
theorem cancelWork_shut (t : Nat) (s : State) :
    ClosingStep s (cancelWork t s) ∧ ((cancelWork t s).tenant t).st ≠ .open ∧ ((cancelWork t s).tenant t).pend = [] := by
  unfold cancelWork
  dsimp only
  generalize hf : modTenant t _ (advanceCopy t s) = a
  have hdeny : ∀ u : State, ClosingStep u ((s.tenant t).taken.foldl (fun s x => denyTaken s x.2) u) :=
    ClosingStep.foldl (fun u (x : Nat × Arrival) => .denyTaken u x.2) _
  have hrest : ∀ u : State, ClosingStep u (((s.tenant t).class2.drop 1).foldl (fun s c => denyReply false s c.cmd) u) :=
    ClosingStep.foldl (fun u (c : Class2) => .denyReply false u c.cmd) _
  have hshut : (a.tenant t).st ≠ .open := by
    rw [← hf]
    exact tenant_modTenant_holds (P := fun n => n.st ≠ .open) t _ nofun fun n => nofun
  have ha : ClosingStep s a := by
    rw [← hf]
    exact (ClosingStep.advanceCopy t s).trans (.modTenant t (fun n => by exact ⟨fun _ => nofun, id, id, id, fun h => by simp [h]⟩) _)
  have hcancel := (hdeny a).trans (.cancelPending t (fun _ => true) _)
  exact ⟨ha.trans (hcancel.trans (hrest _)), ((hcancel.trans (hrest _)).tenant t).shut hshut,
    ((hrest _).tenant t).pend (pend_cancelPending t _)⟩

theorem mem_heldUnits {s : State} {t ty n : Nat} : n ∈ heldUnits s t ty ↔ n < unitCount ty ∧ ownerOf s ty n = t := by
  simp [heldUnits]

/-- One type of units revoked, with its events. -/
def revokeType (t : Nat) (s : State) (ty : Nat) : State :=
  if heldUnits s t ty = [] then s
  else (runsOf (heldUnits s t ty)).foldl (fun s x => record 0x0004 t [(1, t), (1, ty), (2, x.1), (2, x.2)] s)
    (revokeUnits t ty (heldUnits s t ty) s)

theorem revokeAll_eq (t : Nat) (s : State) : revokeAll t s = (List.range 18).foldl (revokeType t) s := rfl

theorem returned_revokeType {t : Nat} {s : State} (ty : Nat) (hpages : s.store.owner.length = 256) :
    Returned (fun ty' n => ty' = ty ∧ n ∈ heldUnits s t ty) s (revokeType t s ty) := by
  unfold revokeType
  split
  · next hnone => exact (ClosingStep.refl s).returned.congr fun ty' n => by simp [hnone]
  · refine ((returned_revokeUnits t fun h5 n hn => ?_).trans (ClosingStep.foldl (fun u x => .record ..) _ _).returned).congr
      fun ty' n => by simp
    subst h5
    exact hpages ▸ (mem_heldUnits.1 hn).1

/-- The units of the types listed return to Root. -/
theorem returned_revokeTypes {t : Nat} (l : List Nat) {s : State} (hpages : s.store.owner.length = 256) :
    Returned (fun ty n => ty ∈ l ∧ n < unitCount ty ∧ ownerOf s ty n = t) s (l.foldl (revokeType t) s) := by
  induction l generalizing s with
  | nil => exact (ClosingStep.refl s).returned.congr fun ty n => by simp
  | cons x l ih =>
    have hx := returned_revokeType (t := t) x hpages
    refine (hx.trans (ih (hx.pages.trans hpages))).congr fun ty n => ?_
    simp only [mem_heldUnits, List.mem_cons]
    by_cases hg : ty = x ∧ n < unitCount x ∧ ownerOf s x n = t
    · obtain ⟨rfl, hlt, hown⟩ := hg
      exact iff_of_true (.inr ⟨rfl, hlt, hown⟩) ⟨.inl rfl, hlt, hown⟩
    · have hkept := hx.kept ty n fun h => hg ⟨h.1, mem_heldUnits.1 h.2⟩
      rw [hkept]
      constructor
      · rintro (⟨hl, h⟩ | h)
        · exact ⟨.inr hl, h⟩
        · exact absurd h hg
      · rintro ⟨rfl | hl, h⟩
        · exact absurd ⟨rfl, h⟩ hg
        · exact .inl ⟨hl, h⟩

theorem unitCount_type_lt {ty n : Nat} (h : n < unitCount ty) : ty < 18 := by
  by_contra hge
  have hnone : unitCount ty = 0 := by
    unfold unitCount
    split <;> first | rfl | omega
  omega

theorem ownerOf_zeroiseKey (t : Nat) (s : State) (ty n : Nat) : ownerOf (zeroiseKey t s) ty n = ownerOf s ty n := rfl

theorem tenant_zeroiseKey (t : Nat) (s : State) (k : Nat) : (zeroiseKey t s).tenant k = s.tenant k := rfl

theorem key_zeroiseKey (t : Nat) (s : State) : nth (zeroiseKey t s).store.keys t = none := by
  by_cases hlt : t < s.store.keys.length
  · exact nth_updAt_self _ _ _ hlt
  · simp only [zeroiseKey, modStore_store, nth, List.getD_eq_getElem?_getD]
    rw [List.getElem?_eq_none (by simpa using hlt)]
    rfl

/-- What is taken from a tenant that closes: its groups, scenes, key and grants, and nothing of another tenant's. -/
theorem stripTenant_takes {t : Nat} {s : State} (hpages : s.store.owner.length = 256) :
    (∀ ty n, n < unitCount ty → ownerOf s ty n = t → ownerOf (stripTenant t s) ty n = 0) ∧
    (∀ ty n, ownerOf s ty n ≠ t → ownerOf (stripTenant t s) ty n = ownerOf s ty n) ∧
    (stripTenant t s).last = s.last ∧ nth (stripTenant t s).store.keys t = none ∧
    (∀ k, (s.tenant k).st ≠ .open → ((stripTenant t s).tenant k).st ≠ .open) ∧
    (∀ k, (s.tenant k).pend = [] → ((stripTenant t s).tenant k).pend = []) ∧
    ((stripTenant t s).tenant t).groups = [] ∧ ((stripTenant t s).tenant t).scenes = [] := by
  unfold stripTenant
  dsimp only
  generalize ha : (if s.plink.armed.any fun a => a.tenant = t then disarm s else s) = a
  have hsa : ClosingStep s a := ha ▸ .ite (.disarm s) (.refl s)
  generalize hb : modTenant t _ a = b
  have hab : ClosingStep a b := hb ▸ .modTenant t (fun n => by exact ⟨id, id, fun _ => rfl, fun _ => rfl, id⟩) a
  have hempty : (b.tenant t).groups = [] ∧ (b.tenant t).scenes = [] := by
    rw [← hb]
    exact tenant_modTenant_holds (P := fun n => n.groups = [] ∧ n.scenes = []) t a ⟨rfl, rfl⟩ fun n => ⟨rfl, rfl⟩
  have hsb := hsa.trans hab
  have hbc : Returned _ b (revokeAll t b) :=
    revokeAll_eq t b ▸ returned_revokeTypes (List.range 18) (hsb.pages_length.trans hpages)
  generalize hd : zeroiseKey t (revokeAll t b) = d
  have hdkey : nth d.store.keys t = none := hd ▸ key_zeroiseKey t _
  have hdown : ∀ ty n, ownerOf d ty n = ownerOf (revokeAll t b) ty n := hd ▸ ownerOf_zeroiseKey t _
  have hdlast : d.last = (revokeAll t b).last := hd ▸ modStore_last ..
  have hdten : ∀ k, d.tenant k = (revokeAll t b).tenant k := hd ▸ tenant_zeroiseKey t _
  have hdu : ClosingStep d (if d.dbg.session.any fun x => x.scope = t then closeSession 3 d else d) :=
    .ite (.closeSession 3 d) (.refl d)
  generalize (if d.dbg.session.any fun x => x.scope = t then closeSession 3 d else d) = u at hdu ⊢
  have hten : ∀ k, Shrinks (b.tenant k) (u.tenant k) := fun k => by
    have hdk := hdu.tenant k
    rw [hdten] at hdk
    exact (hbc.tenant k).trans hdk
  refine ⟨fun ty n hlt hown => ?_, fun ty n hown => ?_, ?_, ?_, fun k h => ?_, fun k h => ?_, ?_, ?_⟩
  · rw [hdu.ownerOf, hdown]
    exact hbc.back ty n ⟨List.mem_range.2 (unitCount_type_lt hlt), hlt, (hsb.ownerOf ty n).trans hown⟩
  · rw [hdu.ownerOf, hdown, hbc.kept ty n fun h => hown ((hsb.ownerOf ty n).symm.trans h.2.2), hsb.ownerOf]
  · exact hdu.returned.last.trans (hdlast.trans (hbc.last.trans hsb.returned.last))
  · rw [hdu.returned.keys, hdkey]
  · exact (hten k).shut ((hsb.tenant k).shut h)
  · exact (hten k).pend ((hsb.tenant k).pend h)
  · exact (hten t).groups hempty.1
  · exact (hten t).scenes hempty.2

theorem tenantClose_accepted {r : Req} {tenant : Byte} {s : State}
    (h : refusal (.tenantClose r tenant) r (tenantCloseM tenant) s = none) :
    (s.tenant tenant.toNat).st ≠ .closed := by
  obtain ⟨-, -, -, -, -, -, -, -, hown⟩ := refusal_none h
  simpa using check_passes hown List.mem_cons_self (by decide)

theorem status_tenantClose (tenant : Byte) (bs : List Byte) (s : State) :
    ((tenantCloseM tenant).effect bs s).2.1 = .ok := by
  simp only [tenantCloseM]
  split <;> rfl

theorem tenantClose_closing {tenant : Byte} {s : State} (h : (s.tenant tenant.toNat).st = .closing) (bs : List Byte) :
    (tenantCloseM tenant).effect bs s = (forceClosed tenant.toNat s, .ok, le 4 0) := by
  simp only [tenantCloseM, if_pos h]

theorem tenantClose_open {tenant : Byte} {s : State} (h : (s.tenant tenant.toNat).st = .open) (bs : List Byte) :
    ((tenantCloseM tenant).effect bs s).1 = finishClose tenant.toNat (stripTenant tenant.toNat (cancelWork tenant.toNat s)) := by
  rw [← closeTenant_fst]
  simp only [tenantCloseM, h, reduceCtorEq, if_false]

theorem shaped_keys_length {s : State} (h : shaped s = true) : s.store.keys.length = 17 := by
  simp only [shaped, Bool.and_eq_true, decide_eq_true_eq] at h
  simp only [h]

theorem tenantOpen_accepted {r : Req} {tenant transports : Byte} {s : State}
    (h : refusal (.tenantOpen r tenant transports) r (tenantOpenM tenant transports) s = none) : tenant.toNat < 16 := by
  obtain ⟨-, -, -, -, -, hunits, -, -, -⟩ := refusal_none h
  obtain ⟨-, hinRange, -⟩ := unitCheck_eq_none.1 hunits
  have htenant : (if tenant = 0 then 16 else tenant.toNat) < 16 := hinRange _ (List.mem_singleton.2 rfl)
  split at htenant <;> omega

/-- Settles O8: TENANT_OPEN writes one entry of the tenants and one key; TENANT_CLOSE cancels the tenant's work and strips it of what
it holds, and of a closing tenant discards the replies. -/
theorem tenantsOpenAndClose : Obligations.TenantsOpenAndClose := by
  constructor
  · intro r tenant transports s hruns hshaped
    have hlt := tenantOpen_accepted (runs_passes rfl rfl hruns)
    have htenants : tenant.toNat < s.tenants.length := by rwa [shaped_tenants_length hshaped]
    have hkeys : tenant.toNat < s.store.keys.length := by rw [shaped_keys_length hshaped]; omega
    refine ⟨_, runs_answers (m := tenantOpenM tenant transports) rfl hruns, ?_, ?_, fun k hk => ?_, ?_⟩
    · simp only [tenantOpenM, openTenant, State.tenant, record_tenants]
      refine (tenant_modTenant_self _ (s := drawKey tenant.toNat s) htenants).trans ?_
      simp only [drawKey, modStore_evrec, BitVec.ofNat_toNat]
      rfl
    · simp only [tenantOpenM, openTenant, record_store]
      exact nth_updAt_self _ _ _ hkeys
    · simp only [tenantOpenM, openTenant, State.tenant, record_tenants]
      exact tenant_modTenant_other _ (drawKey tenant.toNat s) (Ne.symm hk)
    · simp only [tenantOpenM, openTenant, sansEvents_record, record_tenants, record_store]
      rfl
  · intro r tenant s hruns hshaped
    have hclosed := tenantClose_accepted (runs_passes rfl rfl hruns)
    have hlt := tenant_lt_of_open hclosed
    have hanswers := runs_answers (m := tenantCloseM tenant) rfl hruns
    rw [status_tenantClose] at hanswers
    refine ⟨_, _, hanswers, fun hclosing => ?_, fun hopen => ?_⟩
    · have hnow := tenant_modTenant_self (s := s) (fun n => { n with
        st := .closed, replyQ := [], waiting := [], outFull := false, class2 := [] }) hlt
      rw [tenantClose_closing hclosing]
      simp only [forceClosed, State.tenant, record_tenants]
      exact ⟨rfl, (congrArg Tenant.st hnow :), (congrArg Tenant.replyQ hnow :), (congrArg Tenant.outFull hnow :)⟩
    · rw [tenantClose_open hopen]
      obtain ⟨hwork, hshut, hpend⟩ := cancelWork_shut tenant.toNat s
      obtain ⟨hback, hkept, hlast, hkey, hst, hpends, hgroups, hscenes⟩ :=
        stripTenant_takes (hwork.pages_length.trans (shaped_pages_length hshaped))
      have hend := ClosingStep.finishClose tenant.toNat (stripTenant tenant.toNat (cancelWork tenant.toNat s))
      refine ⟨(hend.tenant _).shut (hst _ hshut), (hend.tenant _).pend (hpends _ hpend), (hend.tenant _).groups hgroups,
        (hend.tenant _).scenes hscenes, ?_, fun ty n hn hown => ?_, fun ty n hown => ?_, ?_⟩
      · rw [hend.returned.keys, hkey]
      · rw [hend.ownerOf]
        exact hback ty n hn ((hwork.ownerOf ty n).trans hown)
      · rw [hend.ownerOf, hkept ty n (by rwa [hwork.ownerOf]), hwork.ownerOf]
      · exact hend.returned.last.trans (hlast.trans hwork.returned.last)

end Sys2Proof.Machine
end

section
/-! Power, holdover and the cell stack (15). -/

namespace Sys2Proof.Machine

/-! Work cut short by a change of mode. -/

namespace ClosingStep

theorem pwr {s u : State} (h : ClosingStep s u) : u.pwr = s.pwr := (congrArg (fun x => x.2.2.2.2.2) h.view :)

theorem owners {s u : State} (h : ClosingStep s u) : u.owners = s.owners := (congrArg (fun x => x.2.1) h.view :)

theorem modEvrec (f : Evrec → Evrec) (s : State) : ClosingStep s (Machine.modEvrec f s) := of_tenants rfl rfl

theorem setOtherSlot (x : Option FwSlot) (bytes : List Byte) (s : State) : ClosingStep s (Machine.setOtherSlot x bytes s) := by
  unfold Machine.setOtherSlot
  refine after (modEvrec ..) ?_
  by_cases h : s.sys.slotB = true
  · exact of_tenants (by simp [heldView, h]) rfl
  · exact of_tenants (by simp [heldView, h]) rfl

theorem cutCommit (s : State) : ClosingStep s (Machine.cutCommit s) := by
  unfold Machine.cutCommit
  split
  · split
    · exact .ite (setOtherSlot ..) (refl s)
    · exact refl s
  · exact refl s

theorem stopClass2 (i : Instr) (s : State) : ClosingStep s (Machine.stopClass2 i s) := by
  unfold Machine.stopClass2
  split
  · exact advanceCopy ..
  · exact cutCommit s
  · exact refl s

end ClosingStep

/-- A tenant with nothing left to do. -/
def Idle (n : Tenant) : Prop := n.pend = [] ∧ n.class2 = [] ∧ n.groups = []

theorem Shrinks.idle {n m : Tenant} (h : Shrinks n m) (hn : Idle n) : Idle m := ⟨h.pend hn.1, h.class2 hn.2.1, h.groups hn.2.2⟩

/-- What R407 cancels of a tenant once its running command has stopped. -/
def endWork (t : Nat) (cs : List Class2) (s : State) : State :=
  let s := cs.foldl (fun s c => denyReply false s c.cmd) (cancelPending t (fun _ => true) s)
  let s := if s.plink.armed.any fun a => a.tenant = t then disarm s else s
  modTenant t (fun n => { n with class2 := [], groups := [] }) s

theorem endWork_idle (t : Nat) (cs : List Class2) (s : State) :
    ClosingStep s (endWork t cs s) ∧ Idle ((endWork t cs s).tenant t) := by
  unfold endWork
  dsimp only
  generalize hb : cs.foldl (fun s c => denyReply false s c.cmd) (cancelPending t (fun _ => true) s) = b
  have hdeny : ClosingStep (cancelPending t (fun _ => true) s) b :=
    hb ▸ ClosingStep.foldl (fun u (c : Class2) => .denyReply false u c.cmd) _ _
  have hpend : (b.tenant t).pend = [] := (hdeny.tenant t).pend (pend_cancelPending t s)
  generalize hc : (if b.plink.armed.any fun a => a.tenant = t then disarm b else b) = c
  have hbc : ClosingStep b c := hc ▸ .ite (.disarm b) (.refl b)
  have hlast : ClosingStep c (modTenant t (fun n => { n with class2 := [], groups := [] }) c) :=
    .modTenant t (fun n => by exact ⟨id, id, fun _ => rfl, id, fun _ => rfl⟩) c
  have hdone := tenant_modTenant_holds (P := fun n => n.class2 = [] ∧ n.groups = [])
    (f := fun n => { n with class2 := [], groups := [] }) t c ⟨rfl, rfl⟩ fun n => ⟨rfl, rfl⟩
  exact ⟨(ClosingStep.cancelPending ..).trans (hdeny.trans (hbc.trans hlast)),
    (hlast.tenant t).pend ((hbc.tenant t).pend hpend), hdone⟩

/-- R407 cancels what a tenant has to do, and no more. -/
theorem denyWork_idle (s : State) (t : Nat) : ClosingStep s (denyWork s t) ∧ Idle ((denyWork s t).tenant t) := by
  have hend : ∀ a, ClosingStep s a → ∀ c, ClosingStep s (endWork t c a) ∧ Idle ((endWork t c a).tenant t) := fun a ha c =>
    ⟨ha.trans (endWork_idle t c a).1, (endWork_idle t c a).2⟩
  have htold : ∀ a c o d, ClosingStep s a ∧ Idle (a.tenant t) → ClosingStep s (record c o d a) ∧ Idle ((record c o d a).tenant t) :=
    fun a c o d h => ⟨h.1.trans (.record ..), ((ClosingStep.record c o d a).tenant t).idle h.2⟩
  unfold denyWork
  dsimp only
  cases hclass2 : (s.tenant t).class2 with
  | nil =>
    dsimp only
    split
    · exact hend s (.refl s) []
    · exact htold _ _ _ _ (hend s (.refl s) [])
  | cons c l =>
    dsimp only
    split
    · exact hend _ (.stopClass2 c.cmd s) (c :: l)
    · exact htold _ _ _ _ (hend _ (.stopClass2 c.cmd s) (c :: l))

theorem foldl_denyWork_idle (l : List Nat) (s : State) {t : Nat} (ht : t ∈ l) : Idle ((l.foldl denyWork s).tenant t) := by
  induction l generalizing s with
  | nil => cases ht
  | cons x l ih =>
    by_cases hl : t ∈ l
    · exact ih _ hl
    · obtain rfl : t = x := (List.mem_cons.1 ht).resolve_right hl
      exact ((ClosingStep.foldl (fun u k => (denyWork_idle u k).1) l _).tenant t).idle (denyWork_idle s t).2

/-! The power modes that POWER_MODE sets. -/

theorem tellMode_eq (who old new trigger : Nat) (s : State) :
    tellMode who old new trigger s = record 0x0C04 who [(1, old), (1, new), (1, trigger)] s := rfl

/-- POWER_MODE from QUIET to RUN (R387). -/
theorem setMode_run {r : Req} {s : State} (h : s.pwr.mode = .quiet) (w : Option Time) :
    (setMode r 0 w s).pwr = { s.pwr with mode := .run } ∧ (setMode r 0 w s).prism.gated = false ∧
      (setMode r 0 w s).last = s.last ∧ (setMode r 0 w s).owners = s.owners := by
  have hset : setMode r 0 w s =
      restartCores (resumePrism (tellMode r.tenant 1 0 0 (modPwr (fun p => { p with mode := .run }) s))) := if_neg (not_not.2 h)
  rw [hset]
  simp [restartCores, resumePrism, rampPortOutputs, tellMode_eq]

/-- POWER_MODE from RUN to QUIET (R387): the media units are gated when every sink has faded out. -/
theorem setMode_quiet {r : Req} {s : State} (h : s.pwr.mode = .run) (w : Option Time) :
    (setMode r 1 w s).pwr.mode = .quiet ∧
      (sinksFaded (setMode r 1 w s) = true → (setMode r 1 w s).pwr.entering = .none ∧ (setMode r 1 w s).prism.gated = true) ∧
      (sinksFaded (setMode r 1 w s) = false → (setMode r 1 w s).pwr.entering = .quiet ∧
        (setMode r 1 w s).prism.gated = s.prism.gated) ∧
      (setMode r 1 w s).last = s.last ∧ (setMode r 1 w s).owners = s.owners := by
  generalize hv : fadeSinks (tellMode r.tenant 0 1 0 (modPwr (fun p => { p with mode := .quiet, entering := .quiet }) s)) = v
  have hpwr : v.pwr = { s.pwr with mode := .quiet, entering := .quiet } := by
    rw [← hv]
    simp [fadeSinks, fadePortOutputs, tellMode_eq]
  have hgated : v.prism.gated = s.prism.gated := by
    rw [← hv]
    simp [fadeSinks, fadePortOutputs, tellMode_eq]
  have hlast : v.last = s.last ∧ v.owners = s.owners := by
    rw [← hv]
    simp [fadeSinks, fadePortOutputs, tellMode_eq]
  have hset : setMode r 1 w s = fadesOver v := by
    rw [← hv]
    exact if_neg (not_not.2 h)
  rw [hset]
  by_cases hfaded : sinksFaded v = true
  · have hover : fadesOver v = modPrism (fun m => { m with gated := true }) (modPwr (fun p => { p with entering := .none }) v) := by
      simp [fadesOver, hfaded, hpwr]
    have hsame : sinksFaded (fadesOver v) = true := hover ▸ hfaded
    rw [hsame, hover]
    simp [hpwr, hlast]
  · have hover : fadesOver v = v := by simp [fadesOver, hfaded]
    rw [hover]
    simp [hpwr, hlast, hgated, hfaded]

/-- What POWER_MODE does on the way into SLEEP, once the tenants' work is cancelled. -/
def sleepFrom (r : Req) (w : Option Time) (s a : State) : State :=
  if (tellMode r.tenant s.pwr.mode.code 3 0 (modPwr (fun p => { p with entering := .sleep, wakeAt := w }) a)).prism.gated then
    tellMode r.tenant s.pwr.mode.code 3 0 (modPwr (fun p => { p with entering := .sleep, wakeAt := w }) a)
  else fadeSinks (tellMode r.tenant s.pwr.mode.code 3 0 (modPwr (fun p => { p with entering := .sleep, wakeAt := w }) a))

/-- POWER_MODE into SLEEP (R407): every tenant's work is cancelled, and the sinks fade out. -/
theorem setMode_sleep (r : Req) (w : Option Time) (s : State) :
    (setMode r 2 w s).pwr = { s.pwr with entering := .sleep, wakeAt := w } ∧
      (∀ t, t < 16 → Idle ((setMode r 2 w s).tenant t)) ∧
      (setMode r 2 w s).last = s.last ∧ (setMode r 2 w s).owners = s.owners := by
  have hdeny : ClosingStep s ((List.range 16).foldl denyWork s) := ClosingStep.foldl (fun u k => (denyWork_idle u k).1) _ s
  have hidle := fun t (ht : t < 16) => foldl_denyWork_idle (List.range 16) s (List.mem_range.2 ht)
  generalize ha : (List.range 16).foldl denyWork s = a at hdeny hidle
  have hpwr := hdeny.pwr
  have howners := hdeny.owners
  have hlast : a.last = s.last := hdeny.returned.last
  have hset : setMode r 2 w s = sleepFrom r w s a := by
    unfold setMode
    split
    · next h => exact absurd h (by decide)
    · next h => exact absurd h (by decide)
    · simp only [ha, sleepFrom]
  rw [hset, sleepFrom]
  split
  · simp only [tellMode_eq, State.tenant, record_pwr, record_tenants, record_last, record_owners, modPwr_pwr, modPwr_tenants,
      modPwr_last, modPwr_owners, hpwr, hlast, howners, true_and, and_true]
    exact hidle
  · simp only [fadeSinks, fadePortOutputs, modPrism_pwr, modPrism_tenants, modPrism_last, modPrism_owners,
      tellMode_eq, State.tenant, record_pwr, record_tenants, record_last, record_owners, modPwr_pwr, modPwr_tenants,
      modPwr_last, modPwr_owners, hpwr, hlast, howners, true_and, and_true]
    exact hidle

theorem powerMode_accepted {r : Req} {mode flags : Byte} {wake : Stamp} {s : State}
    (h : refusal (.powerMode r mode flags wake) r (powerModeM r mode flags wake) s = none) : mode.toNat ≤ 2 := by
  obtain ⟨-, -, -, -, -, -, -, -, hown⟩ := refusal_none h
  have hrange := check_passes hown List.mem_cons_self (by decide)
  simp only [Bool.or_eq_false_iff, decide_eq_false_iff_not] at hrange
  omega

/-- Settles O54 from the three modes that POWER_MODE sets; the other commands write their own fields. -/
theorem powerCommands : Obligations.PowerCommands := by
  refine ⟨fun r mode flags wake s hruns _ => ?_, fun r mhz s hruns => runs_answers (m := coreClockM r mhz) rfl hruns,
    fun r c s hruns => runs_answers (m := holdConfigM c) rfl hruns, fun r c s hruns => ?_⟩
  · have hle := powerMode_accepted (runs_passes rfl rfl hruns)
    have hans := runs_answers (m := powerModeM r mode flags wake) rfl hruns
    refine ⟨_, hans, ?_⟩
    generalize hw : (if flags.getLsbD 0 then some (timeOf wake) else none) = w
    have heffect : ∀ n, mode.toNat = n → ((powerModeM r mode flags wake).effect ((powerModeM r mode flags wake).copy s) s).1 =
        setMode r n w s := by
      rintro _ rfl
      rw [← hw]
      rfl
    obtain h0 | h1 | h2 : mode.toNat = 0 ∨ mode.toNat = 1 ∨ mode.toNat = 2 := by omega
    · obtain rfl : mode = 0 := BitVec.eq_of_toNat_eq h0
      rw [heffect 0 h0]
      by_cases hq : s.pwr.mode = .quiet
      · obtain ⟨hpwr, hgated, hlast, howners⟩ := setMode_run (r := r) hq w
        exact ⟨hlast, howners, fun _ _ => ⟨hpwr, hgated⟩, fun _ h => absurd (hq.symm.trans h) nofun, nofun, nofun, nofun⟩
      · have hsame : setMode r 0 w s = s := if_pos hq
        rw [hsame]
        exact ⟨rfl, rfl, fun _ h => absurd h hq, fun _ _ => rfl, nofun, nofun, nofun⟩
    · obtain rfl : mode = 1 := BitVec.eq_of_toNat_eq h1
      rw [heffect 1 h1]
      by_cases hr : s.pwr.mode = .run
      · obtain ⟨hmode, hfaded, hfading, hlast, howners⟩ := setMode_quiet (r := r) hr w
        exact ⟨hlast, howners, nofun, nofun, fun _ h => absurd (hr.symm.trans h) nofun, fun _ _ => ⟨hmode, hfaded, hfading⟩, nofun⟩
      · have hsame : setMode r 1 w s = s := if_pos hr
        rw [hsame]
        exact ⟨rfl, rfl, nofun, nofun, fun _ _ => rfl, fun _ h => absurd h hr, nofun⟩
    · obtain rfl : mode = 2 := BitVec.eq_of_toNat_eq h2
      rw [heffect 2 h2]
      obtain ⟨hpwr, hidle, hlast, howners⟩ := setMode_sleep r w s
      exact ⟨hlast, howners, nofun, nofun, nofun, nofun, fun _ => ⟨hpwr, hidle⟩⟩
  · refine ⟨_, runs_answers (m := balanceConfigM c) rfl hruns, ?_⟩
    have heffect : ((balanceConfigM c).effect ((balanceConfigM c).copy s) s).1 = chgUpdate
        (modPwr (fun p => if c.mode = 1 then p else openSwitches p)
          (modPwr (fun p => if s.pwr.cells ≠ c.cells.toNat then
            { openSwitches p with volts := List.replicate 12 0, measured := false, low := 0, high := 0, lowDue := 0 } else p)
            (modPwr (fun p => { p with
              cells := c.cells.toNat, balMode := c.mode = 1, charge := c.charge = 1, balTimeout := c.balTimeout.toNat
              balTarget := c.balTarget.toNat, balWindow := c.balWindow.toNat, vOv := c.vOv.toNat }) s))) := by
      simp only [balanceConfigM]
      split_ifs <;> rfl
    rw [heffect]
    simp only [chgUpdate, modPwr_pwr]
    refine ⟨rfl, ?_, ?_, ?_, ?_, ?_, ?_, ?_, ?_, fun h => ?_, fun h => ?_, fun h => ?_⟩ <;> split_ifs <;>
      simp_all [openSwitches, isFenced]

/-! Every domain but AON reset (R430). -/

namespace ClosingStep

theorem giveUp (h : HeldAccess) (s : State) : ClosingStep s (Machine.giveUp h s) := by
  unfold Machine.giveUp
  split
  · exact answer ..
  · split
    · exact post ..
    · exact refl s

theorem emit (o : Output) (s : State) : ClosingStep s (Machine.emit o s) := of_tenants rfl rfl

theorem endAccesses (s : State) : ClosingStep s (Machine.endAccesses s) := by
  unfold Machine.endAccesses
  have hend : ∀ u : State, ClosingStep u (modSys (fun y => { y with held := [] }) (Machine.modDbg (fun d => { d with apWait := none })
      (modStore (fun m => { m with lock := none, timedOut := [], bursts := [], waiting := [] }) u))) := fun u => of_tenants rfl rfl
  refine after (hend _) <| after (foldl (fun u q => emit ..) _ _) <| after (foldl (fun u b => emit ..) _ _) ?_
  have hheld := foldl (fun u (h : HeldAccess) => giveUp h u) s.sys.held s
  split
  · exact after (apAnswer ..) hheld
  · exact hheld

theorem settlePrism (s : State) : ClosingStep s (Machine.settlePrism s) := after (tellFreed ..) (of_tenants rfl rfl)

theorem resetMedia (s : State) : ClosingStep s (Machine.resetMedia s) := by
  have hsettle := settlePrism s
  unfold Machine.resetMedia
  generalize Machine.settlePrism s = v at hsettle ⊢
  exact hsettle.trans (of_tenants rfl rfl)

end ClosingStep

/-- What a reset of every domain but AON does before it sets the resets themselves. -/
def resetWork (s : State) : State :=
  resetMedia (modWdog (fun w => { w with nmi := false })
    (wdStop (evrecStop (closeSession 2 (endAccesses (advanceCopies (cutCommit s)))))))

theorem closingStep_resetWork (s : State) : ClosingStep s (resetWork s) := by
  have hquiet : ∀ u : State, ClosingStep u (modWdog (fun w => { w with nmi := false }) (wdStop (evrecStop u))) := fun u =>
    .of_tenants rfl rfl
  exact .after (.resetMedia _) <| .after (hquiet _) <| .after (.closeSession 2 _) <| .after (.endAccesses _) <|
    .after (.advanceCopies _) (.cutCommit s)

/-- The resets themselves, and what stands at its reset value after them. -/
def resetTail (s : State) : State :=
  let s := modSys (fun y => { y with
    rst := 0x1FFFFFFE, running := false, hostBoot := false, reqFence := 0, pllLock := 0, frozen := false, coreMhz := 200
    spiWord := [] }) s
  let s := nvmOff (resetDbg s)
  let s := modLast (fun l => { l with coarse := true }) s
  { s with tenants := s.tenants.map resetEyelet, trig := { s.trig with
      stoppedAt := s.trig.stoppedAt.orElse fun _ => some s.sys.aonTicks
      pins := s.trig.pins.map fun n => { n with active := false, falls := [], reports := [] } } }

theorem resetDomains_eq (s : State) : resetDomains s = resetTail (resetWork s) := by
  simp only [resetDomains, resetTail, resetWork]

/-- A reset keeps the power state and the fuses, and the coarse counter takes the Last over. -/
theorem resetDomains_keeps (s : State) :
    (resetDomains s).pwr = s.pwr ∧ (resetDomains s).sys.fuses = s.sys.fuses ∧
      (resetDomains s).last = { s.last with coarse := true } ∧ (resetDomains s).sys.running = false := by
  have hwork := closingStep_resetWork s
  have hpwr := hwork.pwr
  have hfuses := hwork.returned.fuses
  have hlast := hwork.returned.last
  rw [resetDomains_eq]
  generalize resetWork s = w at hpwr hfuses hlast
  exact ⟨hpwr, hfuses, congrArg (fun l : Last => { l with coarse := true }) hlast, rfl⟩

/-- The parts of the state beside the recorder. -/
def besideFlash (s : State) : State := { s with free := 0, evrec := State.reset.evrec }

theorem besideFlash_modEvrec (f : Evrec → Evrec) (s : State) : besideFlash (modEvrec f s) = besideFlash s := rfl

theorem besideFlash_flashSpoil (a n : Nat) (s : State) : besideFlash (flashSpoil a n s) = besideFlash s := rfl

theorem besideFlash_spoilSector (a : Nat) (s : State) : besideFlash (spoilSector a s) = besideFlash s :=
  (besideFlash_modEvrec _ _).trans (besideFlash_flashSpoil a 4096 s)

/-- Flash work cut short changes the recorder alone. -/
theorem besideFlash_flashCut (s : State) : besideFlash (flashCut s) = besideFlash s := by
  unfold flashCut
  dsimp only
  repeat' split
  all_goals simp only [besideFlash_flashSpoil, besideFlash_spoilSector]

/-- With the engine OFF nothing runs and the coarse counter carries the Last (R385). -/
theorem modeOff_keeps (s : State) :
    (modeOff s).pwr = { openSwitches s.pwr with
      mode := .off, entering := .none, holdEn := false, chgEn := false, pwrSleep := false, ending := false, timeEnded := false
      released := false, wakeAt := none, modeEvent := none } ∧
    (modeOff s).sys.fuses = s.sys.fuses ∧ (modeOff s).last = { s.last with coarse := true } ∧ (modeOff s).sys.running = false := by
  obtain ⟨hpwr, hfuses, hlast, hrun⟩ := resetDomains_keeps (flashCut s)
  have hcut := besideFlash_flashCut s
  have hcutPwr : (flashCut s).pwr = s.pwr := (congrArg State.pwr hcut :)
  have hcutSys : (flashCut s).sys = s.sys := (congrArg State.sys hcut :)
  have hcutLast : (flashCut s).last = s.last := (congrArg State.last hcut :)
  simp only [modeOff, modStore_pwr, modPwr_pwr, modStore_sys, modPwr_sys, modStore_last, modPwr_last, hpwr, hfuses, hlast, hrun,
    hcutPwr, hcutSys, hcutLast, and_self]

/-! The Shank's measurements (R397, R401). -/

/-- The bits of the cells that a test picks, below the number of cells. -/
theorem testBit_cellSum (f : Nat → Bool) (n i : Nat) :
    (((List.range n).map fun i => if f i then 2 ^ i else 0).sum).testBit i = (decide (i < n) && f i) ∧
      ((List.range n).map fun i => if f i then 2 ^ i else 0).sum < 2 ^ n := by
  induction n with
  | zero => simp
  | succ n ih =>
    obtain ⟨hbit, hlt⟩ := ih
    rw [List.range_succ, List.map_append, List.sum_append]
    simp only [List.map_cons, List.map_nil, List.sum_cons, List.sum_nil, Nat.add_zero]
    generalize ((List.range n).map fun i => if f i then 2 ^ i else 0).sum = x at hbit hlt
    cases hf : f n with
    | false =>
      refine ⟨?_, by rw [Nat.pow_succ]; simp; omega⟩
      rw [show x + (if false = true then 2 ^ n else 0) = x from rfl, hbit]
      by_cases hin : i = n
      · subst hin; simp [hf]
      · congr 1; simp only [decide_eq_decide]; omega
    | true =>
      refine ⟨?_, by rw [Nat.pow_succ]; simp; omega⟩
      rw [show x + (if true = true then 2 ^ n else 0) = 2 ^ n + x by simp [Nat.add_comm]]
      rcases Nat.lt_trichotomy i n with hin | rfl | hin
      · rw [Nat.testBit_two_pow_add_gt hin, hbit]
        simp [hin, Nat.lt_succ_of_lt hin]
      · rw [Nat.testBit_two_pow_add_eq, Nat.testBit_lt_two_pow hlt]
        simp [hf]
      · rw [Nat.testBit_lt_two_pow]
        · simp; omega
        · calc 2 ^ n + x < 2 ^ (n + 1) := by rw [Nat.pow_succ]; omega
            _ ≤ 2 ^ i := Nat.pow_le_pow_right (by decide) hin

theorem getLsbD_cellBits (n : Nat) (f : Nat → Bool) {i : Nat} (hi : i < 12) :
    (cellBits n f).getLsbD i = (decide (i < n) && f i) := by
  rw [cellBits, BitVec.getLsbD_ofNat, (testBit_cellSum f n i).1]
  simp [hi]

/-- The power state without the marks of the cells told low. -/
def sansMarks (p : Pwr) : Pwr := { p with lowSeen := [], lowDue := 0 }

/-- A state without its events and the marks of the cells told low. -/
def sansLow (s : State) : State := sansEvents State.reset { s with pwr := sansMarks s.pwr }

theorem sansLow_lowCell (s : State) (i : Nat) : sansLow (lowCell s i) = sansLow s := by
  have htell : sansLow (tellLowCell s i) = sansLow s := by
    unfold tellLowCell
    dsimp only
    split <;> split
    · rw [sansLow, record_eq]; rfl
    · rfl
    · rw [sansLow, record_eq]; rfl
    · rfl
  unfold lowCell
  split
  · rfl
  · split
    · rfl
    · exact htell

/-- The readings of the cells, in 0.1 mV; a cell that is not there reads 0. -/
def readings (s : State) (cells : List Half) : List Nat :=
  (List.range 12).map fun i => if i < s.pwr.cells then cellReading s i (nth cells i) else 0

/-- What a measurement leaves in the power state. -/
def gaugedPwr (s : State) (cells : List Half) (ma : Int) : Pwr :=
  { s.pwr with
    volts := readings s cells, current := ma, measured := true
    low := cellBits s.pwr.cells fun i => nth (readings s cells) i < 10 * (s.pwr.balTarget - s.pwr.balWindow)
    high := cellBits s.pwr.cells fun i => 10 * s.pwr.vOv < nth (readings s cells) i }

/-- The state after a measurement, before what V_MIN asks for. -/
def gauged (s : State) (cells : List Half) (nv : BitVec 32) : State :=
  (List.range s.pwr.cells).foldl lowCell
    (modPwr (fun _ => gaugedPwr s cells (shuntCurrent nv s).1) (shuntCurrent nv s).2)

theorem shuntCurrent_state (nv : BitVec 32) (s : State) : ∃ n, (shuntCurrent nv s).2 = { s with free := n } := by
  unfold shuntCurrent
  split
  · exact ⟨s.free, rfl⟩
  · dsimp only
    split
    · exact ⟨s.free, rfl⟩
    · exact ⟨s.free + 1, rfl⟩

theorem sansLow_gauged (s : State) (cells : List Half) (nv : BitVec 32) :
    sansLow (gauged s cells nv) = sansLow { s with pwr := gaugedPwr s cells (shuntCurrent nv s).1 } := by
  obtain ⟨n, hn⟩ := shuntCurrent_state nv s
  rw [gauged, foldl_keeps sansLow sansLow_lowCell, hn]
  rfl

/-- The state after a measurement and what it ends (R395). -/
def afterMeasurement (s v : State) : State :=
  if s.pwr.vMin ≤ stackMv v then v
  else if s.pwr.mode = .holdover then holdFail 1 4 v
  else if s.pwr.mode = .sleep && s.pwr.holdEn then modeOff (tellMode engineTag 3 4 4 v)
  else v

/-- A measurement, and what it ends (R395). -/
theorem exec_cellMeasurement {s : State} {cells : List Half} (nv : BitVec 32) (hruns : shankRuns s = true)
    (hbelow : belowShank s cells = false) :
    exec (.cellMeasurement cells nv) s = .next (msixScan 16 (afterMeasurement s (gauged s cells nv))) := by
  obtain ⟨n, hn⟩ := shuntCurrent_state nv s
  have hexec : exec (.cellMeasurement cells nv) s = execCellMeasurement cells nv s := rfl
  have hvolts : modPwr (fun q => { q with
      volts := readings s cells, current := (shuntCurrent nv s).1, measured := true
      low := cellBits s.pwr.cells fun i => nth (readings s cells) i < 10 * (s.pwr.balTarget - s.pwr.balWindow)
      high := cellBits s.pwr.cells fun i => 10 * s.pwr.vOv < nth (readings s cells) i }) (shuntCurrent nv s).2 =
      modPwr (fun _ => gaugedPwr s cells (shuntCurrent nv s).1) (shuntCurrent nv s).2 := by
    rw [hn]
    rfl
  rw [hexec]
  simp only [execCellMeasurement, hruns, hbelow, Bool.not_true, Bool.false_eq_true, if_false]
  rw [← readings, hvolts, ← gauged, afterMeasurement]
  split_ifs <;> rfl

/-- Below 4.0 V no measurement is taken (R461). -/
theorem exec_cellMeasurement_below {s : State} {cells : List Half} (nv : BitVec 32) (hruns : shankRuns s = true)
    (hbelow : belowShank s cells = true) : exec (.cellMeasurement cells nv) s =
      .next (msixScan 16 (chgUpdate (modPwr (fun p => { p with measured := false, ovLatch := false }) s))) := by
  have hexec : exec (.cellMeasurement cells nv) s = execCellMeasurement cells nv s := rfl
  rw [hexec]
  simp only [execCellMeasurement, hruns, hbelow, Bool.not_true, Bool.false_eq_true, if_false, if_true]
  rfl

/-- What a measurement has stored. -/
structure Gauged (s : State) (cells : List Half) (p : Pwr) : Prop where
  measured : p.measured = true
  volts : p.volts = readings s cells
  low : p.low = cellBits s.pwr.cells fun i => nth (readings s cells) i < 10 * (s.pwr.balTarget - s.pwr.balWindow)
  high : p.high = cellBits s.pwr.cells fun i => 10 * s.pwr.vOv < nth (readings s cells) i
  current : s.pwr.shunt = 0 → p.current = 0

theorem gauged_gauged (s : State) (cells : List Half) (nv : BitVec 32) : Gauged s cells (gauged s cells nv).pwr := by
  have hpwr : sansMarks (gauged s cells nv).pwr = sansMarks (gaugedPwr s cells (shuntCurrent nv s).1) :=
    (congrArg State.pwr (sansLow_gauged s cells nv) :)
  refine ⟨(congrArg Pwr.measured hpwr :), (congrArg Pwr.volts hpwr :), (congrArg Pwr.low hpwr :), (congrArg Pwr.high hpwr :),
    fun h => (congrArg Pwr.current hpwr :).trans ?_⟩
  simp [sansMarks, gaugedPwr, shuntCurrent, h]

theorem holdFail_pwr (c k : Nat) (s : State) : (holdFail c k s).pwr =
    if s.pwr.ending then s.pwr
    else { s.pwr with ending := true, entering := if s.pwr.entering = .sleep then .none else s.pwr.entering } := by
  unfold holdFail
  split
  · rfl
  · simp [tellMode_eq]

theorem Gauged.holdFail {s v : State} {cells : List Half} (h : Gauged s cells v.pwr) (c k : Nat) :
    Gauged s cells (holdFail c k v).pwr := by
  rw [holdFail_pwr]
  split
  · exact h
  · exact ⟨h.measured, h.volts, h.low, h.high, h.current⟩

theorem nth_readings {s : State} {cells : List Half} {i : Nat} (h12 : i < 12) (hi : i < s.pwr.cells) :
    nth (readings s cells) i = cellReading s i (nth cells i) := by
  simp [readings, nth, List.getD_eq_getElem?_getD, h12, hi]

theorem Gauged.after {s v : State} {cells : List Half} (h : Gauged s cells v.pwr) :
    Gauged s cells (afterMeasurement s v).pwr := by
  unfold afterMeasurement
  split_ifs
  · exact h
  · exact h.holdFail 1 4
  · have hpwr := (modeOff_keeps (tellMode engineTag 3 4 4 v)).1
    rw [tellMode_eq, record_pwr] at hpwr
    rw [tellMode_eq, hpwr]
    exact ⟨h.measured, h.volts, h.low, h.high, h.current⟩
  · exact h

theorem afterMeasurement_low {s v : State} (hmode : s.pwr.mode = .holdover)
    (hlow : stackMv (afterMeasurement s v) < s.pwr.vMin) : (afterMeasurement s v).pwr.ending = true := by
  unfold afterMeasurement at hlow ⊢
  split at hlow
  · omega
  · next hv =>
    rw [if_neg hv, if_pos hmode, holdFail_pwr]
    split
    · assumption
    · rfl

/-- A measurement of a stack at or above 4.0 V (R395, R397, R401). -/
theorem cellMeasurement_above {s : State} {cells : List Half} (nv : BitVec 32) (hruns : shankRuns s = true)
    (hbelow : belowShank s cells = false) :
    ∃ u, exec (.cellMeasurement cells nv) s = .next (msixScan 16 u) ∧ Gauged s cells u.pwr ∧
      (s.pwr.mode = .holdover → stackMv u < s.pwr.vMin → u.pwr.ending = true) ∧
      (s.pwr.mode = .run ∨ s.pwr.mode = .quiet → sansEvents s u = { s with pwr := u.pwr }) := by
  refine ⟨_, exec_cellMeasurement nv hruns hbelow, (gauged_gauged s cells nv).after, afterMeasurement_low, fun hmode => ?_⟩
  have hkept : afterMeasurement s (gauged s cells nv) = gauged s cells nv := by
    rcases hmode with h | h <;> simp [afterMeasurement, h]
  rw [hkept]
  exact congrArg (fun x => sansEvents s { x with pwr := (gauged s cells nv).pwr }) (sansLow_gauged s cells nv)

/-- A balance tick moves the switches of its parity (R400). -/
theorem getLsbD_balanceTick (s : State) {i : Nat} (hi : i < 12) :
    (cellBits s.pwr.cells fun i => decide (i % 2 = bit s.pwr.tickOdd) &&
      (10 * (s.pwr.balTarget + s.pwr.balWindow) < nth s.pwr.volts i ||
        (s.pwr.prevSw.getLsbD i && decide (10 * s.pwr.balTarget < nth s.pwr.volts i)))).getLsbD i =
      (decide (i < s.pwr.cells) && decide (i % 2 = bit s.pwr.tickOdd) &&
        (decide (10 * (s.pwr.balTarget + s.pwr.balWindow) < nth s.pwr.volts i) ||
          (s.pwr.prevSw.getLsbD i && decide (10 * s.pwr.balTarget < nth s.pwr.volts i)))) := by
  rw [getLsbD_cellBits _ _ hi, Bool.and_assoc]

/-- CHG_EN recovers as R399 says. -/
theorem exec_chgEnRecovery (s : State) : exec .chgEnRecovery s = .next (msixScan 16 { s with pwr := { s.pwr with
    ovLatch := false, chgEn := s.pwr.charge && s.pwr.mainOk && !isFenced s fenceShank && decide (s.pwr.mode ≠ .off) } }) := by
  have hexec : exec .chgEnRecovery s = fin (chgUpdate (modPwr (fun p => { p with ovLatch := false }) s)) := rfl
  have hstate : chgUpdate (modPwr (fun p => { p with ovLatch := false }) s) = { s with pwr := { s.pwr with
      ovLatch := false, chgEn := s.pwr.charge && s.pwr.mainOk && !isFenced s fenceShank && decide (s.pwr.mode ≠ .off) } } := by
    by_cases hoff : s.pwr.mode = .off <;> simp [chgUpdate, modPwr, isFenced, hoff]
  rw [hexec, hstate]
  rfl

/-- Settles O56: what each event writes into the power state. -/
theorem shankEvents : Obligations.ShankEvents := by
  refine ⟨fun cells nv s hruns hbelow => ?_, fun cells nv s hruns hbelow => ?_, fun s => ?_, fun s hmode => ?_, fun s hok hfence => ?_,
    fun cell mv s hcell hmv => ?_, exec_chgEnRecovery, fun theta s hhot hth => ?_, fun theta s hhot hth => ?_⟩
  · exact ⟨_, exec_cellMeasurement_below nv hruns hbelow, rfl, rfl, by simp [holdArmed, chgUpdate], rfl⟩
  · obtain ⟨u, hexec, hg, hlow, hkeep⟩ := cellMeasurement_above nv hruns hbelow
    refine ⟨u, hexec, hg.measured, by rw [hg.volts]; simp [readings], fun i h12 hi => ?_, hg.current, hlow, hkeep⟩
    rw [hg.low, hg.high, hg.volts, getLsbD_cellBits _ _ h12, getLsbD_cellBits _ _ h12]
    simp [nth_readings h12 hi, hi]
  · refine ⟨_, rfl, rfl, ?_, fun hb => ?_, fun hb i hi => ?_⟩
    · rw [modPwr_pwr]; split <;> rfl
    · rw [modPwr_pwr, if_neg (by simp [hb])]; rfl
    · rw [modPwr_pwr, if_pos hb]
      exact getLsbD_balanceTick s hi
  · refine ⟨_, if_neg hmode, ?_⟩
    split
    · rw [sansEvents_record]; rfl
    · rfl
  · exact if_neg (by simp [hok, hfence])
  · have hguard : ¬ (s.pwr.cells ≤ cell.val || mv.toNat ≤ s.pwr.vOv) = true := by simpa using ⟨hcell, hmv⟩
    refine ⟨_, if_neg hguard, ?_⟩
    split
    · simp [chgUpdate, sansEvents]
    · rw [sansEvents_record]; simp [chgUpdate, sansEvents]
  · exact if_neg (by simp [hhot]; omega)
  · refine ⟨_, if_neg (by simp [hhot]; omega), ?_⟩
    rw [sansEvents_record]; rfl

end Sys2Proof.Machine
end

section
/-! The watchdog (14), and halting, stepping and writing a Lens core (17). -/

namespace Sys2Proof.Machine

/-! The watchdog's expiry (R374). -/

/-- Expiry keeps the state beside the interrupt, the pins and what its handler does to ports, recorder and packets. -/
structure Expired (cause : Nat) (s u : State) : Prop where
  grace : u.wdog.grace = true
  cause : u.wdog.cause = cause
  retained : u.wdog.cRetained = s.wdog.c
  fault : faultN u = false
  trig : u.trig = (freezePins s).trig
  last : u.last = s.last
  store : u.store = s.store
  ticks : u.sys.aonTicks = s.sys.aonTicks

theorem startDump_frame (k : Nat) (b : Bool) (s : State) :
    (startDump k b s).wdog = s.wdog ∧ (startDump k b s).trig = s.trig ∧ (startDump k b s).last = s.last ∧
      (startDump k b s).store = s.store ∧ (startDump k b s).sys.aonTicks = s.sys.aonTicks := by
  unfold startDump
  split
  · split <;> simp
  · simp

theorem expired_expire (cause : Nat) (s : State) : Expired cause s (expire cause s) := by
  unfold expire
  dsimp only
  generalize hv : freezePins (modWdog (fun w => { w with grace := true, nmi := true, cause := cause, cRetained := w.c }) s) = v
  have hwdog : v.wdog = { s.wdog with grace := true, nmi := true, cause := cause, cRetained := s.wdog.c } := by rw [← hv]; rfl
  have htrig : v.trig = (freezePins s).trig := by rw [← hv]; rfl
  have hrest : v.last = s.last ∧ v.store = s.store ∧ v.sys.aonTicks = s.sys.aonTicks := by
    rw [← hv]
    exact ⟨rfl, rfl, rfl⟩
  obtain ⟨hlast, hstore, hticks⟩ := hrest
  split
  · exact ⟨by rw [hwdog], by rw [hwdog], by rw [hwdog], by simp [faultN, hwdog], htrig, hlast, hstore, hticks⟩
  · have hkept : (nmiHandler v).wdog = { v.wdog with nmi := false } ∧ (nmiHandler v).trig = v.trig ∧ (nmiHandler v).last = v.last ∧
        (nmiHandler v).store = v.store ∧ (nmiHandler v).sys.aonTicks = v.sys.aonTicks := by
      simp [nmiHandler, startDump_frame, fadeAllPorts]
    obtain ⟨hw, ht, hl, hs, ha⟩ := hkept
    exact ⟨by rw [hw, hwdog], by rw [hw, hwdog], by rw [hw, hwdog], by simp [faultN, hw, hwdog], ht.trans htrig, hl.trans hlast,
      hs.trans hstore, ha.trans hticks⟩

/-! The edge of AON_FAST that passes with no command waiting (log entry 1). -/

/-- What the watchdog's count depends on. -/
def wdView (s : State) : Wdog × Dbg × Nat × List Fuse × Bool := (s.wdog, s.dbg, s.sys.aonTicks, s.sys.shadow, s.sys.running)

theorem wdView_serveLine (s : State) (p : Nat) : wdView (serveLine s p) = wdView s := by
  have hsend : ∀ p x u, wdView (sendFirst p x u) = wdView u := fun p x u => by
    unfold sendFirst
    split <;> rfl
  unfold serveLine
  dsimp only
  split
  · rfl
  · split
    · rfl
    · split
      · exact hsend ..
      · split
        · exact hsend ..
        · rfl

theorem wdView_sendTail (p : Nat) (s : State) : wdView (sendTail p s) = wdView s := by
  unfold sendTail
  split <;> rfl

theorem wdView_tickHours (s : State) : wdView (tickHours s) = wdView s := by
  unfold tickHours
  dsimp only
  repeat' split
  all_goals simp [wdView]

theorem matrixCycle_nil {s : State} (hw : s.store.waiting = []) (hb : s.store.bursts = [])
    (ht : s.tenants.all (fun n => n.taken = []) = true) : wdView (matrixCycle [] s) = wdView s ∧
      (matrixCycle [] s).tenants = s.tenants := by
  have hnone : finishBursts s = modStore (fun m => { m with bursts := [] }) s := by simp [finishBursts, hb]
  have harb : matrixCycle [] s = afterLock s (modStore (fun m => { m with waiting := m.waiting ++ [] })
      (modStore (fun m => { m with bursts := [] }) s)) := by
    unfold matrixCycle
    rw [hnone]
    simp [hw, arbitrate]
  rw [harb, afterLock_of_none s (by exact ht)]
  exact ⟨rfl, rfl⟩

/-- The state in which the watchdog counts. -/
def beforeTick (s : State) : State :=
  tickHours (modSys (fun y => { y with aonTicks := y.aonTicks + 1 }) (serveTails (serveLines (runWaiting (matrixCycle [] s)))))

theorem wdView_beforeTick {s : State} (hw : s.store.waiting = []) (hb : s.store.bursts = [])
    (ht : s.tenants.all (fun n => n.taken = []) = true) :
    wdView (beforeTick s) = (s.wdog, s.dbg, s.sys.aonTicks + 1, s.sys.shadow, s.sys.running) := by
  obtain ⟨hview, htenants⟩ := matrixCycle_nil hw hb ht
  generalize hm : matrixCycle [] s = m at hview htenants
  have hwait : runWaiting m = m := by
    unfold runWaiting
    split
    · exact runTaken_of_none (htenants ▸ ht) 128
    · rfl
  have hlines : wdView (serveLines m) = wdView m := foldl_keeps wdView wdView_serveLine _ m
  have htails : wdView (serveTails (serveLines m)) = wdView (serveLines m) :=
    foldl_keeps wdView (fun u p => by split; exacts [wdView_sendTail p u, rfl]) _ _
  have hall := htails.trans (hlines.trans hview)
  rw [beforeTick, hm, hwait, wdView_tickHours]
  generalize serveTails (serveLines m) = x at hall
  exact congrArg (fun x : Wdog × Dbg × Nat × List Fuse × Bool => (x.1, x.2.1, x.2.2.1 + 1, x.2.2.2)) hall

theorem step_idle {s : State} (hp : s.pending = []) (hclk : s.sys.clkOk.getLsbD 0 = true) :
    step s = .next (msixScan 16 (wdTick (beforeTick s))) := by
  simp only [step, hp, idleStep, hclk, Bool.not_true, Bool.false_eq_true, if_false]
  rfl

theorem fwBounds (s : State) : fwFirst s ≤ fwEdge s ∧ fwEdge s ≤ fwLast s := by
  have hle : fwFirst s ≤ fwLast s := by unfold fwFirst fwLast; omega
  have hmod := Nat.mod_lt (Config.fwServe s.wdog.periods) (Nat.succ_pos (fwLast s - fwFirst s))
  unfold fwEdge
  simp only [Nat.succ_eq_add_one] at hmod
  omega

theorem wdW_le_fwFirst (s : State) : wdW s ≤ fwFirst s := by unfold fwFirst; omega

/-- One edge of AON_FAST: the count goes on, the firmware's keys land, or the period ends (R367, R371, R373). -/
theorem wdTick_counts {s : State} (hrun : s.wdog.running = true) (hgrace : s.wdog.grace = false) (hfrozen : wdFrozen s = false) :
    (s.wdog.c + 1 < wdP s →
      (fwServes s = false → (wdTick s).wdog = { s.wdog with c := s.wdog.c + 1 }) ∧
      (fwServes s = true → s.wdog.c + 2 < fwEdge s → s.wdog.armed = false → (wdTick s).wdog = { s.wdog with c := s.wdog.c + 1 }) ∧
      (fwServes s = true → s.wdog.c + 2 = fwEdge s → s.wdog.armed = false →
        (wdTick s).wdog = { s.wdog with c := s.wdog.c + 1, armed := true }) ∧
      (fwServes s = true → fwEdge s = s.wdog.c + 1 → s.wdog.armed = true →
        (wdTick s).wdog = { s.wdog with c := 0, armed := false, periods := s.wdog.periods + 1 })) ∧
    (wdP s ≤ s.wdog.c + 1 → (wdTick s).wdog.grace = true ∧ (wdTick s).wdog.cause = 0) := by
  generalize hv : modWdog (fun w => { w with c := w.c + 1 }) s = v
  have hwdog : v.wdog = { s.wdog with c := s.wdog.c + 1 } := by rw [← hv]; rfl
  have hP : wdP v = wdP s := by rw [← hv]; rfl
  have hserves : fwServes v = fwServes s := by rw [← hv]; rfl
  have hedge : fwEdge v = fwEdge s := by rw [← hv]; rfl
  have hlast : fwLast v = fwLast s := by rw [← hv]; rfl
  have hW : wdW v = wdW s := by rw [← hv]; rfl
  have htick : wdTick s = if s.wdog.c + 1 < wdP s then fwKey v else expire 0 v := by
    rw [wdTick, if_neg (by simp [hrun, hgrace, hfrozen])]
    dsimp only
    rw [hv, hwdog, hP]
  obtain ⟨hfirst, hle⟩ := fwBounds s
  have hwin := wdW_le_fwFirst s
  refine ⟨fun hlt => ?_, fun hge => ?_⟩
  · rw [htick, if_pos hlt]
    simp only [fwKey, hserves, hedge, hlast, hwdog]
    refine ⟨fun h => ?_, fun h hc ha => ?_, fun h hc ha => ?_, fun h hc ha => ?_⟩
    · simp [h, hwdog]
    · rw [if_neg (by simp [h]), if_neg (by simp [ha]), if_neg (by simp; omega), hwdog]
    · rw [if_neg (by simp [h]), if_neg (by simp [ha]), if_pos (by simp; omega)]
      simp [wdJudge, hwdog, hrun, hgrace]
    · rw [if_neg (by simp [h]), if_pos ha, if_pos (by simp; omega)]
      have hopen : ¬ s.wdog.c + 1 < wdW s := by omega
      simp [wdJudge, hwdog, hrun, hgrace, ha, hW, hopen, wdRestart]
  · rw [htick, if_neg (by omega)]
    have h := expired_expire 0 v
    exact ⟨h.grace, h.cause⟩

theorem aonTicks_wdTick (s : State) : (wdTick s).sys.aonTicks = s.sys.aonTicks := by
  have hjudge : ∀ k u, (wdJudge k u).sys.aonTicks = u.sys.aonTicks := fun k u => by
    unfold wdJudge
    split_ifs
    · rfl
    · rfl
    · exact (expired_expire 2 u).ticks
    · exact (expired_expire 1 u).ticks
    · rfl
    · exact (expired_expire 3 u).ticks
  unfold wdTick
  dsimp only
  split
  · rfl
  · split
    · unfold fwKey
      dsimp only
      split_ifs
      · rfl
      · exact hjudge ..
      · rfl
      · exact hjudge ..
      · rfl
    · exact (expired_expire 0 _).ticks

/-- Key writes as Table 14.3 judges them. -/
theorem wdJudge_cases {s : State} (hrun : s.wdog.running = true) (hgrace : s.wdog.grace = false) (v : Word) :
    wdJudge v s = if v = 0xA7E1 then modWdog (fun w => { w with armed := true }) s
      else if v = 0x5C0B then
        if s.wdog.armed = false then expire 2 s else if s.wdog.c < wdW s then expire 1 s else wdRestart s
      else expire 3 s := by
  simp [wdJudge, hrun, hgrace]

/-- Settles O52: how each key write and each edge is judged; what an expiry leaves is `Expired`. -/
theorem watchdogJudges : Obligations.WatchdogJudges := by
  refine ⟨fun v s hsrc hrun hgrace => ?_, fun v s hsrc => if_pos hsrc, fun s hrun hgrace hfrozen hserves => ?_,
    fun s hp hclk hw hb ht => ?_, fwBounds⟩
  · have hexec : exec (.wdogServe v) s = .next (msixScan 16 (wdJudge v s)) := if_neg (by simp [hsrc])
    rw [wdJudge_cases hrun hgrace] at hexec
    have hexpires : ∀ c, exec (.wdogServe v) s = .next (msixScan 16 (expire c s)) →
        ∃ u, exec (.wdogServe v) s = .next (msixScan 16 u) ∧ u.wdog.grace = true ∧ u.wdog.cause = c ∧
          u.wdog.cRetained = s.wdog.c ∧ faultN u = false ∧ u.trig = (freezePins s).trig ∧ u.last = s.last ∧ u.store = s.store :=
      fun c h =>
        have he := expired_expire c s
        ⟨_, h, he.grace, he.cause, he.retained, he.fault, he.trig, he.last, he.store⟩
    dsimp only
    split_ifs at hexec ⊢
    · exact hexec
    · exact hexpires 2 hexec
    · exact hexpires 1 hexec
    · exact hexec
    · exact hexpires 3 hexec
  · have hexec : exec .watchdogExpiry s = .next (msixScan 16 (expire 0 (modWdog (fun w => { w with c := wdP s }) s))) :=
      if_neg (by simpa [hrun, hgrace, hfrozen] using hserves)
    have he := expired_expire 0 (modWdog (fun w => { w with c := wdP s }) s)
    exact ⟨_, hexec, he.grace, he.cause, he.retained, he.fault, he.trig⟩
  · have hview := wdView_beforeTick hw hb ht
    refine ⟨_, step_idle hp hclk, ?_⟩
    generalize beforeTick s = v at hview
    have hwdog : v.wdog = s.wdog := (congrArg (fun x : Wdog × Dbg × Nat × List Fuse × Bool => x.1) hview :)
    have hdbg : v.dbg = s.dbg := (congrArg (fun x : Wdog × Dbg × Nat × List Fuse × Bool => x.2.1) hview :)
    have hticks : v.sys.aonTicks = s.sys.aonTicks + 1 := (congrArg (fun x : Wdog × Dbg × Nat × List Fuse × Bool => x.2.2.1) hview :)
    have hshadow : v.sys.shadow = s.sys.shadow := (congrArg (fun x : Wdog × Dbg × Nat × List Fuse × Bool => x.2.2.2.1) hview :)
    have hrunning : v.sys.running = s.sys.running := (congrArg (fun x : Wdog × Dbg × Nat × List Fuse × Bool => x.2.2.2.2) hview :)
    have hsh : ∀ f, shadowOf v f = shadowOf s f := fun f => by rw [shadowOf, shadowOf, hshadow]
    have hfz : wdFrozen v = wdFrozen s := by rw [wdFrozen, wdFrozen, ctlHalted, ctlHalted, hdbg]
    have hP : wdP v = wdP s := by rw [wdP, wdP, hwdog]
    have hW : wdW v = wdW s := by rw [wdW, wdW, wdFrac, wdFrac, hsh, hwdog]
    have hsv : fwServes v = fwServes s := by rw [fwServes, fwServes, wdSrc, wdSrc, hsh, hrunning, ctlHalted, ctlHalted, hdbg]
    have hedge : fwEdge v = fwEdge s := by simp only [fwEdge, fwFirst, fwLast, hP, hW, hwdog]
    refine ⟨(aonTicks_wdTick v).trans hticks, fun h => ?_, fun hrun hgrace hfrozen => ?_⟩
    · rw [wdTick, if_pos (by rw [hfz, hwdog]; rcases h with h | h | h <;> simp [h]), hwdog]
    · have h := wdTick_counts (s := v) (hwdog ▸ hrun) (hwdog ▸ hgrace) (hfz ▸ hfrozen)
      rwa [hwdog, hP, hsv, hedge] at h

/-! Halts and steps (R443, R444). -/

theorem getLsbD_setBit_other {w i k : Nat} (v : BitVec w) (b : Bool) (h : k ≠ i) : (setBit v i b).getLsbD k = v.getLsbD k := by
  have hpow : (BitVec.ofNat w (2 ^ i)).getLsbD k = false := by
    rw [BitVec.getLsbD_ofNat, Nat.testBit_two_pow_of_ne (Ne.symm h), Bool.and_false]
  unfold setBit
  split
  · rw [BitVec.getLsbD_or, hpow, Bool.or_false]
  · by_cases hk : k < w
    · simp only [BitVec.getLsbD_and, BitVec.getLsbD_not, hpow, hk, decide_true, Bool.not_false, Bool.and_true]
    · simp [BitVec.getLsbD_of_ge _ _ (Nat.le_of_not_lt hk)]

theorem setHalted_frame (k : Nat) (on : Bool) (s : State) :
    (setHalted k on s).dbg.halted = setBit s.dbg.halted k on ∧ (setHalted k on s).dbg.haltReq = setBit s.dbg.haltReq k false ∧
      (setHalted k on s).lens = s.lens ∧ (setHalted k on s).last = s.last := by
  simp [setHalted]

/-- Under the engine's scope the session covers every core. -/
theorem mem_coveredCores {s : State} {x : Session} (hx : s.dbg.session = some x) (hscope : x.scope = 16) {cores : BitVec 9} {k : Nat} :
    k ∈ coveredCores s cores ↔ k < 9 ∧ cores.getLsbD k = true := by
  simp [coveredCores, scopeCovers, hx, hscope]

theorem coveredCores_none {s : State} (hnone : s.dbg.session = none) (cores : BitVec 9) : coveredCores s cores = [] := by
  simp [coveredCores, scopeCovers, hnone]

/-- One core named by DBG_HALT. -/
def askHalt (s : State) (k : Nat) : State :=
  if s.dbg.halted.getLsbD k then s else modDbg (fun d => { d with haltReq := setBit d.haltReq k true }) s

theorem foldl_askHalt (l : List Nat) (s : State) :
    l.foldl askHalt s = { s with dbg := { s.dbg with haltReq := (l.foldl askHalt s).dbg.haltReq } } ∧
      ∀ k, k < 9 → (l.foldl askHalt s).dbg.haltReq.getLsbD k = (s.dbg.haltReq.getLsbD k || (decide (k ∈ l) && !s.dbg.halted.getLsbD k)) := by
  induction l generalizing s with
  | nil => exact ⟨rfl, fun k _ => by simp⟩
  | cons j l ih =>
    obtain ⟨hrest, hbits⟩ := ih (askHalt s j)
    by_cases hj : s.dbg.halted.getLsbD j = true
    · have hsame : askHalt s j = s := if_pos hj
      rw [hsame] at hrest hbits
      rw [List.foldl_cons, hsame]
      refine ⟨hrest, fun k hk => ?_⟩
      rw [hbits k hk]
      by_cases hkj : k = j
      · subst hkj; simp [hj]
      · simp [hkj]
    · have hask : askHalt s j = modDbg (fun d => { d with haltReq := setBit d.haltReq j true }) s := if_neg hj
      rw [List.foldl_cons]
      refine ⟨by rw [hrest, hask]; rfl, fun k hk => ?_⟩
      rw [hbits k hk, hask]
      simp only [modDbg_dbg]
      by_cases hkj : k = j
      · subst hkj
        rw [getLsbD_setBit_self _ _ hk]
        simp [hj]
      · rw [getLsbD_setBit_other _ _ hkj]
        simp [hkj]

/-- One core named by DBG_RESUME. -/
def resumeOne (s : State) (k : Nat) : State :=
  if s.dbg.halted.getLsbD k then setHalted k false s else modDbg (fun d => { d with haltReq := setBit d.haltReq k false }) s

theorem foldl_resumeOne (l : List Nat) (s : State) :
    (l.foldl resumeOne s).lens = s.lens ∧ (l.foldl resumeOne s).last = s.last ∧
      ∀ k, k < 9 → (l.foldl resumeOne s).dbg.halted.getLsbD k = (s.dbg.halted.getLsbD k && !decide (k ∈ l)) := by
  induction l generalizing s with
  | nil => exact ⟨rfl, rfl, fun k _ => by simp⟩
  | cons j l ih =>
    obtain ⟨hlens, hlast, hbits⟩ := ih (resumeOne s j)
    have hone : (resumeOne s j).lens = s.lens ∧ (resumeOne s j).last = s.last ∧
        ∀ k, k < 9 → (resumeOne s j).dbg.halted.getLsbD k = (s.dbg.halted.getLsbD k && !decide (k = j)) := by
      unfold resumeOne
      split
      · obtain ⟨hh, -, hl, hlast⟩ := setHalted_frame j false s
        refine ⟨hl, hlast, fun k hk => ?_⟩
        rw [hh]
        by_cases hkj : k = j
        · subst hkj; simp [getLsbD_setBit_self _ _ hk, -BitVec.getLsbD_eq_getElem]
        · simp [getLsbD_setBit_other _ _ hkj, hkj, -BitVec.getLsbD_eq_getElem]
      · next hj =>
        refine ⟨rfl, rfl, fun k hk => ?_⟩
        by_cases hkj : k = j
        · subst hkj
          simpa using hj
        · simp [hkj]
    rw [List.foldl_cons]
    refine ⟨hlens.trans hone.1, hlast.trans hone.2.1, fun k hk => ?_⟩
    rw [hbits k hk, hone.2.2 k hk]
    by_cases hkj : k = j <;> simp [hkj]

/-- A step of a halted Lens core runs one instruction and halts it again. -/
theorem stepCore_lens {n : Fin 8} {s : State} (hhalted : s.dbg.halted.getLsbD (1 + n) = true) (hlive : lensLive s n = true) :
    stepCore s (1 + n) =
      setHalted (1 + n) true (lensSteps 4098 n (modDbg (fun d => { d with halted := setBit d.halted (1 + n) false }) s)) := by
  have hlive' : lensLive (modDbg (fun d => { d with halted := setBit d.halted (1 + n) false }) s) n = true := hlive
  have hindex : (1 + n.val) - 1 = n.val := by omega
  have hfin : Fin.ofNat 8 n.val = n := Fin.ext (Nat.mod_eq_of_lt n.isLt)
  simp only [stepCore, hhalted, Bool.not_true, Bool.false_eq_true, if_false, hindex, hlive', if_true, hfin]
  rw [if_neg (by omega)]

/-- A debug register of a core below 16 holds what is written to it. -/
theorem selRead_selWrite {c : LensCore} {r : Nat} (h : r < 16) (hd : c.d.length = 16) (v : Word) :
    selRead (selWrite r v c) r = v := by
  have hreg : physD c r < c.d.length := by unfold physD; split <;> omega
  have hwrite : selWrite r v c = { c with d := updAt c.d (physD c r) fun _ => v } := by
    simp only [selWrite, if_pos (show r ≤ 41 by omega), writeSel, if_pos h]
  simp only [selRead, if_pos (show r ≤ 41 by omega), readSel, if_pos h, hwrite]
  exact nth_updAt_self _ _ _ hreg

theorem shaped_lens {s : State} (h : shaped s = true) : s.lens.length = 8 ∧ s.lens.all coreShaped = true := by
  simp only [shaped, Bool.and_eq_true, decide_eq_true_eq] at h
  simp only [h, and_self]

/-- Every core of a shaped state has its sixteen D registers. -/
theorem shaped_core_d {s : State} (h : shaped s = true) (n : Fin 8) : (s.core n).d.length = 16 := by
  obtain ⟨hlen, hall⟩ := shaped_lens h
  have hmem : s.core n ∈ s.lens := by
    simp only [State.core, nth, List.getD_eq_getElem?_getD]
    rw [List.getElem?_eq_getElem (by omega), Option.getD_some]
    exact List.getElem_mem _
  have hcore := List.all_eq_true.1 hall _ hmem
  simp only [coreShaped, Bool.and_eq_true, decide_eq_true_eq] at hcore
  simp only [hcore]

/-- Settles O60: what each write of the debugger does to the cores it covers. -/
theorem debugHalts : Obligations.DebugHalts := by
  refine ⟨fun cores x s hx hscope => ?_, fun core s hreq hhalted => ⟨fun hpoint => ?_, fun h0 hrun hpoint => ?_⟩,
    fun cores x s hx hscope hctl => ?_, fun n x s hx hscope hhalted hlive => ?_, fun n v s hshaped hcovers hhalted => ?_,
    fun cores n v s hnone => ?_⟩
  · obtain ⟨hrest, hbits⟩ := foldl_askHalt (coveredCores s cores) s
    refine ⟨(coveredCores s cores).foldl askHalt s, rfl, hrest, fun k hk => ?_⟩
    rw [hbits k hk]
    simp [mem_coveredCores hx hscope, hk]
  · obtain ⟨v, hexec, hdbg, hlens, hlast⟩ : ∃ v, exec (.coreHalted core) s = .next (msixScan 16 (setHalted core true v)) ∧
        v.dbg.halted = s.dbg.halted ∧ v.lens = s.lens ∧ v.last = s.last := by
      have hstart : exec (.coreHalted core) s = execCoreHalted core s := rfl
      rw [hstart, execCoreHalted]
      rw [if_neg (by simp only [hreq, hhalted]; decide)]
      by_cases h0 : core.val = 0
      · rw [if_pos h0, h0]
        exact ⟨drawCtlPc s, rfl, rfl, rfl, rfl⟩
      · rw [if_neg h0, if_neg]
        · exact ⟨s, rfl, rfl, rfl, rfl⟩
        · rcases hpoint with h | h | h
          · exact absurd h h0
          · simp [h]
          · simp [h]
    obtain ⟨hh, hr, hl, hla⟩ := setHalted_frame core true v
    refine ⟨_, hexec, ?_, ?_, fun k _ hkc => ?_, hl.trans hlens, hla.trans hlast⟩
    · rw [hh, getLsbD_setBit_self _ _ core.isLt]
    · rw [hr, getLsbD_setBit_self _ _ core.isLt]
    · rw [hh, getLsbD_setBit_other _ _ (Fin.val_ne_of_ne hkc), hdbg]
  · have hstart : exec (.coreHalted core) s = execCoreHalted core s := rfl
    rw [hstart, execCoreHalted]
    rw [if_neg (by simp only [hreq, hhalted]; decide), if_neg h0, if_pos]
    simp [hpoint, Option.isSome_iff_ne_none, hrun]
  · obtain ⟨hlens, hlast, hbits⟩ := foldl_resumeOne (coveredCores s cores) s
    have hafter : afterHalt s ((coveredCores s cores).foldl resumeOne s) = (coveredCores s cores).foldl resumeOne s := by
      rw [afterHalt, if_neg (by simp [hctl])]
    have hexec : exec (.dbgResume cores) s = .next (msixScan 16 ((coveredCores s cores).foldl resumeOne s)) :=
      congrArg fin hafter
    refine ⟨_, hexec, fun k hk => ?_, hlens, hlast⟩
    rw [hbits k hk]
    simp [mem_coveredCores hx hscope, hk]
  · have hcores : coveredCores s (BitVec.ofNat 9 (2 ^ (1 + n.val))) = [1 + n.val] := by
      simp only [coveredCores, scopeCovers, hx, hscope, decide_true, Bool.true_or, Bool.and_true]
      fin_cases n <;> rfl
    have hexec : exec (.dbgStep (BitVec.ofNat 9 (2 ^ (1 + n.val)))) s = .next (msixScan 16 (stepCore s (1 + n))) := by
      have hfold : stepCores (BitVec.ofNat 9 (2 ^ (1 + n.val))) s = stepCore s (1 + n) := by rw [stepCores, hcores]; rfl
      exact congrArg fin hfold
    rw [stepCore_lens hhalted hlive] at hexec
    obtain ⟨hh, -, hl, -⟩ := setHalted_frame (1 + n) true
      (lensSteps 4098 n (modDbg (fun d => { d with halted := setBit d.halted (1 + n) false }) s))
    exact ⟨_, hexec, by rw [hh, getLsbD_setBit_self _ _ (by omega)], hl⟩
  · have hwrite : lcnDataWrite n v s = modLens n (selWrite (nth s.dbg.sel n).toNat v) s := by
      rw [lcnDataWrite, if_pos (by simp [hcovers, hhalted])]
    have hn : n.val < s.lens.length := by rw [(shaped_lens hshaped).1]; exact n.isLt
    refine ⟨_, congrArg fin hwrite, core_modLens_self _ hn, fun k hk => core_modLens_other _ _ (Fin.val_ne_of_ne hk), rfl, fun hsel => ?_⟩
    rw [core_modLens_self _ hn]
    exact selRead_selWrite hsel (shaped_core_d hshaped n) v
  · have hcov := coveredCores_none hnone cores
    have hlcn : lcnDataWrite n v s = s := by rw [lcnDataWrite, if_neg (by simp [scopeCovers, hnone])]
    refine ⟨congrArg fin ?_, congrArg fin ?_, congrArg fin ?_, congrArg fin hlcn⟩
    · rw [requestHalt, hcov]; rfl
    · rw [resumeCores, hcov, List.foldl_nil, afterHalt, if_neg (by cases ctlHalted s <;> simp)]
    · rw [stepCores, hcov]; rfl

end Sys2Proof.Machine
end

section
/-! The recorder's work on the flash (13). -/

namespace Sys2Proof.Machine

/-! Bytes programmed into the flash. -/

theorem flashByte_flashPut_cells (a : Nat) (l : List Byte) (c : List (Nat × Byte)) (b : Nat) :
    (assoc (flashPut a l c) b).getD 0xFF = if a ≤ b ∧ b < a + l.length then l.getD (b - a) 0 else (assoc c b).getD 0xFF := by
  induction l generalizing a c with
  | nil => simp [flashPut]
  | cons x l ih =>
    rw [flashPut, ih]
    by_cases hfirst : b = a
    · subst hfirst
      rw [if_neg (by omega), if_pos (show b ≤ b ∧ b < b + (x :: l).length by simp), Nat.sub_self]
      by_cases hx : x = 0xFF
      · rw [if_pos hx, assoc_assocDel, if_pos rfl, hx]
        rfl
      · rw [if_neg hx, assoc_assocSet_same]
        rfl
    · have hother : (assoc (if x = 0xFF then assocDel c a else assocSet c a x) b) = assoc c b := by
        split
        · rw [assoc_assocDel, if_neg hfirst]
        · exact assoc_assocSet_other _ _ _ _ (Ne.symm hfirst)
      rw [hother]
      simp only [List.length_cons]
      by_cases hin : a + 1 ≤ b ∧ b < a + 1 + l.length
      · rw [if_pos hin, if_pos (by omega)]
        obtain ⟨k, rfl⟩ : ∃ k, b = a + (k + 1) := ⟨b - a - 1, by omega⟩
        rw [show a + (k + 1) - (a + 1) = k by omega, show a + (k + 1) - a = k + 1 by omega]
        rfl
      · rw [if_neg hin, if_neg (by omega)]

/-- A byte of the flash after a program: the byte programmed there, or what stood there before. -/
theorem flashByte_flashPut (f : Flash) (a : Nat) (l : List Byte) (b : Nat) :
    flashByte { f with cells := flashPut a l f.cells } b =
      if a ≤ b ∧ b < a + l.length then l.getD (b - a) 0 else flashByte f b := flashByte_flashPut_cells a l f.cells b

/-- The bytes programmed are read back. -/
theorem flashBytes_flashPut (f : Flash) (a : Nat) (l : List Byte) :
    flashBytes { f with cells := flashPut a l f.cells } a l.length = l := by
  refine List.ext_getElem (by simp [flashBytes]) fun i h h' => ?_
  simp only [flashBytes, List.getElem_map, List.getElem_range, flashByte_flashPut]
  rw [if_pos (by omega), show a + i - a = i by omega, List.getD_eq_getElem?_getD, List.getElem?_eq_getElem h', Option.getD_some]

/-! The recorder beside its channels. -/

/-- The recorder without what an event adds to its channels. -/
def sansRecords (e : Evrec) : Evrec :=
  { e with queue := [], ring := [], bOld := [], bHead := 0, buckets := [], global := (0, 0), supp := [], suppressed := 0 }

theorem sansRecords_recordC (code origin : Nat) (d : List Byte) (v : Bool) (t h : Nat) (raw : Bool) (s : State) :
    sansRecords (recordC code origin d v t h raw s).evrec = sansRecords s.evrec := by
  unfold recordC
  rcases Bool.eq_false_or_eq_true (exemptCode code) with hex | hex <;> simp only [hex, if_true, Bool.false_eq_true, if_false] <;> split
  · rfl
  · split <;> rfl
  · rfl
  · split <;> rfl

/-- An event leaves the recorder's flash, counts and positions. -/
theorem sansRecords_record (code origin : Nat) (d : List (Nat × Nat)) (s : State) :
    sansRecords (record code origin d s).evrec = sansRecords s.evrec := by
  by_cases hs : s.evrec.bService = true
  · rw [record_inService hs, sansRecords_recordC]
    rfl
  · rw [record_outOfService (by simpa using hs)]
    rfl

/-! Steps of channel C. -/

/-- HOURS and CYCLES settle once, from the newest record where there is one (R480). -/
theorem settle_evrec (newest : Option (List Byte)) (s : State) :
    (settle newest s).evrec.settled = true ∧ (settle newest s).evrec.flash = s.evrec.flash ∧
      (s.evrec.settled = false →
        (settle newest s).evrec.hours = s.evrec.hours + (newest.map fun bs => peekLe bs 8 4).getD 0 ∧
        (settle newest s).evrec.cycles = (newest.map fun bs => min (peekLe bs 12 3 + 1) 0xFFFFFF).getD 1) ∧
      settle newest s = { s with evrec := (settle newest s).evrec } := by
  unfold settle
  split
  · next h => exact ⟨h, rfl, fun h' => absurd (h.symm.trans h') nofun, rfl⟩
  · cases newest with
    | none => exact ⟨rfl, rfl, fun _ => ⟨rfl, rfl⟩, rfl⟩
    | some bs => exact ⟨rfl, rfl, fun _ => ⟨rfl, rfl⟩, rfl⟩

/-- What a scan leaves, with the newest record found (R360). -/
structure Scanned (best : Option (Nat × List Byte)) (s u : State) : Prop where
  state : u.evrec.cState = 2
  settled : u.evrec.settled = true
  flash : u.evrec.flash = s.evrec.flash
  head : u.evrec.cHead = (best.map fun x => nextSeq (recSeq x.2)).getD 0
  first : best = none → u.evrec.writePos = 0
  counts : s.evrec.settled = false →
    u.evrec.hours = s.evrec.hours + (best.map fun x => peekLe x.2 8 4).getD 0 ∧
    u.evrec.cycles = (best.map fun x => min (peekLe x.2 12 3 + 1) 0xFFFFFF).getD 1
  rest : sansEvents s u = { s with
    pwr := { s.pwr with modeEvent := u.pwr.modeEvent }
    tenants := s.tenants.map fun n => if n.markDue then { n with openC := u.evrec.cHead, markDue := false } else n }

/-- An event, or the telling of a mode, leaves what a scan has found. -/
theorem Scanned.of_sansRecords {best : Option (Nat × List Byte)} {s u v : State} (h : Scanned best s u)
    (hrec : sansRecords v.evrec = sansRecords u.evrec)
    (hrest : sansEvents s v = { sansEvents s u with pwr := { u.pwr with modeEvent := v.pwr.modeEvent } }) : Scanned best s v := by
  have hhead : v.evrec.cHead = u.evrec.cHead := (congrArg Evrec.cHead hrec :)
  have hpwr : u.pwr = { s.pwr with modeEvent := u.pwr.modeEvent } := (congrArg State.pwr h.rest :)
  refine ⟨(congrArg Evrec.cState hrec :).trans h.state, (congrArg Evrec.settled hrec :).trans h.settled,
    (congrArg Evrec.flash hrec :).trans h.flash, hhead.trans h.head, fun hb => (congrArg Evrec.writePos hrec :).trans (h.first hb),
    fun hs => ⟨(congrArg Evrec.hours hrec :).trans (h.counts hs).1, (congrArg Evrec.cycles hrec :).trans (h.counts hs).2⟩, ?_⟩
  rw [hrest, h.rest, hhead, hpwr]

theorem Scanned.record {best : Option (Nat × List Byte)} {s u : State} (h : Scanned best s u) (c o : Nat) (d : List (Nat × Nat)) :
    Scanned best s (record c o d u) :=
  h.of_sansRecords (sansRecords_record c o d u) (by rw [sansEvents_record, record_pwr]; rfl)

theorem Scanned.tellWake {best : Option (Nat × List Byte)} {s u : State} (h : Scanned best s u) : Scanned best s (tellWake u) := by
  unfold Machine.tellWake
  split
  · split
    · refine h.of_sansRecords (by rw [tellMode_eq, sansRecords_record]; rfl) ?_
      rw [tellMode_eq, sansEvents_record, record_pwr]
      rfl
    · exact h.of_sansRecords rfl rfl
  · exact h.of_sansRecords rfl rfl

theorem scanned_scanDone {d : Descriptor} {s : State} (hd : s.evrec.desc = some d) (hc : s.evrec.cState = 1)
    (hb : s.evrec.bService = true) : Scanned (newestRec (cRecords s.evrec.flash d)) s (scanDone s) := by
  unfold scanDone
  simp only [hd]
  rw [if_neg (by simp [hc, hb])]
  generalize newestRec (cRecords s.evrec.flash d) = best
  obtain ⟨hset, hflash, hcounts, hrest⟩ := settle_evrec (best.map fun x => x.2) s
  generalize settle (best.map fun x => x.2) s = v at hset hflash hcounts hrest
  have hten : v.tenants = s.tenants := by rw [hrest]
  cases best with
  | none =>
    apply Scanned.record
    refine ⟨rfl, hset, hflash, rfl, fun _ => rfl, hcounts, ?_⟩
    rw [hrest]
    rfl
  | some x =>
    apply Scanned.record
    refine ⟨rfl, hset, hflash, rfl, nofun, hcounts, ?_⟩
    rw [hrest]
    rfl

/-! Steps of channel C, and erases (R354, R355, R366). -/

theorem advance_keeps (d : Descriptor) (e : Evrec) :
    (advance d e).queue = e.queue ∧ (advance d e).cHead = e.cHead ∧ (advance d e).flash = e.flash ∧
      (e.writePos % 128 ≠ 127 → (advance d e).writePos = e.writePos + 1) := by
  unfold advance
  split
  · next h => exact ⟨rfl, rfl, rfl, fun h' => absurd h h'⟩
  · exact ⟨rfl, rfl, rfl, fun _ => rfl⟩

theorem length_cBytes (seq : Word) (cycles : Nat) {x : CEntry} (h : 4 ≤ x.data.length) : (cBytes seq cycles x).length = 32 := by
  simp [cBytes, h]

/-- A program or an erase that did not verify counts, and the third in a row fences the recorder (R366). -/
theorem nvmFailure_keeps (a : Nat) (s : State) :
    (nvmFailure a s).evrec.nvmErrors = s.evrec.nvmErrors + 1 ∧ (nvmFailure a s).evrec.failures = s.evrec.failures + 1 ∧
      (nvmFailure a s).evrec.flash = s.evrec.flash ∧
      (s.evrec.failures < 2 → (nvmFailure a s).evrec.queue = s.evrec.queue ∧ (nvmFailure a s).evrec.cState = s.evrec.cState) ∧
      (2 ≤ s.evrec.failures → (nvmFailure a s).evrec.queue = [] ∧ (nvmFailure a s).evrec.cState = 3 ∧
        isFenced (nvmFailure a s) fenceEvrec = true) := by
  unfold nvmFailure
  dsimp only
  split
  · next h =>
    have h2 : 2 ≤ s.evrec.failures := Nat.le_of_succ_le_succ h
    refine ⟨rfl, rfl, rfl, fun h' => by omega, fun _ => ⟨rfl, rfl, ?_⟩⟩
    exact getLsbD_setBit_self _ _ (by decide)
  · next h =>
    have h2 : s.evrec.failures < 2 := by
      by_contra hge
      exact h (Nat.succ_le_succ (Nat.le_of_not_lt hge))
    exact ⟨rfl, rfl, rfl, fun _ => ⟨rfl, rfl⟩, fun h' => by omega⟩

theorem exec_programDone {d : Descriptor} {x : CEntry} {rest : List CEntry} {s : State} (hd : s.evrec.desc = some d)
    (hq : s.evrec.queue = x :: rest) (hc : s.evrec.cState = 2)
    (he : s.evrec.eraseQ.contains (sectorAddr d (s.evrec.writePos / 128)) = false) (ok : Bool) :
    exec (.channelCProgramDone ok) s = .next (msixScan 16 (
      if ok then nvmOk (modEvrec (fun e => advance d { e with
        queue := rest, cHead := nextSeq e.cHead
        flash := { e.flash with cells := flashPut (d.cBase + 32 * s.evrec.writePos) (cBytes e.cHead e.cycles x) e.flash.cells } }) s)
      else nvmFailure (d.cBase + 32 * s.evrec.writePos)
        (modEvrec (fun e => enterSector d (e.writePos / 128 + 1) e) (flashSpoil (d.cBase + 32 * s.evrec.writePos) 32 s)))) := by
  have hexec : exec (.channelCProgramDone ok) s = execChannelCProgramDone ok s := rfl
  rw [hexec, execChannelCProgramDone]
  simp only [hd, hq]
  rw [if_neg (by simp only [hc, he]; decide)]
  cases ok <;> rfl

/-- A program that verifies writes the oldest queued entry into its slot. -/
theorem programDone_ok {d : Descriptor} {x : CEntry} {rest : List CEntry} {s : State} (hd : s.evrec.desc = some d)
    (hq : s.evrec.queue = x :: rest) (hc : s.evrec.cState = 2)
    (he : s.evrec.eraseQ.contains (sectorAddr d (s.evrec.writePos / 128)) = false) (hx : 4 ≤ x.data.length) :
    ∃ u, exec (.channelCProgramDone true) s = .next (msixScan 16 u) ∧ u.evrec.queue = rest ∧ u.evrec.cHead = nextSeq s.evrec.cHead ∧
      flashBytes u.evrec.flash (d.cBase + 32 * s.evrec.writePos) 32 = cBytes s.evrec.cHead s.evrec.cycles x ∧
      (∀ b, b < d.cBase + 32 * s.evrec.writePos ∨ d.cBase + 32 * s.evrec.writePos + 32 ≤ b →
        flashByte u.evrec.flash b = flashByte s.evrec.flash b) ∧
      (s.evrec.writePos % 128 ≠ 127 → u.evrec.writePos = s.evrec.writePos + 1) ∧ u = { s with evrec := u.evrec } := by
  have hlen := length_cBytes s.evrec.cHead s.evrec.cycles hx
  refine ⟨_, exec_programDone hd hq hc he true, ?_⟩
  rw [if_pos rfl]
  simp only [nvmOk, modEvrec_evrec]
  obtain ⟨hqueue, hhead, hflash, hpos⟩ := advance_keeps d { s.evrec with
    queue := rest, cHead := nextSeq s.evrec.cHead
    flash := { s.evrec.flash with cells := flashPut (d.cBase + 32 * s.evrec.writePos) (cBytes s.evrec.cHead s.evrec.cycles x) s.evrec.flash.cells } }
  refine ⟨hqueue, hhead, ?_, fun b hb => ?_, hpos, rfl⟩
  · rw [hflash]
    exact hlen ▸ flashBytes_flashPut ..
  · rw [hflash, flashByte_flashPut, hlen, if_neg (by omega)]

/-- A program that fails counts, and leaves the entry queued until the third in a row. -/
theorem programDone_failed {d : Descriptor} {x : CEntry} {rest : List CEntry} {s : State} (hd : s.evrec.desc = some d)
    (hq : s.evrec.queue = x :: rest) (hc : s.evrec.cState = 2)
    (he : s.evrec.eraseQ.contains (sectorAddr d (s.evrec.writePos / 128)) = false) :
    ∃ u, exec (.channelCProgramDone false) s = .next (msixScan 16 u) ∧ u.evrec.nvmErrors = s.evrec.nvmErrors + 1 ∧
      u.evrec.failures = s.evrec.failures + 1 ∧ (s.evrec.failures < 2 → u.evrec.queue = s.evrec.queue ∧ u.evrec.cState = 2) ∧
      (2 ≤ s.evrec.failures → u.evrec.queue = [] ∧ u.evrec.cState = 3 ∧ isFenced u fenceEvrec = true) := by
  refine ⟨_, exec_programDone hd hq hc he false, ?_⟩
  rw [if_neg nofun]
  obtain ⟨herr, hfail, -, hfew, hmany⟩ := nvmFailure_keeps (d.cBase + 32 * s.evrec.writePos)
    (modEvrec (fun e => enterSector d (e.writePos / 128 + 1) e) (flashSpoil (d.cBase + 32 * s.evrec.writePos) 32 s))
  exact ⟨herr, hfail, fun h => ⟨(hfew h).1, (hfew h).2.trans hc⟩, hmany⟩

theorem flashErased_flashClear (f : Flash) (a n : Nat) : flashErased (flashClear a n f) a n = true := by
  simp [flashErased, flashClear]
  grind

/-- An erase that verifies empties its sector. -/
theorem eraseDone_ok {a : Nat} {rest : List Nat} {s : State} (hq : s.evrec.eraseQ = a :: rest) :
    ∃ u, exec (.sectorEraseDone true) s = .next (msixScan 16 u) ∧ u.evrec.eraseQ = rest ∧ flashErased u.evrec.flash a 4096 = true ∧
      (∀ b, b < a ∨ a + 4096 ≤ b → flashByte u.evrec.flash b = flashByte s.evrec.flash b) ∧ u = { s with evrec := u.evrec } := by
  have hexec : exec (.sectorEraseDone true) s = .next (msixScan 16 (nvmOk (modEvrec (fun e =>
      { e with flash := flashClear a 4096 e.flash }) (modEvrec (fun e => { e with eraseQ := rest }) s)))) := by
    have hstart : exec (.sectorEraseDone true) s = execSectorEraseDone true s := rfl
    rw [hstart, execSectorEraseDone]
    simp only [hq, if_true]
    rfl
  refine ⟨_, hexec, rfl, flashErased_flashClear _ _ _, fun b hb => ?_, rfl⟩
  exact (flashByte_flashClear a 4096 b s.evrec.flash).trans (if_neg (by omega))

/-- A sector left unspecified never counts as erased. -/
theorem flashErased_spoilSector (a : Nat) (s : State) : flashErased (spoilSector a s).evrec.flash a 4096 = false := by
  simp [flashErased, spoilSector]

theorem eraseDone_failed {a : Nat} {rest : List Nat} {s : State} (hq : s.evrec.eraseQ = a :: rest) :
    ∃ u, exec (.sectorEraseDone false) s = .next (msixScan 16 u) ∧ u.evrec.nvmErrors = s.evrec.nvmErrors + 1 ∧
      flashErased u.evrec.flash a 4096 = false := by
  obtain ⟨herr, -, hflash, -, -⟩ := nvmFailure_keeps a (spoilSector a (modEvrec (fun e => { e with eraseQ := rest }) s))
  have hspoiled := flashErased_spoilSector a (modEvrec (fun e => { e with eraseQ := rest }) s)
  have hstart : exec (.sectorEraseDone false) s = execSectorEraseDone false s := rfl
  have hkeep : ∀ f : Evrec → Evrec, (∀ e, (f e).nvmErrors = e.nvmErrors ∧ (f e).flash = e.flash) → ∀ v : State,
      v.evrec.nvmErrors = s.evrec.nvmErrors + 1 → flashErased v.evrec.flash a 4096 = false →
      (modEvrec f v).evrec.nvmErrors = s.evrec.nvmErrors + 1 ∧ flashErased (modEvrec f v).evrec.flash a 4096 = false :=
    fun f hf v h h' => ⟨(hf v.evrec).1.trans h, by rw [modEvrec_evrec, (hf v.evrec).2]; exact h'⟩
  rw [hstart, execSectorEraseDone]
  simp only [hq, Bool.false_eq_true, if_false]
  have herr' : (nvmFailure a (spoilSector a (modEvrec (fun e => { e with eraseQ := rest }) s))).evrec.nvmErrors =
      s.evrec.nvmErrors + 1 := herr
  rw [← hflash] at hspoiled
  generalize nvmFailure a (spoilSector a (modEvrec (fun e => { e with eraseQ := rest }) s)) = v at herr' hspoiled
  split
  · split
    · refine ⟨_, rfl, hkeep _ (fun e => ?_) v herr' hspoiled⟩
      split <;> exact ⟨rfl, rfl⟩
    · exact ⟨v, rfl, herr', hspoiled⟩
  · exact ⟨v, rfl, herr', hspoiled⟩


/-! Steps of a dump (R357), and the mark of operating time (R354). -/

theorem holdTimeAct_dump {s : State} (h : s.evrec.dump.isSome = true) : holdTimeAct s = s := by
  unfold holdTimeAct
  rw [if_pos (by simp [h])]

theorem length_headerBytes (cycles : Nat) (d : Dump) : (headerBytes cycles d).length = 32 := by simp [headerBytes]

/-- A page of a dump that is programmed: its bytes stand in the flash, and nothing but the recorder changes. -/
theorem dumpWrite_ok (f : Dump → Dump) (a : Nat) (l : List Byte) {d : Dump} {s : State} (hd : s.evrec.dump = some d) :
    (modDump f (dumpWrite true a l s)).evrec.dump = some (f d) ∧
      flashBytes (modDump f (dumpWrite true a l s)).evrec.flash a l.length = l ∧
      modDump f (dumpWrite true a l s) = { s with evrec := (modDump f (dumpWrite true a l s)).evrec } := by
  refine ⟨?_, flashBytes_flashPut s.evrec.flash a l, rfl⟩
  simp [modDump, dumpWrite, nvmOk, hd]

theorem exec_dumpPage {s u : State} (h : dumpPage true s = u) (hd : u.evrec.dump.isSome = true) :
    exec (.dumpPageDone true) s = .next (msixScan 16 u) := by
  have hexec : exec (.dumpPageDone true) s = fin (holdTimeAct (dumpPage true s)) := rfl
  rw [hexec, h, holdTimeAct_dump hd]
  rfl

theorem dumpPage_header {d : Dump} {c : Descriptor} {s : State} (hd : s.evrec.dump = some d) (hc : s.evrec.desc = some c)
    (hq : s.evrec.cState = 2 → s.evrec.queue = []) (hh : d.header = false) (hs : s.evrec.settled = true) :
    dumpPage true s = modDump (fun d => { d with header := true })
      (dumpWrite true (dumpAddr c d.slot) (headerBytes s.evrec.cycles d) s) := by
  unfold dumpPage
  simp only [hd, hc]
  rw [if_neg (by simpa using hq), if_pos (by simp [hh, hs])]

theorem dumpPage_records {d : Dump} {c : Descriptor} {s : State} (hd : s.evrec.dump = some d) (hc : s.evrec.desc = some c)
    (hq : s.evrec.cState = 2 → s.evrec.queue = []) (hh : d.header = true) (hp : nextPage s.evrec d ≠ []) :
    dumpPage true s = modDump (fun d' => { d' with index := d'.index + (nextPage s.evrec d).length })
      (dumpWrite true (dumpAddr c d.slot + 4096 + 16 * d.index) ((nextPage s.evrec d).flatMap bBytes) s) := by
  unfold dumpPage
  simp only [hd, hc]
  rw [if_neg (by simpa using hq), if_neg (by simp [hh]), if_pos hp]

theorem dumpPage_done {d : Dump} {c : Descriptor} {s : State} (hd : s.evrec.dump = some d) (hc : s.evrec.desc = some c)
    (hq : s.evrec.cState = 2 → s.evrec.queue = []) (hh : d.header = true) (hcount : d.counted = true) (hp : nextPage s.evrec d = []) :
    dumpPage true s = endDump d (dumpWrite true (dumpAddr c d.slot + 32) [0] s) := by
  unfold dumpPage
  simp only [hd, hc]
  rw [if_neg (by simpa using hq), if_neg (by simp [hh]), if_neg (by simp [hp]), if_neg (by simp [hh]), if_neg (by simp [hcount])]

/-- What follows the end of HOLD_TIME reaches the recorder's channels and the power state. -/
theorem holdTimeAct_keeps (s : State) :
    sansRecords (holdTimeAct s).evrec = sansRecords s.evrec ∧
      sansEvents s (holdTimeAct s) = { s with pwr := (holdTimeAct s).pwr } := by
  unfold holdTimeAct
  split
  · exact ⟨rfl, rfl⟩
  · dsimp only
    split
    · simp only [tellMode_eq, sansRecords_record, sansEvents_record, modPwr_evrec, record_pwr, true_and]
      rw [record_eq]
      rfl
    · simp only [tellMode_eq, sansRecords_record, sansEvents_record, modPwr_evrec, record_pwr, true_and]
      rw [record_eq]
      rfl

/-- The last step of a dump marks its slot complete. -/
theorem dumpDone_ends {d : Dump} {c : Descriptor} {s : State} (hd : s.evrec.dump = some d) (hc : s.evrec.desc = some c)
    (hq : s.evrec.cState = 2 → s.evrec.queue = []) (hh : d.header = true) (hcount : d.counted = true) (hp : nextPage s.evrec d = []) :
    ∃ u, exec (.dumpPageDone true) s = .next (msixScan 16 u) ∧ u.evrec.dump = none ∧
      flashByte u.evrec.flash (dumpAddr c d.slot + 32) = 0 ∧ sansEvents s u = { s with pwr := u.pwr } := by
  have hexec : exec (.dumpPageDone true) s = fin (holdTimeAct (dumpPage true s)) := rfl
  rw [dumpPage_done hd hc hq hh hcount hp] at hexec
  generalize hv : endDump d (dumpWrite true (dumpAddr c d.slot + 32) [0] s) = v at hexec
  have hrec : sansRecords v.evrec = sansRecords { s.evrec with
      failures := 0, dump := none, flushed := if d.flush then some (d.freeze.toNat, d.index, d.slot) else s.evrec.flushed
      flash := { s.evrec.flash with cells := flashPut (dumpAddr c d.slot + 32) [0] s.evrec.flash.cells } } := by
    rw [← hv, endDump, sansRecords_record]
    rfl
  have hrest : sansEvents s v = s := by
    rw [← hv, endDump, sansEvents_record]
    rfl
  obtain ⟨hact, hkeep⟩ := holdTimeAct_keeps v
  refine ⟨_, hexec, (congrArg Evrec.dump (hact.trans hrec) :), ?_, ?_⟩
  · have hflash : (holdTimeAct v).evrec.flash = { s.evrec.flash with
        cells := flashPut (dumpAddr c d.slot + 32) [0] s.evrec.flash.cells } := (congrArg Evrec.flash (hact.trans hrec) :)
    rw [hflash, flashByte_flashPut]
    simp
  · have hpwr := congrArg (fun x => sansEvents s { x with pwr := (holdTimeAct v).pwr }) hkeep
    exact Eq.trans hpwr (congrArg (fun x : State => { x with pwr := (holdTimeAct v).pwr }) hrest)

theorem operatingMark_eq {d : Descriptor} {s : State} (hd : s.evrec.desc = some d) (ht : d.tick ≠ 0) (hb : s.evrec.bService = true) :
    ∃ ticks, operatingMark s = record 0x0A02 engineTag [] (modSys (fun y => { y with aonTicks := y.aonTicks + ticks })
      (modEvrec (fun e => { e with hours := (s.evrec.hours / d.tick + 1) * d.tick, hoursTicks := 0 }) s)) := by
  refine ⟨((s.evrec.hours / d.tick + 1) * d.tick - s.evrec.hours) * 16000000 - s.evrec.hoursTicks, ?_⟩
  unfold operatingMark
  simp only [hd]
  rw [if_neg (by simp [ht, hb])]

theorem operatingMark_passes {d : Descriptor} {s : State} (hd : s.evrec.desc = some d) (ht : d.tick ≠ 0) (hb : s.evrec.bService = true) :
    (operatingMark s).evrec.hours = (s.evrec.hours / d.tick + 1) * d.tick ∧ (operatingMark s).evrec.hoursTicks = 0 ∧
      sansEvents s (operatingMark s) = { s with sys := { s.sys with aonTicks := (operatingMark s).sys.aonTicks } } := by
  obtain ⟨ticks, hmark⟩ := operatingMark_eq hd ht hb
  rw [hmark]
  refine ⟨(congrArg Evrec.hours (sansRecords_record ..) :), (congrArg Evrec.hoursTicks (sansRecords_record ..) :), ?_⟩
  rw [sansEvents_record, record_sys_aonTicks]
  rfl

/-- Settles O51: one lemma for each step of the recorder on the flash. -/
theorem recorderFlashSteps : Obligations.RecorderFlashSteps := by
  refine ⟨fun d s hd hc hb => ?_, fun d x rest s hd hq hc he hx => ⟨programDone_ok hd hq hc he hx, programDone_failed hd hq hc he⟩,
    fun a rest s hq => ⟨eraseDone_ok hq, eraseDone_failed hq⟩, fun d c s hd hc hq => ⟨fun hh hs => ?_, fun hh hp => ?_, dumpDone_ends hd hc hq⟩,
    fun d s hd ht hb => ⟨_, rfl, operatingMark_passes hd ht hb⟩⟩
  · have h := (scanned_scanDone hd hc hb).tellWake
    refine ⟨_, rfl, h.state, h.settled, h.flash, ?_, h.rest⟩
    cases hbest : newestRec (cRecords s.evrec.flash d) with
    | none =>
      rw [hbest] at h
      exact ⟨h.head, h.first rfl, fun hs => h.counts hs⟩
    | some x =>
      rw [hbest] at h
      exact ⟨h.head, fun hs => h.counts hs⟩
  · obtain ⟨hdump, hflash, hrest⟩ := dumpWrite_ok (fun d => { d with header := true }) (dumpAddr c d.slot) (headerBytes s.evrec.cycles d) hd
    refine ⟨_, exec_dumpPage (dumpPage_header hd hc hq hh hs) (by rw [hdump]; rfl), hdump, ?_, hrest⟩
    rwa [length_headerBytes] at hflash
  · obtain ⟨hdump, hflash, hrest⟩ := dumpWrite_ok (fun d' => { d' with index := d'.index + (nextPage s.evrec d).length })
      (dumpAddr c d.slot + 4096 + 16 * d.index) ((nextPage s.evrec d).flatMap bBytes) hd
    exact ⟨_, exec_dumpPage (dumpPage_records hd hc hq hh hp) (by rw [hdump]; rfl), hdump, hflash, hrest⟩

end Sys2Proof.Machine
end

section
/-! Fuses and firmware images (16). -/

namespace Sys2Proof.Machine

/-! The fuse array (R110, R111). -/

/-- The fuse of a field, in a table of fuses. -/
theorem fuseOf_burn (field : Nat) (once : Bool) (v : BitVec 256) (s : State) (f : Nat) :
    (s.sys.fuses.map fun x => if x.field = field then { x with value := v, programmed := x.programmed || once } else x).find?
        (fun x => x.field = f) =
      (s.sys.fuses.find? fun x => x.field = f).map fun x =>
        if x.field = field then { x with value := v, programmed := x.programmed || once } else x := by
  rw [List.find?_map]
  congr 1
  congr 1
  funext x
  simp only [Function.comp]
  split <;> rfl

theorem fuseOf_burn_other {field f : Nat} (once : Bool) (v : BitVec 256) (s : State) (h : f ≠ field) :
    fuseOf (burn field once v s) f = fuseOf s f := by
  unfold fuseOf
  simp only [burn, modSys_sys]
  rw [fuseOf_burn]
  cases hfind : s.sys.fuses.find? fun x => x.field = f with
  | none => rfl
  | some x =>
    have hx : x.field = f := by simpa using List.find?_some hfind
    simp [hx, h]

theorem fuseOf_burn_self {field : Nat} (once : Bool) (v : BitVec 256) {s : State} (h : (s.sys.fuses.any fun x => x.field = field) = true) :
    (fuseOf (burn field once v s) field).value = v ∧
      (fuseOf (burn field once v s) field).programmed = ((fuseOf s field).programmed || once) := by
  unfold fuseOf
  simp only [burn, modSys_sys]
  rw [fuseOf_burn]
  cases hfind : s.sys.fuses.find? fun x => x.field = field with
  | none =>
    obtain ⟨x, hx, hfield⟩ := List.any_eq_true.1 h
    exact absurd hfield (by simpa using List.find?_eq_none.1 hfind x hx)
  | some x =>
    have hx : x.field = field := by simpa using List.find?_some hfind
    simp [hx]

/-- What the array reads back stands behind the mark of success. -/
theorem unle_readback (ok : Bool) (rb : BitVec 256) : unle ((doneBytes ok rb).drop 1) = rb.toNat := by
  have hdrop : (doneBytes ok rb).drop 1 = leBits 32 rb := by
    rw [doneBytes, List.drop_append_of_le_length (by simp), List.drop_of_length_le (by simp), List.nil_append]
  rw [hdrop, leBits, unle_le, Nat.mod_eq_of_lt]
  exact rb.isLt

theorem doneOk_doneBytes (ok : Bool) (rb : BitVec 256) : doneOk (doneBytes ok rb) = ok := by
  cases ok <;> rfl

/-- FUSE_PROGRAM that ends: the field holds what is read back. -/
theorem fuseProgram_effect {r : Req} {field : Half} {value : BitVec 256} {w : Nat} {once ctr hidden : Bool} (ok : Bool)
    (rb : BitVec 256) (s : State) (hk : fuseKind field.toNat = some (w, once, ctr, hidden)) :
    ∃ u, (fuseProgramM r field value).effect (doneBytes ok rb) s =
        (u, if BitVec.ofNat 256 (rb.toNat % 2 ^ w) = fuseRequest ctr (fuseOf s field.toNat) value then .ok else .internal, []) ∧
      u.sys.fuses = (burn field.toNat once (BitVec.ofNat 256 (rb.toNat % 2 ^ w)) s).sys.fuses ∧
      sansEvents s u = { s with sys := { s.sys with fuses := u.sys.fuses } } := by
  simp only [fuseProgramM, hk, unle_readback]
  split
  · exact ⟨_, rfl, rfl, rfl⟩
  · refine ⟨_, rfl, by simp, ?_⟩
    simp only [sansEvents_record, record_sys_fuses]
    rfl

theorem fuseOf_congr {s u : State} (h : u.sys.fuses = s.sys.fuses) (f : Nat) : fuseOf u f = fuseOf s f := by
  simp only [fuseOf, h]

/-! The slot that did not boot (R420). -/

theorem sansEvents_setOtherSlot (x : Option FwSlot) (bytes : List Byte) (s : State) :
    sansEvents s (setOtherSlot x bytes s) = { s with sys := { s.sys with
      imageA := if s.sys.slotB then x else s.sys.imageA, imageB := if s.sys.slotB then s.sys.imageB else x } } := by
  unfold setOtherSlot sansEvents
  cases hslot : s.sys.slotB <;> simp

/-- Settles O58: what FUSE_PROGRAM and FW_COMMIT have done when they end. -/
theorem fusesAndImages : Obligations.FusesAndImages := by
  refine ⟨fun t ok rb r field value w once ctr hidden s hends hk hany => ?_, fun t ok rb r size s hends hhost =>
    ⟨fun st hst hne => ?_, fun hfault => ?_⟩⟩
  · obtain ⟨u, heffect, hfuses, hrest⟩ := fuseProgram_effect (r := r) (value := value) ok rb s hk
    have hdone := endsAs_effect ok rb (m := fuseProgramM r field value) rfl hends
    rw [heffect] at hdone
    have hself := fuseOf_burn_self (s := s) once (BitVec.ofNat 256 (rb.toNat % 2 ^ w)) hany
    refine ⟨u, hdone, ?_, ?_, fun f hf => ?_, hrest⟩
    · rw [fuseOf_congr hfuses]; exact hself.1
    · rw [fuseOf_congr hfuses]; exact hself.2
    · rw [fuseOf_congr hfuses, fuseOf_burn_other _ _ _ hf]
  · have hdone := endsAs_effect ok rb (m := fwCommitM r size) rfl hends
    have heffect : (fwCommitM r size).effect (doneBytes ok rb) s = (s, st, []) := by
      simp only [fwCommitM, hst]
    rwa [heffect] at hdone
  · have hdone := endsAs_effect ok rb (m := fwCommitM r size) rfl hends
    cases ok with
    | true =>
      have heffect : (fwCommitM r size).effect (doneBytes true rb) s =
          (setOtherSlot (some (imageSlot (stagedImage s size.toNat) (nextSeq s.sys.bootSeq))) (stagedImage s size.toNat) s, .ok,
            ((stagedImage s size.toNat).drop 4).take 4) := by
        simp only [fwCommitM, hfault, hhost, doneOk_doneBytes, Bool.false_eq_true, if_false, if_true]
      rw [heffect] at hdone
      exact ⟨_, hdone, sansEvents_setOtherSlot ..⟩
    | false =>
      have heffect : (fwCommitM r size).effect (doneBytes false rb) s =
          (record 0x0009 r.tenant [(2, 0x0041), (1, 0)] (setOtherSlot none [] s), .internal, []) := by
        simp only [fwCommitM, hfault, hhost, doneOk_doneBytes, Bool.false_eq_true, if_false]
      rw [heffect] at hdone
      exact ⟨_, hdone, (sansEvents_record ..).trans (sansEvents_setOtherSlot ..)⟩

end Sys2Proof.Machine
end

section
/-! Block starts of a Lens core (11). -/

namespace Sys2Proof.Machine

/-- A core whose slot 0 fades out towards a stage that no slot takes: the last step of its fade passes when the next block starts. -/
def fadingCore : State :=
  { State.reset with
    sys := { State.reset.sys with clkOk := 0x1FFFFFFF, rst := 0, running := true }
    lens := updAt State.reset.lens 0 fun c => { c with block := 8, slots := updAt c.slots 0 fun q => { q with
      st := 4, fades := [{ st := .out, step := 63 }]
      chain := some { core := 0, slot := 0, family := 0, rate := 0, block := 8, inKind := 0, inFrom := 0, outKind := 1, outFirst := 0 } } } }

theorem exec_blockStart {n : Fin 8} {s : State} (h : lensBlocks s n = true) :
    exec (.blockStart n) s = .next (msixScan 16 (blockStart n s)) := if_pos h

theorem blockStart_fadingCore : (nth ((blockStart 0 fadingCore).core 0).slots 0).st = 2 := by decide +kernel

theorem slotAtStart_fadingCore : (slotAtStart (fadingCore.core 0).block
    (boundaryUpTo fadingCore (coreFs (fadingCore.core 0)) fadingCore.now / (fadingCore.core 0).block)
    (nth (fadingCore.core 0).slots 0)).st = 4 := by decide +kernel

/-- Refutes O43 at its clause on BLOCK_START: the clause judges a slot by its fades before the block start, and the start first lets
the outputs pass that nothing takes (R324); a slot whose fade-out ends with them is CHAINED (2), where the clause has it STOPPING (4). -/
theorem not_lensCommands : ¬ Obligations.LensCommands := by
  unfold Obligations.LensCommands
  rintro ⟨-, -, -, -, -, hstart, -, -⟩
  have hblocks : lensBlocks fadingCore 0 = true := by decide +kernel
  obtain ⟨u, hexec, -, hslots, -⟩ := hstart 0 fadingCore hblocks (by decide +kernel) (by decide +kernel)
  have hrun := exec_blockStart (n := 0) hblocks
  have hstate := hrun.symm.trans hexec
  injection hstate with hstate
  have hlens : (blockStart 0 fadingCore).lens = u.lens := by simpa using congrArg State.lens hstate
  have hst := hslots 0 (by decide)
  have hcore : u.core 0 = (blockStart 0 fadingCore).core 0 := by simp only [State.core, hlens]
  have hleft := blockStart_fadingCore
  rw [← hcore] at hleft
  exact absurd (hleft.symm.trans (hst.trans slotAtStart_fadingCore)) (by decide)

end Sys2Proof.Machine
end

section
/-! The Ethernet time ports (06): what reads and writes of a port or a stream give, and what the choice of roles leaves unchanged. -/

namespace Sys2Proof.Machine

/-! Ports and streams. -/

theorem updAt_self {α : Type} [Inhabited α] (l : List α) (i : Nat) {f : α → α} (h : f (nth l i) = nth l i) : updAt l i f = l := by
  rw [updAt_congr l i (g := id) (by simpa using h)]
  exact List.modify_id i l

theorem ethPort_modEthPort_self {p : Nat} {s : State} (f : EthPort → EthPort) (h : p < s.eth.ports.length) :
    (modEthPort p f s).ethPort p = f (s.ethPort p) := nth_updAt_self _ _ _ h

theorem ethPort_modEthPort_other {p q : Nat} (f : EthPort → EthPort) (s : State) (h : p ≠ q) :
    (modEthPort p f s).ethPort q = s.ethPort q := nth_updAt_other _ _ _ _ h

theorem modEthPort_modEthPort (p : Nat) (f g : EthPort → EthPort) (s : State) :
    modEthPort p g (modEthPort p f s) = modEthPort p (fun q => g (f q)) s := by
  simp only [modEthPort, updAt_updAt]

theorem shaped_ports {s : State} (h : shaped s = true) : s.eth.ports.length = 4 := by
  simp only [shaped, Bool.and_eq_true, decide_eq_true_eq] at h
  simp only [h]

theorem shaped_streams {s : State} (h : shaped s = true) (b : Bool) : (if b then s.eth.talkers else s.eth.listeners).length = 64 := by
  simp only [shaped, Bool.and_eq_true, decide_eq_true_eq] at h
  cases b <;> simp only [h, if_true, if_false, Bool.false_eq_true]

theorem stream_modStream_self {b : Bool} {k : Nat} {s : State} (f : Stream → Stream)
    (h : k < (if b then s.eth.talkers else s.eth.listeners).length) : (modStream b k f s).stream b k = f (s.stream b k) := by
  cases b
  · exact nth_updAt_self _ _ _ h
  · exact nth_updAt_self _ _ _ h

theorem stream_modStream_other {b c : Bool} {k j : Nat} (f : Stream → Stream) (s : State) (h : ¬ (c = b ∧ j = k)) :
    (modStream b k f s).stream c j = s.stream c j := by
  cases b <;> cases c
  case false.false => exact nth_updAt_other _ _ _ _ fun hk => h ⟨rfl, hk.symm⟩
  case true.true => exact nth_updAt_other _ _ _ _ fun hk => h ⟨rfl, hk.symm⟩
  all_goals rfl

theorem ethPort_modStream (b : Bool) (k p : Nat) (f : Stream → Stream) (s : State) : (modStream b k f s).ethPort p = s.ethPort p := by
  cases b <;> rfl

theorem stream_modEthPort (b : Bool) (k p : Nat) (f : EthPort → EthPort) (s : State) : (modEthPort p f s).stream b k = s.stream b k := rfl

theorem modStream_frame (b : Bool) (k : Nat) (f : Stream → Stream) (s : State) :
    modStream b k f s = { s with eth := (modStream b k f s).eth } := by
  cases b <;> rfl

theorem modStream_modStream (b : Bool) (k : Nat) (f g : Stream → Stream) (s : State) :
    modStream b k g (modStream b k f s) = modStream b k (fun x => g (f x)) s := by
  cases b <;> simp only [modStream, updAt_updAt, if_true, if_false, Bool.false_eq_true]

/-! What changes only 06, the servo's source and the events. -/

/-- A state without the ports of 06, the servo's source and the events. -/
def sansEther (s : State) : State := sansEvents State.reset { s with eth := State.reset.eth, last := { s.last with src := 0 } }

theorem frame_of_sansEther {s u : State} (h : sansEther u = sansEther s) :
    sansEvents s u = { s with eth := u.eth, last := { s.last with src := u.last.src } } := by
  obtain ⟨_, _, _, sys, last, _, _, _, _, _, _, _, _, _, _, _, _, _⟩ := u
  obtain ⟨_, _, _, sys', last', _, _, _, _, _, _, _, _, _, _, _, _, _⟩ := s
  obtain ⟨⟩ := sys
  obtain ⟨⟩ := sys'
  obtain ⟨⟩ := last
  obtain ⟨⟩ := last'
  simp only [sansEther, sansEvents, State.mk.injEq, Sys.mk.injEq, Last.mk.injEq] at h ⊢
  simp only [h, and_self]

@[simp] theorem sansEther_record (c o : Nat) (d : List (Nat × Nat)) (s : State) : sansEther (record c o d s) = sansEther s := by
  rw [record_eq]
  rfl

@[simp] theorem sansEther_modEthPort (p : Nat) (f : EthPort → EthPort) (s : State) : sansEther (modEthPort p f s) = sansEther s := rfl

@[simp] theorem sansEther_modStream (b : Bool) (k : Nat) (f : Stream → Stream) (s : State) :
    sansEther (modStream b k f s) = sansEther s := by
  cases b <;> rfl

@[simp] theorem sansEther_modRole (p : Nat) (e : Bool) (f : PtpRole → PtpRole) (s : State) :
    sansEther (modRole p e f s) = sansEther s := rfl

@[simp] theorem sansEther_drawFree (s : State) : sansEther (drawFree s).2 = sansEther s := rfl

@[simp] theorem sansEther_setLink (p : Nat) (up : Bool) (cause : Nat) (s : State) : sansEther (setLink p up cause s) = sansEther s := by
  unfold setLink
  split
  · rfl
  · simp

/-! What the choice of roles leaves unchanged. -/

/-- What BMCA leaves of a PTP Port. -/
def roleView (x : PtpRole) : PtpRole := { x with role := 0, lost := false, logSync := none, waiting := none, lastSync := none }

/-- What BMCA leaves of a port. -/
def portView (q : EthPort) : EthPort := { q with d0 := roleView q.d0, d1 := roleView q.d1 }

/-- What BMCA leaves of a state: the roles, the grandmasters, the servo's source and the events may change. -/
def bmcaView (s : State) : State :=
  sansEvents State.reset { s with
    last := { s.last with src := 0 }
    eth := { s.eth with dom0 := {}, dom1 := {}, ports := s.eth.ports.map portView } }

/-- A state differs from another by the choice of roles alone. -/
def SameBut (s u : State) : Prop := bmcaView u = bmcaView s

namespace SameBut

theorem refl (s : State) : SameBut s s := rfl

theorem trans {s u v : State} (h : SameBut s u) (h' : SameBut u v) : SameBut s v := Eq.trans h' h

theorem sansEther {s u : State} (h : SameBut s u) : sansEther u = Machine.sansEther s := (congrArg Machine.sansEther h :)

theorem gptp {s u : State} (h : SameBut s u) : u.eth.gptp = s.eth.gptp := (congrArg (fun x => x.eth.gptp) h :)

theorem talkers {s u : State} (h : SameBut s u) : u.eth.talkers = s.eth.talkers := (congrArg (fun x => x.eth.talkers) h :)

theorem listeners {s u : State} (h : SameBut s u) : u.eth.listeners = s.eth.listeners := (congrArg (fun x => x.eth.listeners) h :)

theorem ports {s u : State} (h : SameBut s u) : u.eth.ports.map portView = s.eth.ports.map portView :=
  (congrArg (fun x => x.eth.ports) h :)

theorem port {s u : State} (h : SameBut s u) (p : Nat) : portView (u.ethPort p) = portView (s.ethPort p) := nth_of_map_eq h.ports p

theorem role {s u : State} (h : SameBut s u) (p : Nat) (e : Bool) : roleView (ptpRole (u.ethPort p) e) = roleView (ptpRole (s.ethPort p) e) := by
  cases e
  · exact (congrArg EthPort.d0 (h.port p) :)
  · exact (congrArg EthPort.d1 (h.port p) :)

theorem length {s u : State} (h : SameBut s u) : u.eth.ports.length = s.eth.ports.length := by
  simpa using congrArg List.length h.ports

theorem record (c o : Nat) (d : List (Nat × Nat)) (s : State) : SameBut s (record c o d s) := by
  rw [record_eq]
  rfl

theorem modRole (p : Nat) (e : Bool) {f : PtpRole → PtpRole} (hf : ∀ x, roleView (f x) = roleView x) (s : State) :
    SameBut s (modRole p e f s) := by
  have hports : (Machine.modRole p e f s).eth.ports.map portView = s.eth.ports.map portView := by
    refine map_updAt _ _ _ _ fun q => ?_
    cases e <;> simp [portView, hf]
  exact congrArg (fun l => sansEvents State.reset { s with
    last := { s.last with src := 0 }, eth := { s.eth with dom0 := {}, dom1 := {}, ports := l } }) hports

theorem modDomain (e : Bool) (f : PtpDomain → PtpDomain) (s : State) : SameBut s (modDomain e f s) := by cases e <;> rfl

theorem setRole (p : Nat) (e : Bool) (role : Nat) (s : State) : SameBut s (setRole p e role s) := by
  unfold Machine.setRole
  dsimp only
  split
  · exact refl s
  · refine trans (modRole p e ?_ s) (record ..)
    exact fun x => rfl

theorem setGm (e : Bool) (gm : DWord) (steps : Nat) (s : State) : SameBut s (setGm e gm steps s) := by
  unfold Machine.setGm
  dsimp only
  split
  · exact modDomain ..
  · exact (modDomain ..).trans (record ..)

theorem source (b : Byte) (s : State) : SameBut s (modLast (fun l => { l with src := b }) s) := rfl

theorem followSource (e : Bool) (old : Option Nat) (s : State) : SameBut s (followSource e old s) := by
  unfold Machine.followSource
  split
  · dsimp only
    split
    · exact (source ..).trans (record ..)
    · exact refl s
  · exact refl s

theorem foldl {α : Type} {f : State → α → State} (hf : ∀ s x, SameBut s (f s x)) (l : List α) (s : State) : SameBut s (l.foldl f s) :=
  foldl_keeps bmcaView hf l s

theorem runBmca (e : Bool) (s : State) : SameBut s (runBmca e s) := by
  unfold Machine.runBmca
  split <;> exact (foldl (fun s p => setRole ..) _ s).trans ((setGm ..).trans (followSource ..))

theorem staticRoles (e : Bool) (s : State) : SameBut s (staticRoles e s) := by
  unfold Machine.staticRoles
  dsimp only
  split
  · exact foldl (fun s p => setRole ..) _ s
  · exact (foldl (fun s p => setRole ..) _ s).trans (setGm ..)

theorem refreshRoles (e : Bool) (s : State) : SameBut s (refreshRoles e s) := by
  unfold Machine.refreshRoles
  split
  · exact foldl (fun s p => setRole ..) _ s
  · split
    · exact staticRoles e s
    · exact runBmca e s

theorem bothRoles (s : State) : SameBut s (bothRoles s) := (refreshRoles false s).trans (refreshRoles true _)

theorem setCapable (p : Nat) (b : Bool) (s : State) : SameBut (modEthPort p (fun q => { q with asCapable := b }) s) (setCapable p b s) := by
  unfold Machine.setCapable
  split
  next h =>
    have hsame : modEthPort p (fun q => { q with asCapable := b }) s = s := by
      unfold modEthPort
      rw [updAt_self]
      subst h
      rfl
    rw [hsame]
    exact refl s
  · dsimp only
    split
    · exact bothRoles _
    · exact refl _

end SameBut

/-! What a command that runs at once has passed. -/

theorem unit_lt_of_runs {i : Instr} {r : Req} {m : Meaning} {s : State} (hr : reqOf i = some r) (hm : meaningOf i = some m)
    (h : runsAtOnce i s = true) {u : UnitRef} (hu : u ∈ unitsOf i) : u.unit < u.limit := by
  obtain ⟨-, -, -, -, -, hunits, -⟩ := refusal_none (runs_passes hr hm h)
  exact (unitCheck_eq_none.1 hunits).2.1 u hu

theorem check_of_runs {i : Instr} {r : Req} {m : Meaning} {s : State} (hr : reqOf i = some r) (hm : meaningOf i = some m)
    (h : runsAtOnce i s = true) {st : Status} {b : Bool} (hx : (st, b) ∈ m.checks s) (hst : st ∈ checkOrder) : b = false := by
  obtain ⟨-, -, -, -, -, -, -, -, hown⟩ := refusal_none (runs_passes hr hm h)
  exact check_passes hown hx hst

/-! The link of a port. -/

theorem setLink_other {p q : Nat} (up : Bool) (cause : Nat) (s : State) (h : p ≠ q) : (setLink p up cause s).ethPort q = s.ethPort q := by
  unfold setLink
  split
  · rfl
  · rw [State.ethPort, record_eth]
    exact ethPort_modEthPort_other _ _ h

/-- The settings of gPTP and the streams stay. -/
theorem setLink_keeps (p : Nat) (up : Bool) (cause : Nat) (s : State) :
    (setLink p up cause s).eth.ports.length = s.eth.ports.length ∧ (setLink p up cause s).eth.gptp = s.eth.gptp := by
  unfold setLink
  split
  · exact ⟨rfl, rfl⟩
  · simp [modEthPort]

theorem setLink_self {p : Nat} {up : Bool} {s : State} (cause : Nat) (hp : p < s.eth.ports.length) (h : (s.ethPort p).link ≠ up) :
    (setLink p up cause s).ethPort p =
      { clearQueues (s.ethPort p) with link := up, asCapable := false, lostResponses := 0, req := none, resp := none } := by
  unfold setLink
  rw [if_neg h, State.ethPort, record_eth]
  exact ethPort_modEthPort_self _ hp

end Sys2Proof.Machine
end

section
/-! The commands of the Ethernet time ports and AVTP streams, and their links and frames (06). -/

namespace Sys2Proof.Machine

theorem sansEther_bothRoles (s : State) : sansEther (bothRoles s) = sansEther s := (SameBut.bothRoles s).sansEther

/-! ETH_PORT_CONFIG. -/

/-- The state in which ETH_PORT_CONFIG writes its port: a link that a change of mode takes down is down. -/
def unlinked (p mode : Nat) (s : State) : State :=
  if (s.ethPort p).mode ≠ mode && (s.ethPort p).link then setLink p false ((drawFree s).1.toNat % 256) (drawFree s).2 else s

theorem sansEther_unlinked (p mode : Nat) (s : State) : sansEther (unlinked p mode s) = sansEther s := by
  unfold unlinked
  split <;> simp

theorem unlinked_length (p mode : Nat) (s : State) : (unlinked p mode s).eth.ports.length = s.eth.ports.length := by
  unfold unlinked
  split
  · exact (setLink_keeps ..).1
  · rfl

theorem unlinked_other {p q : Nat} (mode : Nat) (s : State) (h : p ≠ q) : (unlinked p mode s).ethPort q = s.ethPort q := by
  unfold unlinked
  split
  · exact setLink_other _ _ _ h
  · rfl

/-- The port of ETH_PORT_CONFIG written. -/
def portWritten (p mode vid : Nat) (mac : BitVec 48) (s : State) : State :=
  modEthPort p (fun q => { q with
    mode, vid, mac := some mac, rxFrames := 0, rxFcsErr := 0, rxDropped := 0, txFrames := 0, ringDropped := 0 }) (unlinked p mode s)

theorem ethPortConfig_effect (port mode : Byte) (vid : Half) (mac : BitVec 48) (bs : List Byte) (s : State) :
    (ethPortConfigM port mode vid mac).effect bs s =
      (bothRoles (portWritten port.toNat mode.toNat vid.toNat mac s), .ok, []) := rfl

theorem ethPortConfig_answers {r : Req} {port mode : Byte} {vid : Half} {mac : BitVec 48} {s : State}
    (hruns : runsAtOnce (.ethPortConfig r port mode vid mac) s = true) (hs : shaped s = true) :
    ∃ u, Answers (.ethPortConfig r port mode vid mac) s .ok [] u ∧
      ((u.ethPort port.toNat).mode = mode.toNat ∧ (u.ethPort port.toNat).vid = vid.toNat ∧
        (u.ethPort port.toNat).mac = some mac ∧ (u.ethPort port.toNat).rxFrames = 0 ∧ (u.ethPort port.toNat).rxFcsErr = 0 ∧
        (u.ethPort port.toNat).rxDropped = 0 ∧ (u.ethPort port.toNat).txFrames = 0 ∧ (u.ethPort port.toNat).ringDropped = 0) ∧
      (∀ p, p ≠ port.toNat → (u.ethPort p).mode = (s.ethPort p).mode ∧ (u.ethPort p).mac = (s.ethPort p).mac ∧
        (u.ethPort p).link = (s.ethPort p).link) ∧
      sansEvents s u = { s with eth := u.eth, last := { s.last with src := u.last.src } } := by
  have hport := unit_lt_of_runs (m := ethPortConfigM port mode vid mac) rfl rfl hruns (u := ⟨0x0B, port.toNat, 4⟩) (.head _)
  have hans := runs_answers (m := ethPortConfigM port mode vid mac) rfl hruns
  rw [ethPortConfig_effect] at hans
  have hsame := SameBut.bothRoles (portWritten port.toNat mode.toNat vid.toNat mac s)
  generalize bothRoles (portWritten port.toNat mode.toNat vid.toNat mac s) = u at hans hsame
  refine ⟨u, hans, ?_, fun p hp => ?_, frame_of_sansEther ?_⟩
  · have hself := hsame.port port.toNat
    rw [portWritten, ethPort_modEthPort_self _ (by rw [unlinked_length, shaped_ports hs]; exact hport)] at hself
    exact ⟨(congrArg EthPort.mode hself :), (congrArg EthPort.vid hself :), (congrArg EthPort.mac hself :),
      (congrArg EthPort.rxFrames hself :), (congrArg EthPort.rxFcsErr hself :), (congrArg EthPort.rxDropped hself :),
      (congrArg EthPort.txFrames hself :), (congrArg EthPort.ringDropped hself :)⟩
  · have hother := hsame.port p
    rw [portWritten, ethPort_modEthPort_other _ _ hp.symm, unlinked_other _ _ hp.symm] at hother
    exact ⟨(congrArg EthPort.mode hother :), (congrArg EthPort.mac hother :), (congrArg EthPort.link hother :)⟩
  · rw [hsame.sansEther, portWritten, sansEther_modEthPort, sansEther_unlinked]

/-! GPTP_CONFIG and GPTP_PORT_ROLE. -/

theorem gptpConfig_effect (c : GptpCfg) (bs : List Byte) (s : State) :
    ∃ w, (gptpConfigM c).effect bs s = (bothRoles w, .ok, []) ∧ w.eth.gptp.mode = c.mode.toNat ∧
      w.eth.gptp.domain1 = c.domain1.toNat ∧ w.eth.gptp.priority1 = c.priority1.toNat ∧ w.eth.gptp.logSync = c.logSync.toInt ∧
      w.eth.gptp.clockId = c.clockId ∧ w.eth.gptp.gmCapable = c.flags.getLsbD 0 ∧ w.eth.gptp.pdelayThresh = c.pdelayThresh.toNat ∧
      w.eth.talkers = s.eth.talkers ∧ w.eth.listeners = s.eth.listeners ∧ sansEther w = sansEther s :=
  ⟨_, rfl, rfl, rfl, rfl, rfl, rfl, rfl, rfl, rfl, rfl, rfl⟩

theorem gptpConfig_answers {r : Req} {c : GptpCfg} {s : State} (hruns : runsAtOnce (.gptpConfig r c) s = true) :
    ∃ u, Answers (.gptpConfig r c) s .ok [] u ∧ u.eth.gptp.mode = c.mode.toNat ∧ u.eth.gptp.domain1 = c.domain1.toNat ∧
      u.eth.gptp.priority1 = c.priority1.toNat ∧ u.eth.gptp.logSync = c.logSync.toInt ∧ u.eth.gptp.clockId = c.clockId ∧
      u.eth.gptp.gmCapable = c.flags.getLsbD 0 ∧ u.eth.gptp.pdelayThresh = c.pdelayThresh.toNat ∧
      u.eth.talkers = s.eth.talkers ∧ u.eth.listeners = s.eth.listeners ∧
      sansEvents s u = { s with eth := u.eth, last := { s.last with src := u.last.src } } := by
  have hans := runs_answers (m := gptpConfigM c) rfl hruns
  obtain ⟨w, heffect, hw⟩ := gptpConfig_effect c ((gptpConfigM c).copy s) s
  rw [heffect] at hans
  have hsame := SameBut.bothRoles w
  refine ⟨bothRoles w, hans, ?_⟩
  obtain ⟨h1, h2, h3, h4, h5, h6, h7, htalkers, hlisteners, hframe⟩ := hw
  rw [hsame.gptp, hsame.talkers, hsame.listeners]
  exact ⟨h1, h2, h3, h4, h5, h6, h7, htalkers, hlisteners, frame_of_sansEther (hsame.sansEther.trans hframe)⟩

/-- A role set in a domain of a port, and the roles of that domain refreshed. -/
def roleSet (p role : Nat) (e : Bool) (s : State) : State := refreshRoles e (modRole p e (fun x => { x with set := some role }) s)

/-- The roles set of every port and the settings of gPTP after a role is set. -/
structure RoleSet (p role : Nat) (e : Bool) (s u : State) : Prop where
  named : (ptpRole (u.ethPort p) e).set = some role
  domain : ∀ q, (ptpRole (u.ethPort q) (!e)).set = (ptpRole (s.ethPort q) (!e)).set
  other : ∀ q, q ≠ p → (ptpRole (u.ethPort q) e).set = (ptpRole (s.ethPort q) e).set
  gptp : u.eth.gptp = s.eth.gptp
  length : u.eth.ports.length = s.eth.ports.length
  frame : sansEther u = sansEther s

theorem ptpRole_modRole_self {p : Nat} {e : Bool} {s : State} (f : PtpRole → PtpRole) (h : p < s.eth.ports.length) :
    ptpRole ((modRole p e f s).ethPort p) e = f (ptpRole (s.ethPort p) e) := by
  rw [modRole, ethPort_modEthPort_self _ h]
  cases e <;> rfl

theorem ptpRole_modRole_domain (p q : Nat) (e : Bool) (f : PtpRole → PtpRole) (s : State) :
    ptpRole ((modRole p e f s).ethPort q) (!e) = ptpRole (s.ethPort q) (!e) := by
  have hmap : (modRole p e f s).eth.ports.map (fun x => ptpRole x (!e)) = s.eth.ports.map fun x => ptpRole x (!e) :=
    map_updAt _ _ _ _ fun x => by cases e <;> rfl
  exact nth_of_map_eq hmap q

theorem roleSet_roleSet {p : Nat} {s : State} (role : Nat) (e : Bool) (h : p < s.eth.ports.length) :
    RoleSet p role e s (roleSet p role e s) := by
  have hsame := SameBut.refreshRoles e (modRole p e (fun x => { x with set := some role }) s)
  have hset : ∀ q d, (ptpRole ((roleSet p role e s).ethPort q) d).set =
      (ptpRole ((modRole p e (fun x => { x with set := some role }) s).ethPort q) d).set :=
    fun q d => (congrArg PtpRole.set (hsame.role q d) :)
  exact {
    named := by rw [hset, ptpRole_modRole_self _ h]
    domain := fun q => by rw [hset, ptpRole_modRole_domain]
    other := fun q hq => by rw [hset, modRole, ethPort_modEthPort_other _ _ hq.symm]
    gptp := hsame.gptp
    length := hsame.length.trans (by simp [modRole, modEthPort])
    frame := hsame.sansEther.trans (sansEther_modRole ..) }

theorem gptpPortRole_effect (port role domains : Byte) (bs : List Byte) (s : State) :
    (gptpPortRoleM port role domains).effect bs s =
      (if domains.getLsbD 1 then roleSet port.toNat role.toNat true
          (if domains.getLsbD 0 then roleSet port.toNat role.toNat false s else s)
        else if domains.getLsbD 0 then roleSet port.toNat role.toNat false s else s, .ok, []) := rfl

theorem gptpPortRole_answers {r : Req} {port role domains : Byte} {s : State}
    (hruns : runsAtOnce (.gptpPortRole r port role domains) s = true) (hs : shaped s = true) :
    ∃ u, Answers (.gptpPortRole r port role domains) s .ok [] u ∧
      (u.ethPort port.toNat).d0.set = (if domains.getLsbD 0 then some role.toNat else (s.ethPort port.toNat).d0.set) ∧
      (u.ethPort port.toNat).d1.set = (if domains.getLsbD 1 then some role.toNat else (s.ethPort port.toNat).d1.set) ∧
      (∀ p, p ≠ port.toNat → (u.ethPort p).d0.set = (s.ethPort p).d0.set ∧ (u.ethPort p).d1.set = (s.ethPort p).d1.set) ∧
      u.eth.gptp = s.eth.gptp ∧ sansEvents s u = { s with eth := u.eth, last := { s.last with src := u.last.src } } := by
  have hport := unit_lt_of_runs (m := gptpPortRoleM port role domains) rfl rfl hruns (u := ⟨0x0B, port.toNat, 4⟩) (.head _)
  have hlt : port.toNat < s.eth.ports.length := by rw [shaped_ports hs]; exact hport
  have hans := runs_answers (m := gptpPortRoleM port role domains) rfl hruns
  rw [gptpPortRole_effect] at hans
  refine ⟨_, hans, ?_⟩
  have h0 := roleSet_roleSet role.toNat false hlt
  cases hd0 : domains.getLsbD 0 <;> cases hd1 : domains.getLsbD 1 <;> simp only [if_true, if_false, Bool.false_eq_true]
  · exact ⟨trivial, trivial, fun _ _ => ⟨trivial, trivial⟩, trivial, frame_of_sansEther rfl⟩
  · have h1 := roleSet_roleSet role.toNat true hlt
    exact ⟨h1.domain _, h1.named, fun p hp => ⟨h1.domain p, h1.other p hp⟩, h1.gptp, frame_of_sansEther h1.frame⟩
  · exact ⟨h0.named, h0.domain _, fun p hp => ⟨h0.other p hp, h0.domain p⟩, h0.gptp, frame_of_sansEther h0.frame⟩
  · have h1 := roleSet_roleSet role.toNat true (h0.length ▸ hlt)
    exact ⟨(h1.domain _).trans h0.named, h1.named, fun p hp => ⟨(h1.domain p).trans (h0.other p hp), (h1.other p hp).trans (h0.domain p)⟩,
      h1.gptp.trans h0.gptp, frame_of_sansEther (h1.frame.trans h0.frame)⟩

/-! Streams. -/

theorem avtpStreamStart_answers {r : Req} {dir k : Byte} {s : State} (hruns : runsAtOnce (.avtpStreamStart r dir k) s = true)
    (hs : shaped s = true) :
    ∃ u, Answers (.avtpStreamStart r dir k) s .ok [] u ∧ (u.stream (dir = 0) k.toNat).state = (if dir = 0 then 1 else 2) ∧
      (u.stream (dir = 0) k.toNat).cfg = (s.stream (dir = 0) k.toNat).cfg ∧ (u.stream (dir = 0) k.toNat).stopB = none ∧
      (∀ c, (s.stream (dir = 0) k.toNat).cfg = some (.aaf c) →
        (u.stream (dir = 0) k.toNat).startB = some (boundaryFrom s (nsrRate c.nsr.toNat) s.now)) ∧
      (∀ b j, ¬ (b = decide (dir = 0) ∧ j = k.toNat) → u.stream b j = s.stream b j) ∧ u = { s with eth := u.eth } := by
  have hk := unit_lt_of_runs (m := avtpStreamStartM r dir k) rfl rfl hruns (u := ⟨streamType dir, k.toNat, 64⟩) (.head _)
  refine ⟨_, runs_answers (m := avtpStreamStartM r dir k) rfl hruns, ?_⟩
  have hself := fun f => stream_modStream_self (b := decide (dir = 0)) (s := s) f (by rw [shaped_streams hs]; exact hk)
  simp only [avtpStreamStartM, hself]
  refine ⟨trivial, trivial, trivial, fun c hc => ?_, fun b j hj => stream_modStream_other _ _ hj, modStream_frame ..⟩
  rw [hc]
  rfl

theorem avtpStreamStop_answers {r : Req} {dir k : Byte} {s : State} (hruns : runsAtOnce (.avtpStreamStop r dir k) s = true)
    (hs : shaped s = true) :
    let x := s.stream (dir = 0) k.toNat
    ∃ u, Answers (.avtpStreamStop r dir k) s .ok [] u ∧
      (∀ c, x.cfg = some (.aaf c) → (streamHeld s x = false → u.stream (dir = 0) k.toNat = x) ∧
        (streamHeld s x = true → x.stopB = none → u.stream (dir = 0) k.toNat =
          { x with stopB := some (boundaryFrom s (nsrRate c.nsr.toNat) s.now) })) ∧
      (∀ c, x.cfg = some (.crf c) → dir ≠ 0 → (u.stream (dir = 0) k.toNat).state = 0 ∧
        (u.stream (dir = 0) k.toNat).packets = x.packets) ∧
      (∀ b j, ¬ (b = decide (dir = 0) ∧ j = k.toNat) → u.stream b j = s.stream b j) ∧ u = { s with eth := u.eth } := by
  intro x
  have hk := unit_lt_of_runs (m := avtpStreamStopM dir k) rfl rfl hruns (u := ⟨streamType dir, k.toNat, 64⟩) (.head _)
  refine ⟨_, runs_answers (m := avtpStreamStopM dir k) rfl hruns, ?_⟩
  have hself := fun f => stream_modStream_self (b := decide (dir = 0)) (s := s) f (by rw [shaped_streams hs]; exact hk)
  simp only [avtpStreamStopM, hself]
  change (∀ c, x.cfg = _ → (_ → stopAt (x.cfg.bind _) (streamHeld s x) x = x) ∧
    (_ → _ → stopAt (x.cfg.bind _) (streamHeld s x) x = _)) ∧ (∀ c, x.cfg = _ → _ → (stopAt (x.cfg.bind _) (streamHeld s x) x).state = 0 ∧
    (stopAt (x.cfg.bind _) (streamHeld s x) x).packets = _) ∧ _
  refine ⟨fun c hc => ⟨fun hheld => ?_, fun hheld hnone => ?_⟩, fun c hc hdir => ?_, fun b j hj => stream_modStream_other _ _ hj,
    modStream_frame ..⟩
  · simp only [hc, hheld, Option.bind_some, streamBoundary, streamRate, Option.map_some, stopAt, Bool.false_eq_true, if_false]
  · simp only [hc, hheld, hnone, Option.bind_some, streamBoundary, streamRate, Option.map_some, stopAt, if_true]
  · have hnone : x.cfg.bind (streamBoundary s (decide (dir = 0))) = none := by
      simp only [hc, hdir, Option.bind_some, streamBoundary, streamRate, decide_false, Bool.false_eq_true, if_false, Option.map_none]
    rw [hnone]
    exact ⟨rfl, rfl⟩

/-- Settles O29: each command's effect, through the choice of roles that follows it, which leaves all but the roles. -/
theorem etherCommands : Obligations.EtherCommands :=
  ⟨⟨fun _ _ _ _ _ _ hruns hs => ethPortConfig_answers hruns hs, fun _ _ _ hruns => gptpConfig_answers hruns,
      fun _ _ _ _ _ hruns hs => gptpPortRole_answers hruns hs,
      fun _ port idleA idleB _ hruns => runs_answers (m := cbsConfigM port idleA idleB) rfl hruns,
      fun _ ports actions rlog2 base _ hruns => runs_answers (m := ethRxFilterM ports actions rlog2 base) rfl hruns⟩,
    ⟨fun _ c _ hruns => runs_answers (m := avtpTalkerConfigM c) rfl hruns,
      fun _ c _ hruns => runs_answers (m := avtpListenerConfigM c) rfl hruns,
      fun _ c _ hruns => runs_answers (m := crfConfigM c) rfl hruns,
      fun _ _ _ _ hruns hs => avtpStreamStart_answers hruns hs, fun _ _ _ _ hruns hs => avtpStreamStop_answers hruns hs⟩⟩

/-! Links and frames. -/

theorem exec_ethLinkChange {p : Fin 4} {report : LinkReport} {up : Bool} {s : State} (cause : Byte)
    (h : linkAfter (s.ethPort p).mode report = some up) :
    exec (.ethLinkChange p report cause) s = fin (if (setLink p up cause.toNat s).eth.gptp.mode = 2
      then bothRoles (setLink p up cause.toNat s) else setLink p up cause.toNat s) := by
  change execEthLinkChange p report cause s = _
  unfold execEthLinkChange
  rw [h]

theorem ethLinkChange_changes {p : Fin 4} {report : LinkReport} {up : Bool} {s : State} (cause : Byte)
    (h : linkAfter (s.ethPort p).mode report = some up) (hlink : (s.ethPort p).link ≠ up) (hs : shaped s = true) :
    ∃ u, exec (.ethLinkChange p report cause) s = .next (msixScan 16 u) ∧ (u.ethPort p).link = up ∧
      (u.ethPort p).asCapable = false ∧ (∀ q, q ≠ p.val → (u.ethPort q).link = (s.ethPort q).link) ∧
      sansEvents s u = { s with eth := u.eth, last := { s.last with src := u.last.src } } := by
  have hsame : SameBut (setLink p up cause.toNat s) (if (setLink p up cause.toNat s).eth.gptp.mode = 2
      then bothRoles (setLink p up cause.toNat s) else setLink p up cause.toNat s) := by
    split
    · exact .bothRoles _
    · exact .refl _
  refine ⟨_, exec_ethLinkChange cause h, ?_⟩
  generalize (if (setLink p up cause.toNat s).eth.gptp.mode = 2
      then bothRoles (setLink p up cause.toNat s) else setLink p up cause.toNat s) = u at hsame
  have hself := hsame.port p
  rw [setLink_self _ (by rw [shaped_ports hs]; exact p.isLt) hlink] at hself
  refine ⟨(congrArg EthPort.link hself :), (congrArg EthPort.asCapable hself :), fun q hq => ?_,
    frame_of_sansEther (hsame.sansEther.trans (sansEther_setLink ..))⟩
  have hother := hsame.port q
  rw [setLink_other _ _ _ hq.symm] at hother
  exact (congrArg EthPort.link hother :)

theorem exec_ethFrameRx {p : Fin 4} (f : EthFrame) {s : State} (hup : portUp s p = true) :
    exec (.ethFrameRx p f) s =
      if !f.fcsOk then .next (modEthPort p (fun q => { q with rxFcsErr := q.rxFcsErr + 1 }) (countRx p s))
      else if (f.etherType = 0x88F7 && f.dest = ptpDest) || listenerFor s p f then .next (countRx p s)
      else if !wanted (countRx p s) p f then .next (modEthPort p (fun q => { q with rxDropped := q.rxDropped + 1 }) (countRx p s))
      else if f.ownSet || !f.ringUp || !viaUp s .pcie || isFenced s 18 then
        fin (record 0x0220 (ownerOf s 0x0B p) [(1, p)] (modEthPort p (fun q => { q with ringDropped := q.ringDropped + 1 }) (countRx p s)))
      else .next { countRx p s with
        out := s.out ++ [.hostWrite (s.eth.rxBase + BitVec.ofNat 64 (2048 * s.eth.rxIndex) + 4)
            (le 4 0 ++ stampBytes (stampOf (rxStamp s p f.tap)) ++ f.bytes),
          .hostWrite (s.eth.rxBase + BitVec.ofNat 64 (2048 * s.eth.rxIndex)) (le 1 1 ++ le 1 p ++ le 2 f.bytes.length)]
        eth := { (countRx p s).eth with rxIndex := (s.eth.rxIndex + 1) % 2 ^ s.eth.rxLog2 } } := by
  change execEthFrameRx p f s = _
  unfold execEthFrameRx
  rw [if_neg (by simp only [hup]; decide)]
  dsimp only
  refine ite_congr rfl (fun _ => rfl) fun _ => ite_congr rfl (fun _ => rfl) fun _ => ite_congr rfl (fun _ => rfl) fun _ =>
    ite_congr rfl (fun _ => rfl) fun _ => ?_
  simp only [emit, List.append_assoc]
  rfl

/-- Counting a frame leaves the MAC address, by which a frame is wanted. -/
theorem wanted_countRx {p : Nat} (f : EthFrame) {s : State} (hp : p < s.eth.ports.length) : wanted (countRx p s) p f = wanted s p f := by
  have hmac : ((countRx p s).ethPort p).mac = (s.ethPort p).mac := by rw [countRx, ethPort_modEthPort_self _ hp]
  simp only [wanted, hmac]
  rfl

/-- Settles O30: the links by the choice of roles that follows, the frames by the order of their classification. -/
theorem etherFrames : Obligations.EtherFrames := by
  refine ⟨fun p report cause s h => ?_, fun p report up cause s h hlink hs => ethLinkChange_changes cause h hlink hs,
    fun p f s hup => ⟨fun hfcs => ?_, fun hfcs htype hdest => ?_, fun hfcs htype hl hw hs => ?_, fun hfcs htype hl hw hs =>
      ⟨fun hown hring hpcie hfence => ?_, fun hown => ?_⟩⟩⟩
  · change execEthLinkChange p report cause s = _
    unfold execEthLinkChange
    rw [h]
  · rw [exec_ethFrameRx f hup, if_pos (by rw [hfcs]; rfl), countRx, modEthPort_modEthPort]
  · rw [exec_ethFrameRx f hup, if_neg (by rw [hfcs]; decide), if_pos (by simp [htype, hdest])]
  · have hp : p.val < s.eth.ports.length := by rw [shaped_ports hs]; exact p.isLt
    rw [exec_ethFrameRx f hup, if_neg (by rw [hfcs]; decide), if_neg (by simp only [hl, decide_eq_false htype, Bool.false_and, Bool.or_false, Bool.false_eq_true, not_false_eq_true]),
      if_pos (by rw [wanted_countRx f hp, hw]; rfl), countRx, modEthPort_modEthPort]
  · have hp : p.val < s.eth.ports.length := by rw [shaped_ports hs]; exact p.isLt
    rw [exec_ethFrameRx f hup, if_neg (by rw [hfcs]; decide), if_neg (by simp only [hl, decide_eq_false htype, Bool.false_and, Bool.or_false, Bool.false_eq_true, not_false_eq_true]),
      if_neg (by rw [wanted_countRx f hp, hw]; decide), if_neg (by rw [hown, hring, hpcie, hfence]; decide)]
  · have hp : p.val < s.eth.ports.length := by rw [shaped_ports hs]; exact p.isLt
    rw [exec_ethFrameRx f hup, if_neg (by rw [hfcs]; decide), if_neg (by simp only [hl, decide_eq_false htype, Bool.false_and, Bool.or_false, Bool.false_eq_true, not_false_eq_true]),
      if_neg (by rw [wanted_countRx f hp, hw]; decide), if_pos (by rw [hown]; rfl)]
    rfl

end Sys2Proof.Machine
end

section
/-! gPTP messages and intervals (06). -/

namespace Sys2Proof.Machine

/-! Messages received. -/

theorem ethPort_countRx {p : Nat} {s : State} (h : p < s.eth.ports.length) :
    (countRx p s).ethPort p = { s.ethPort p with rxFrames := (s.ethPort p).rxFrames + 1 } := ethPort_modEthPort_self _ h

theorem port_lt {s : State} (hs : shaped s = true) (p : Fin 4) : p.val < s.eth.ports.length := by
  rw [shaped_ports hs]
  exact p.isLt

theorem ptpRole_countRx {p : Nat} {s : State} (h : p < s.eth.ports.length) (e : Bool) :
    ptpRole ((countRx p s).ethPort p) e = ptpRole (s.ethPort p) e := by
  rw [ethPort_countRx h]
  rfl

theorem domainOf_countRx (p : Nat) (s : State) (n : Byte) : domainOf (countRx p s) n = domainOf s n := rfl

theorem not_down {s : State} {p : Nat} (h : portUp s p = true) : ¬ ((!portUp s p) = true) := by rw [h]; decide

/-- The slave port has noted a Sync. -/
def noted (p : Nat) (m : SyncMsg) (e : Bool) (s : State) : State :=
  modRole p e (fun x => { x with
    lastSync := some s.last.cycles, logSync := some m.logInterval.toInt, lost := false
    waiting := if m.twoStep then some (m.seq, rxStamp s p m.tap, m.correction.toInt) else none }) (countRx p s)

theorem exec_sync {p : Fin 4} {m : SyncMsg} {e : Bool} {s : State} (hup : portUp s p = true) (hd : domainOf s m.domain = some e)
    (hrole : (ptpRole (s.ethPort p) e).role = 2) (hs : shaped s = true) :
    exec (.sync p m) s = if m.twoStep then .next (noted p m e s) else
      fin (syncComplete p e (rxStamp s p m.tap) (ptpTime m.seconds m.ns) m.correction.toInt m.rateOffset.toInt (noted p m e s)) := by
  change execSync p m s = _
  unfold execSync
  rw [if_neg (not_down hup)]
  dsimp only
  rw [domainOf_countRx, hd]
  dsimp only
  rw [ptpRole_countRx (port_lt hs p), if_neg (by rw [hrole]; decide)]
  rfl

theorem exec_followUp {p : Fin 4} {m : FollowUpMsg} {e : Bool} {rx : Time} {corr : Int} {s : State} (hup : portUp s p = true)
    (hd : domainOf s m.domain = some e) (hrole : (ptpRole (s.ethPort p) e).role = 2)
    (hwait : (ptpRole (s.ethPort p) e).waiting = some (m.seq, rx, corr)) (hs : shaped s = true) :
    exec (.followUp p m) s = fin (syncComplete p e rx (ptpTime m.seconds m.ns) (corr + m.correction.toInt)
      m.rateOffset.toInt (modRole p e (fun x => { x with waiting := none }) (countRx p s))) := by
  change execFollowUp p m s = _
  unfold execFollowUp
  rw [if_neg (not_down hup)]
  dsimp only
  rw [domainOf_countRx, hd]
  dsimp only
  rw [ptpRole_countRx (port_lt hs p), hwait]
  dsimp only
  rw [if_neg (by rw [hrole]; simp)]

/-- The vector an Announce carries. -/
def vectorOf (m : AnnounceMsg) : Vector802 where
  priority1 := m.priority1.toNat
  clockClass := m.clockClass.toNat
  accuracy := m.clockAccuracy.toNat
  variance := m.logVariance.toNat
  priority2 := m.priority2.toNat
  gmId := m.gmId
  steps := m.steps.toNat
  sender := m.sourceId
  senderPort := m.sourcePort.toNat

/-- The port has kept the vector of an Announce. -/
def announceKept (p : Nat) (m : AnnounceMsg) (e : Bool) (s : State) : State :=
  modRole p e (fun x => { x with best := some (vectorOf m), lastAnn := some s.last.cycles, logAnn := some m.logInterval.toInt })
    (countRx p s)

theorem exec_announce {p : Fin 4} {m : AnnounceMsg} {e : Bool} {s : State} (hup : portUp s p = true)
    (hd : domainOf s m.domain = some e) (hmode : s.eth.gptp.mode = 2) (hid : m.sourceId ≠ s.eth.gptp.clockId)
    (hsteps : m.steps.toNat < 255) (hcap : (s.ethPort p).asCapable = true) (hbest : (ptpRole (s.ethPort p) e).best = none)
    (hs : shaped s = true) : exec (.announce p m) s = fin (runBmca e (announceKept p m e s)) := by
  change execAnnounce p m s = _
  unfold execAnnounce
  rw [if_neg (not_down hup)]
  dsimp only
  rw [domainOf_countRx, hd]
  dsimp only
  have hcap' : ((countRx p s).ethPort p).asCapable = true := by rw [ethPort_countRx (port_lt hs p)]; exact hcap
  have hgptp : (countRx p s).eth.gptp = s.eth.gptp := rfl
  have hrole := ptpRole_countRx (port_lt hs p) e
  rw [hgptp, if_neg (by simp only [hmode, hid, hcap']; simpa using hsteps)]
  simp only [hrole, hbest, Bool.false_eq_true, if_false]
  rfl

theorem announce_kept {p : Fin 4} {m : AnnounceMsg} {e : Bool} {s : State} (hup : portUp s p = true)
    (hd : domainOf s m.domain = some e) (hmode : s.eth.gptp.mode = 2) (hid : m.sourceId ≠ s.eth.gptp.clockId)
    (hsteps : m.steps.toNat < 255) (hcap : (s.ethPort p).asCapable = true) (hbest : (ptpRole (s.ethPort p) e).best = none)
    (hs : shaped s = true) :
    ∃ u v, exec (.announce p m) s = .next (msixScan 16 u) ∧ (ptpRole (u.ethPort p) e).best = some v ∧ v.gmId = m.gmId ∧
      v.priority1 = m.priority1.toNat ∧ v.steps = m.steps.toNat ∧ v.sender = m.sourceId ∧
      (ptpRole (u.ethPort p) e).lastAnn = some s.last.cycles ∧
      sansEvents s u = { s with eth := u.eth, last := { s.last with src := u.last.src } } := by
  have hsame := SameBut.runBmca e (announceKept p m e s)
  refine ⟨_, vectorOf m, exec_announce hup hd hmode hid hsteps hcap hbest hs, ?_⟩
  generalize runBmca e (announceKept p m e s) = u at hsame
  have hrole := hsame.role p e
  rw [announceKept, ptpRole_modRole_self _ (by rw [countRx, modEthPort_eth_ports, length_updAt]; exact port_lt hs p)] at hrole
  exact ⟨(congrArg PtpRole.best hrole :), rfl, rfl, rfl, rfl, (congrArg PtpRole.lastAnn hrole :),
    frame_of_sansEther (hsame.sansEther.trans (sansEther_modRole ..))⟩

/-! Peer delay. -/

theorem portSends_up {s : State} {p : Nat} (h : portSends s p = true) : portUp s p = true := by
  simp only [portSends, Bool.and_eq_true] at h
  exact h.1

theorem exec_pdelay (p : Fin 4) (m : PdelayMsg) (s : State) : exec (.pdelay p m) s = execPdelay p m s := rfl

theorem portSends_countRx {p : Nat} {s : State} (h : p < s.eth.ports.length) : portSends (countRx p s) p = portSends s p := by
  have hport := ethPort_countRx h
  simp only [portSends, portUp, hport]
  rfl

/-- The turnaround of an answer: free within 10 ms, and not before the line is free. -/
def answerTime (p tap : Nat) (s : State) : Int :=
  max (fracOf (rxStamp s p tap) + (((drawFree s).1.toNat % (10000000 * 65536) : Nat) : Int)) (fracOf (sendStamp s p 0))

theorem answerTime_bounds (p tap : Nat) (s : State) : fracOf (rxStamp s p tap) ≤ answerTime p tap s ∧
    (answerTime p tap s < fracOf (rxStamp s p tap) + 10000000 * 65536 ∨ answerTime p tap s = fracOf (sendStamp s p 0)) := by
  unfold answerTime
  omega

theorem sendStamp_countRx {p : Nat} {s : State} (h : p < s.eth.ports.length) (tap : Nat) :
    sendStamp (countRx p s) p tap = sendStamp s p tap := by
  have hwait : lineWait (countRx p s) p = lineWait s p := by
    rw [lineWait, ethPort_countRx h]
    rfl
  rw [sendStamp, hwait]
  rfl

theorem pdelay_request {p : Fin 4} (seq : Half) (asked : PortId) (tap : Fin 8) {s : State} (hsends : portSends s p = true)
    (hmode : s.eth.gptp.mode ≠ 0) (hs : shaped s = true) :
    let t2 := fracOf (rxStamp s p tap)
    ∃ u t3, exec (.pdelay p (.request seq asked tap)) s = .next u ∧ t2 ≤ t3 ∧
      (t3 < t2 + 10000000 * 65536 ∨ t3 = fracOf (sendStamp s p 0)) ∧
      u.out = s.out ++ [.ethPdelayResp (ptpHead s p false seq) asked (t2 / 65536).toNat (t2 % 65536),
        .ethPdelayFollowUp (ptpHead s p false seq) asked (t3 / 65536).toNat (t3 % 65536)] ∧
      u = { s with eth := u.eth, out := u.out, free := u.free } := by
  intro t2
  have hsends' : portSends (countRx p s) p = true := by rw [portSends_countRx (port_lt hs p)]; exact hsends
  have hgptp : (countRx p s).eth.gptp = s.eth.gptp := rfl
  have hbounds := answerTime_bounds p tap (countRx p s)
  rw [sendStamp_countRx (port_lt hs p)] at hbounds
  refine ⟨sendPtp p pdelayBits (.ethPdelayFollowUp (ptpHead s p false seq) asked (answerTime p tap (countRx p s) / 65536).toNat
      (answerTime p tap (countRx p s) % 65536))
    (sendPtp p pdelayBits (.ethPdelayResp (ptpHead s p false seq) asked (t2 / 65536).toNat (t2 % 65536)) (drawFree (countRx p s)).2),
    answerTime p tap (countRx p s), ?_, hbounds.1, hbounds.2, ?_, rfl⟩
  · rw [exec_pdelay]
    unfold execPdelay
    rw [if_neg (not_down (portSends_up hsends))]
    dsimp only
    rw [hgptp, if_neg hmode, hsends', if_neg (by decide)]
    rfl
  · exact List.append_assoc ..

theorem pdelay_response {p : Fin 4} (seq : Half) (seconds : BitVec 48) (ns : Word) (corr : DWord) {t1 : Int} (tap : Fin 8) {s : State}
    (hup : portUp s p = true) (hmode : s.eth.gptp.mode ≠ 0) (hreq : (s.ethPort p).req = some (seq, t1)) (hs : shaped s = true) :
    exec (.pdelay p (.response seq (portId s p) seconds ns corr tap)) s = .next (modEthPort p (fun x => { x with
      resp := some (seq, ptpTime seconds ns + corr.toInt, fracOf (rxStamp s p tap)) }) (countRx p s)) := by
  have hport := ethPort_countRx (port_lt hs p)
  have hgptp : (countRx p s).eth.gptp = s.eth.gptp := rfl
  rw [exec_pdelay]
  unfold execPdelay
  rw [if_neg (not_down hup)]
  dsimp only
  rw [hgptp, if_neg hmode, hport]
  simp only [hreq]
  exact if_pos (by simp [portId, hgptp])

/-- The rate ratio and the link delay of a completed exchange (R149). -/
def measured (p : Nat) (t1 t2 t3 t4 : Int) (ratio : Int × Nat) (s : State) : State :=
  modEthPort p (fun x => { x with
    req := none, resp := none, respPrev := some (t3, t4), ratio, linkDelay := linkDelayOf ratio t1 t2 t3 t4, lostResponses := 0 }) s

theorem exec_pdelayFollowUp {p : Fin 4} (seq : Half) (seconds : BitVec 48) (ns : Word) (corr : DWord) {t1 t2 t4 : Int} {s : State}
    (hup : portUp s p = true) (hmode : s.eth.gptp.mode ≠ 0) (hreq : (s.ethPort p).req = some (seq, t1))
    (hresp : (s.ethPort p).resp = some (seq, t2, t4)) (hs : shaped s = true) :
    ∃ ratio, exec (.pdelay p (.responseFollowUp seq (portId s p) seconds ns corr)) s =
      fin (setCapable p (decide (linkDelayOf ratio t1 t2 (ptpTime seconds ns + corr.toInt) t4 ≤ (s.eth.gptp.pdelayThresh * 65536 : Nat)))
        (measured p t1 t2 (ptpTime seconds ns + corr.toInt) t4 ratio (countRx p s))) := by
  have hport := ethPort_countRx (port_lt hs p)
  have hgptp : (countRx p s).eth.gptp = s.eth.gptp := rfl
  rw [exec_pdelay]
  unfold execPdelay
  rw [if_neg (not_down hup)]
  dsimp only
  rw [hgptp, if_neg hmode, hport]
  simp only [hreq, hresp]
  rw [if_neg (by simp [portId, hgptp])]
  exact ⟨_, rfl⟩

theorem pdelay_followUp {p : Fin 4} (seq : Half) (seconds : BitVec 48) (ns : Word) (corr : DWord) {t1 t2 t4 : Int} {s : State}
    (hup : portUp s p = true) (hmode : s.eth.gptp.mode ≠ 0) (hreq : (s.ethPort p).req = some (seq, t1))
    (hresp : (s.ethPort p).resp = some (seq, t2, t4)) (hs : shaped s = true) :
    ∃ u, exec (.pdelay p (.responseFollowUp seq (portId s p) seconds ns corr)) s = .next (msixScan 16 u) ∧
      (u.ethPort p).linkDelay = linkDelayOf (u.ethPort p).ratio t1 t2 (ptpTime seconds ns + corr.toInt) t4 ∧
      (u.ethPort p).asCapable = decide ((u.ethPort p).linkDelay ≤ (s.eth.gptp.pdelayThresh * 65536 : Nat)) ∧
      (u.ethPort p).req = none ∧ sansEvents s u = { s with eth := u.eth, last := { s.last with src := u.last.src } } := by
  obtain ⟨ratio, hexec⟩ := exec_pdelayFollowUp seq seconds ns corr hup hmode hreq hresp hs
  refine ⟨_, hexec, ?_⟩
  generalize hcap : decide (linkDelayOf ratio t1 t2 (ptpTime seconds ns + corr.toInt) t4 ≤ (s.eth.gptp.pdelayThresh * 65536 : Nat)) = b
  have hsame := SameBut.setCapable p b (measured p t1 t2 (ptpTime seconds ns + corr.toInt) t4 ratio (countRx p s))
  generalize setCapable p b (measured p t1 t2 (ptpTime seconds ns + corr.toInt) t4 ratio (countRx p s)) = u at hsame
  have hlen : p.val < (measured p t1 t2 (ptpTime seconds ns + corr.toInt) t4 ratio (countRx p s)).eth.ports.length := by
    simp only [measured, countRx, modEthPort_eth_ports, length_updAt]
    exact port_lt hs p
  have hport := hsame.port p
  rw [ethPort_modEthPort_self _ hlen, measured, ethPort_modEthPort_self _ (by simpa [countRx] using port_lt hs p)] at hport
  have hdelay : (u.ethPort p).linkDelay = linkDelayOf ratio t1 t2 (ptpTime seconds ns + corr.toInt) t4 :=
    (congrArg EthPort.linkDelay hport :)
  have hratio : (u.ethPort p).ratio = ratio := (congrArg EthPort.ratio hport :)
  have hasCap : (u.ethPort p).asCapable = b := (congrArg EthPort.asCapable hport :)
  refine ⟨by rw [hdelay, hratio], by rw [hasCap, hdelay, hcap], (congrArg EthPort.req hport :), frame_of_sansEther ?_⟩
  exact hsame.sansEther

/-! Intervals. -/

/-- A state without the ports of 06, what is sent and the counter of free values. -/
def sansSent (s : State) : State := { s with eth := State.reset.eth, out := [], free := 0 }

theorem frame_of_sansSent {s u : State} (h : sansSent u = sansSent s) : u = { s with eth := u.eth, out := u.out, free := u.free } := by
  obtain ⟨⟩ := u
  obtain ⟨⟩ := s
  simp only [sansSent, State.mk.injEq] at h ⊢
  simp only [h, and_self]

theorem frame_of_sansSent_free {s u : State} (h : sansSent u = sansSent s) (hfree : u.free = s.free) :
    u = { s with eth := u.eth, out := u.out } := (frame_of_sansSent h).trans (by rw [hfree])

/-- Sync and Follow_Up of a grandmaster on a master port, its origin stamped at a free tap. -/
def originSync (e : Bool) (s : State) (p : Nat) : State :=
  sendSync e p (fracOf (sendStamp (drawFree s).2 p ((drawFree s).1.toNat % 8)) / 65536)
    (fracOf (sendStamp (drawFree s).2 p ((drawFree s).1.toNat % 8)) % 65536) 0 (drawFree s).2

theorem foldl_originSync (e : Bool) (l : List Nat) (s : State) :
    (l.foldl (originSync e) s).out.length = s.out.length + 2 * l.length ∧ sansSent (l.foldl (originSync e) s) = sansSent s ∧
      ptpDomain (l.foldl (originSync e) s) e = ptpDomain s e := by
  refine ⟨?_, foldl_keeps (f := originSync e) sansSent (fun _ _ => rfl) l s,
    foldl_keeps (f := originSync e) (fun s => ptpDomain s e) (fun _ _ => rfl) l s⟩
  induction l generalizing s with
  | nil => rfl
  | cons p l ih =>
    have hout : (originSync e s p).out.length = s.out.length + 2 := by simp [originSync, sendSync, sendPtp, emit, takeLine, drawFree]
    rw [List.foldl_cons, ih, hout, List.length_cons]
    omega

theorem masterPorts_modDomain (e : Bool) (f : PtpDomain → PtpDomain) (s : State) : masterPorts (modDomain e f s) e = masterPorts s e := by
  cases e <;> rfl

theorem ptpDomain_modDomain (e : Bool) (f : PtpDomain → PtpDomain) (s : State) : ptpDomain (modDomain e f s) e = f (ptpDomain s e) := by
  cases e <;> rfl

theorem syncInterval_sends {e : Bool} {s : State} (hgm : isGrandmaster s e = true) (hvalid : s.last.valid = true) :
    ∃ u, exec (.syncInterval e) s = .next u ∧ (ptpDomain u e).syncSeq = (ptpDomain s e).syncSeq + 1 ∧
      u.out.length = s.out.length + 2 * (masterPorts s e).length ∧ u = { s with eth := u.eth, out := u.out, free := u.free } := by
  have hexec : exec (.syncInterval e) s = .next ((masterPorts (modDomain e (fun d => { d with syncSeq := d.syncSeq + 1 }) s) e).foldl
      (originSync e) (modDomain e (fun d => { d with syncSeq := d.syncSeq + 1 }) s)) := by
    change execSyncInterval e s = _
    unfold execSyncInterval
    rw [if_neg (by rw [hgm, hvalid]; decide)]
    rfl
  obtain ⟨hout, hframe, hdomain⟩ := foldl_originSync e (masterPorts (modDomain e (fun d => { d with syncSeq := d.syncSeq + 1 }) s) e)
    (modDomain e (fun d => { d with syncSeq := d.syncSeq + 1 }) s)
  refine ⟨_, hexec, ?_, ?_, frame_of_sansSent (hframe.trans (by cases e <;> rfl))⟩
  · rw [hdomain, ptpDomain_modDomain]
  · rw [hout, masterPorts_modDomain]
    cases e <;> rfl

theorem syncInterval_idle {e : Bool} {s : State} (h : isGrandmaster s e = false ∨ s.last.valid = false) :
    exec (.syncInterval e) s = .next s := by
  change execSyncInterval e s = _
  refine if_pos ?_
  obtain h | h := h <;> simp [h]

theorem ethPort_sendPtp_self {p : Nat} (bits : Nat) (o : Output) {s : State} (h : p < s.eth.ports.length) :
    (sendPtp p bits o s).ethPort p = { s.ethPort p with
      txFrames := (s.ethPort p).txFrames + 1
      lineFree := max s.last.cycles (s.ethPort p).lineFree + lineCycles (s.ethPort p) bits } := ethPort_modEthPort_self _ h

theorem pdelayInterval_asks {p : Fin 4} {s : State} (hmode : s.eth.gptp.mode ≠ 0) (hsends : portSends s p = true)
    (hreq : (s.ethPort p).req = none) (hs : shaped s = true) (hlost : (s.ethPort p).lostResponses ≤ 9) :
    ∃ u t1, exec (.pdelayInterval p) s = .next u ∧ (u.ethPort p).pdelaySeq = (s.ethPort p).pdelaySeq + 1 ∧
      (u.ethPort p).req = some ((s.ethPort p).pdelaySeq + 1, t1) ∧
      u.out = s.out ++ [.ethPdelayReq { port := p, domain := 0, source := portId s p, seq := (s.ethPort p).pdelaySeq + 1 }] ∧
      u = { s with eth := u.eth, out := u.out, free := u.free } := by
  have hsame : modEthPort p (fun x => { x with lostResponses := (s.ethPort p).lostResponses }) s = s := by
    unfold modEthPort
    rw [updAt_self]
    rfl
  have hexec : exec (.pdelayInterval p) s = .next (sendPtp p pdelayBits (.ethPdelayReq (ptpHead s p false ((s.ethPort p).pdelaySeq + 1)))
      (modEthPort p (fun x => { x with
        pdelaySeq := (s.ethPort p).pdelaySeq + 1
        req := some ((s.ethPort p).pdelaySeq + 1, fracOf (sendStamp (drawFree s).2 p ((drawFree s).1.toNat % 8))), resp := none })
        (drawFree s).2)) := by
    change execPdelayInterval p s = _
    unfold execPdelayInterval
    rw [if_neg (by simp only [hsends, hmode]; decide)]
    simp only [hreq, Option.isSome_none, Bool.false_eq_true, if_false, hsame, if_neg (Nat.not_lt.2 hlost)]
    rfl
  refine ⟨_, fracOf (sendStamp (drawFree s).2 p ((drawFree s).1.toNat % 8)), hexec, ?_, ?_, rfl, rfl⟩ <;>
    rw [ethPort_sendPtp_self _ _ (by rw [modEthPort_eth_ports, length_updAt]; exact port_lt hs p),
      ethPort_modEthPort_self (s := (drawFree s).2) _ (port_lt hs p)]

/-- An Announce goes out on a master port. -/
def sendAnnounce (e : Bool) (s : State) (p : Nat) : State :=
  sendPtp p announceBits (.ethAnnounce (ptpHead s p e (ptpDomain s e).annSeq)
    { announced s e with senderPort := p + 1 } s.eth.gptp.timeSource) s

/-- What an Announce is made of, beside its port. -/
def announceView (e : Bool) (s : State) : Vector802 × GptpSet × PtpDomain := (announced s e, s.eth.gptp, ptpDomain s e)

theorem ptpRole_sendPtp (p bits q : Nat) (o : Output) (e : Bool) (s : State) :
    ptpRole ((sendPtp p bits o s).ethPort q) e = ptpRole (s.ethPort q) e := by
  have hmap : (sendPtp p bits o s).eth.ports.map (fun x => ptpRole x e) = s.eth.ports.map fun x => ptpRole x e :=
    map_updAt _ _ _ _ fun x => by cases e <;> rfl
  exact nth_of_map_eq hmap q

theorem announceView_sendAnnounce (e : Bool) (s : State) (p : Nat) : announceView e (sendAnnounce e s p) = announceView e s := by
  have hannounced : announced (sendAnnounce e s p) e = announced s e := by
    simp only [announced, slavePort, sendAnnounce, ptpRole_sendPtp]
    rfl
  simp only [announceView, hannounced]
  rfl

/-- The Announce of a port, by what it is made of. -/
def announceOut (e : Bool) (x : Vector802 × GptpSet × PtpDomain) (p : Nat) : Output :=
  .ethAnnounce { port := p, domain := if e then x.2.1.domain1 else 0, source := { clock := x.2.1.clockId, port := BitVec.ofNat 16 (p + 1) }
                 seq := x.2.2.annSeq } { x.1 with senderPort := p + 1 } x.2.1.timeSource

theorem out_foldl_sendAnnounce (e : Bool) (l : List Nat) (s : State) :
    (l.foldl (sendAnnounce e) s).out = s.out ++ l.map (announceOut e (announceView e s)) := by
  induction l generalizing s with
  | nil => simp
  | cons p l ih =>
    have hout : (sendAnnounce e s p).out = s.out ++ [announceOut e (announceView e s) p] := rfl
    rw [List.foldl_cons, ih, announceView_sendAnnounce, hout, List.append_assoc]
    rfl

/-- The next announceSequenceNumber of a domain. -/
def annCounted (e : Bool) (s : State) : State := modDomain e (fun d => { d with annSeq := d.annSeq + 1 }) s

theorem announceView_annCounted (e : Bool) (s : State) : announceView e (annCounted e s) =
    (announced s e, s.eth.gptp, { ptpDomain s e with annSeq := (ptpDomain s e).annSeq + 1 }) := by
  cases e <;> rfl

theorem announceInterval_sends {e : Bool} {s : State} (hmode : s.eth.gptp.mode = 2) (hon : domainOn s e = true) :
    ∃ u, exec (.announceInterval e) s = .next u ∧ (ptpDomain u e).annSeq = (ptpDomain s e).annSeq + 1 ∧
      u.out = s.out ++ (masterPorts s e).map (fun p => .ethAnnounce (ptpHead s p e ((ptpDomain s e).annSeq + 1))
        { announced s e with senderPort := p + 1 } s.eth.gptp.timeSource) ∧
      u = { s with eth := u.eth, out := u.out } := by
  have hexec : exec (.announceInterval e) s = .next ((masterPorts s e).foldl (sendAnnounce e) (annCounted e s)) := by
    rw [← masterPorts_modDomain e (fun d => { d with annSeq := d.annSeq + 1 }) s]
    change execAnnounceInterval e s = _
    unfold execAnnounceInterval
    rw [if_neg (by rw [hmode, hon]; decide)]
    rfl
  have hview : announceView e ((masterPorts s e).foldl (sendAnnounce e) (annCounted e s)) = _ :=
    (foldl_keeps (announceView e) (announceView_sendAnnounce e) _ _).trans (announceView_annCounted e s)
  have hframe : sansSent ((masterPorts s e).foldl (sendAnnounce e) (annCounted e s)) = sansSent s :=
    (foldl_keeps (f := sendAnnounce e) sansSent (fun _ _ => rfl) _ _).trans (by cases e <;> rfl)
  have hfree : ((masterPorts s e).foldl (sendAnnounce e) (annCounted e s)).free = s.free :=
    (foldl_keeps (f := sendAnnounce e) State.free (fun _ _ => rfl) _ _).trans (by cases e <;> rfl)
  refine ⟨_, hexec, (congrArg (fun x => x.2.2.annSeq) hview :), ?_, frame_of_sansSent_free hframe hfree⟩
  rw [out_foldl_sendAnnounce, announceView_annCounted]
  cases e <;> rfl

/-! Receipt timeouts. -/

theorem eth_sourceLostOp (s : State) : (sourceLostOp s).eth = s.eth := by
  have hset : ∀ who new, (setServo who new s).eth = s.eth := fun who new => (congrArg State.eth (sansEvents_setServo s who new s) :)
  unfold sourceLostOp
  dsimp only
  split <;> simp only [record_eth, hset]

/-- The slave port has heard no Sync for its receipt time. -/
def syncLost (p : Nat) (e : Bool) (s : State) : State :=
  record 0x0205 (ownerOf s 0x0B p) [(1, p), (1, bit e)] (modRole p e (fun x => { x with lost := true }) s)

theorem exec_syncReceiptTimeout {p : Fin 4} {e : Bool} {c : Nat} {s : State} (hon : domainOn s e = true)
    (hrole : (ptpRole (s.ethPort p) e).role = 2) (hlost : (ptpRole (s.ethPort p) e).lost = false)
    (hsync : (ptpRole (s.ethPort p) e).lastSync = some c)
    (hspan : c + s.eth.gptp.syncTimeout * intervalCycles ((ptpRole (s.ethPort p) e).logSync.getD s.eth.gptp.logSync) ≤ s.last.cycles) :
    exec (.syncReceiptTimeout p e) s = fin (if (syncLost p e s).last.src.toNat = 0x10 + p && (syncLost p e s).last.domain.toNat = bit e
      then sourceLostOp (syncLost p e s) else syncLost p e s) := by
  change execSyncReceiptTimeout p e s = _
  unfold execSyncReceiptTimeout
  simp only [hsync]
  rw [if_neg (by simp only [hon, hrole, hlost, decide_eq_false (Nat.not_lt.2 hspan)]; decide)]
  rfl

theorem syncReceiptTimeout_loses {p : Fin 4} {e : Bool} {c : Nat} {s : State} (hon : domainOn s e = true)
    (hrole : (ptpRole (s.ethPort p) e).role = 2) (hlost : (ptpRole (s.ethPort p) e).lost = false)
    (hsync : (ptpRole (s.ethPort p) e).lastSync = some c) (hs : shaped s = true)
    (hspan : c + s.eth.gptp.syncTimeout * intervalCycles ((ptpRole (s.ethPort p) e).logSync.getD s.eth.gptp.logSync) ≤ s.last.cycles) :
    ∃ u, exec (.syncReceiptTimeout p e) s = .next (msixScan 16 u) ∧ (ptpRole (u.ethPort p) e).lost = true ∧
      (¬ (s.last.src.toNat = 0x10 + p ∧ s.last.domain.toNat = bit e) → u.last = s.last) ∧
      u.eth.gptp = s.eth.gptp ∧ u.eth.talkers = s.eth.talkers ∧ u.eth.listeners = s.eth.listeners := by
  refine ⟨_, exec_syncReceiptTimeout hon hrole hlost hsync hspan, ?_⟩
  have hlast : (syncLost p e s).last = s.last := by simp [syncLost, modRole]
  have heth : (if (syncLost p e s).last.src.toNat = 0x10 + p && (syncLost p e s).last.domain.toNat = bit e
      then sourceLostOp (syncLost p e s) else syncLost p e s).eth = (modRole p e (fun x => { x with lost := true }) s).eth := by
    split
    · rw [eth_sourceLostOp, syncLost, record_eth]
    · rw [syncLost, record_eth]
  refine ⟨?_, fun hother => ?_, ?_, ?_, ?_⟩
  · rw [State.ethPort, heth]
    have h := ptpRole_modRole_self (e := e) (fun x => { x with lost := true }) (port_lt hs p)
    exact (congrArg PtpRole.lost h :)
  · rw [hlast, if_neg (by simpa using hother), hlast]
  · rw [heth]; rfl
  · rw [heth]; rfl
  · rw [heth]; rfl

theorem ethPort_record (c o : Nat) (d : List (Nat × Nat)) (s : State) (p : Nat) : (record c o d s).ethPort p = s.ethPort p := by
  rw [State.ethPort, record_eth]
  rfl

/-- The port has heard no Announce for its receipt time. -/
def announceLost (p : Nat) (e : Bool) (s : State) : State :=
  record 0x0206 (ownerOf s 0x0B p) [(1, p), (1, bit e)] (modRole p e (fun x => { x with best := none, lastAnn := none }) s)

theorem announceReceiptTimeout_drops {p : Fin 4} {e : Bool} {c : Nat} {s : State} (hmode : s.eth.gptp.mode = 2)
    (hon : domainOn s e = true) (hann : (ptpRole (s.ethPort p) e).lastAnn = some c) (hs : shaped s = true)
    (hspan : c + s.eth.gptp.announceTimeout * intervalCycles ((ptpRole (s.ethPort p) e).logAnn.getD s.eth.gptp.logAnnounce) ≤ s.last.cycles) :
    ∃ u, exec (.announceReceiptTimeout p e) s = .next (msixScan 16 u) ∧ (ptpRole (u.ethPort p) e).best = none ∧
      (ptpRole (u.ethPort p) e).lastAnn = none ∧
      sansEvents s u = { s with eth := u.eth, last := { s.last with src := u.last.src } } := by
  have hexec : exec (.announceReceiptTimeout p e) s = fin (runBmca e (announceLost p e s)) := by
    change execAnnounceReceiptTimeout p e s = _
    unfold execAnnounceReceiptTimeout
    simp only [hann]
    rw [if_neg (by simp only [hmode, hon, decide_eq_false (Nat.not_lt.2 hspan)]; decide)]
    rfl
  have hsame := SameBut.runBmca e (announceLost p e s)
  refine ⟨_, hexec, ?_⟩
  generalize runBmca e (announceLost p e s) = u at hsame
  have hrole := hsame.role p e
  rw [announceLost, ethPort_record, ptpRole_modRole_self _ (port_lt hs p)] at hrole
  refine ⟨(congrArg PtpRole.best hrole :), (congrArg PtpRole.lastAnn hrole :), frame_of_sansEther (hsame.sansEther.trans ?_)⟩
  rw [announceLost, sansEther_record, sansEther_modRole]

/-- Settles O31, message by message and interval by interval. -/
theorem ptpMessagesAndIntervals : Obligations.PtpMessagesAndIntervals := by
  refine ⟨⟨fun p m e s hup hd hrole hs => ?_, fun p m e rx corr s hup hd hrole hwait hs => exec_followUp hup hd hrole hwait hs,
      fun p m e s hup hd hmode hid hsteps hcap hbest hs => announce_kept hup hd hmode hid hsteps hcap hbest hs,
      fun p seq asked tap s hsends hmode hs => pdelay_request seq asked tap hsends hmode hs,
      fun p seq seconds ns corr t1 tap s hup hmode hreq hs => pdelay_response seq seconds ns corr tap hup hmode hreq hs,
      fun p seq seconds ns corr t1 t2 t4 s hup hmode hreq hresp hs => pdelay_followUp seq seconds ns corr hup hmode hreq hresp hs⟩,
    ⟨fun e s hgm hvalid => syncInterval_sends hgm hvalid, fun e s h => syncInterval_idle h,
      fun p s hmode hsends hreq hs hlost => pdelayInterval_asks hmode hsends hreq hs hlost,
      fun e s hmode hon => announceInterval_sends hmode hon,
      fun p e c s hon hrole hlost hsync hs hspan => syncReceiptTimeout_loses hon hrole hlost hsync hs hspan,
      fun p e c s hmode hon hann hs hspan => announceReceiptTimeout_drops hmode hon hann hs hspan⟩⟩
  have hexec := exec_sync (m := m) hup hd hrole hs
  exact ⟨fun htwo => by rw [hexec, if_pos htwo]; rfl, fun hone => by rw [hexec, if_neg (by rw [hone]; decide)]; rfl⟩

end Sys2Proof.Machine
end

section
/-! AVTP and CRF packets (06). -/

namespace Sys2Proof.Machine

/-! Packets of a listener. -/

theorem seqGap_keeps (k : Nat) (seq : Byte) (s : State) : (seqGap k seq s).audio = s.audio := by
  have hmod : ∀ f (v : State), (modStream false k f v).audio = v.audio := fun _ _ => rfl
  unfold seqGap
  dsimp only
  split
  · split
    · exact hmod ..
    · rw [record_audio]
      exact (hmod ..).trans (hmod ..)
  · exact hmod ..

theorem boundaryFrom_seqGap (k : Nat) (seq : Byte) (s : State) (fs : Nat) (t : Time) :
    boundaryFrom (seqGap k seq s) fs t = boundaryFrom s fs t := by
  simp only [boundaryFrom, seqGap_keeps]

/-- A listener's packet is not its own to judge. -/
theorem avtpPacket_guard {k : Fin 64} {m : AvtpPkt} {g : StreamCfg} {s : State} (hon : streamOn s (s.stream false k) = true)
    (hup : portUp s g.port = true) (hdest : m.dest = g.dest) :
    ¬ ((!streamOn s (s.stream false k) || !portUp s g.port || decide (m.dest ≠ g.dest)) = true) := by
  rw [hon, hup, decide_eq_false (not_not_intro hdest)]
  decide

theorem avtpPacket_aaf {k : Fin 64} {m : AvtpPkt} {c : AvtpCfg} {s : State} (hcfg : (s.stream false k).cfg = some (.aaf c))
    (hon : streamOn s (s.stream false k) = true) (hup : portUp s c.port.toNat = true) (hdest : m.dest = c.destMac) :
    (m.format ≠ c.format ∨ m.nsr ≠ c.nsr ∨ m.channels ≠ c.channels →
      exec (.avtpPacket k m) s = .next (msixScan 16 (modStream false k (fun x => { x with bad := x.bad + 1 })
        (countRx c.port.toNat s)))) ∧
    (m.format = c.format → m.nsr = c.nsr → m.channels = c.channels → m.tv = true →
      exec (.avtpPacket k m) s = .next (msixScan 16 (judgePacket k (nsrRate c.nsr.toNat) (rxStamp s c.port.toNat m.tap)
        (boundaryFrom s (nsrRate c.nsr.toNat) (ofNs (presentation (rxStamp s c.port.toNat m.tap) m.timestamp)))
        (samplesOf (formatBytes c.format.toNat) c.channels.toNat m.payload) (seqGap k m.seq (countRx c.port.toNat s))))) := by
  have hexec : exec (.avtpPacket k m) s = execAvtpPacket k m s := rfl
  rw [hexec]
  unfold execAvtpPacket
  simp only [hcfg]
  rw [if_neg (avtpPacket_guard (g := .aaf c) hon hup hdest)]
  refine ⟨fun hbad => ?_, fun hformat hnsr hchannels htv => ?_⟩
  · exact if_pos (by simpa [or_assoc] using hbad)
  · rw [if_neg (by simp [hformat, hnsr, hchannels]), if_pos htv, boundaryFrom_seqGap]
    rfl

theorem avtpPacket_crf {k : Fin 64} {m : AvtpPkt} {c : CrfCfg} {s : State} (hcfg : (s.stream false k).cfg = some (.crf c))
    (hon : streamOn s (s.stream false k) = true) (hup : portUp s c.port.toNat = true) (hdest : m.dest = c.destMac) :
    (m.crfType ≠ 1 → exec (.avtpPacket k m) s = .next (msixScan 16 (modStream false k (fun x => { x with bad := x.bad + 1 })
      (countRx c.port.toNat s)))) ∧
    (m.crfType = 1 → exec (.avtpPacket k m) s = .next (msixScan 16 (modStream false k
      (fun x => measureCrf c (seqGap k m.seq (countRx c.port.toNat s))
        (if (s.stream false k).seq = some (m.seq - 1) then (s.stream false k).crfLast else none) m.stamps
        { x with state := 1, packets := x.packets + 1 }) (seqGap k m.seq (countRx c.port.toNat s))))) := by
  have hexec : exec (.avtpPacket k m) s = execAvtpPacket k m s := rfl
  rw [hexec]
  unfold execAvtpPacket
  simp only [hcfg]
  rw [if_neg (avtpPacket_guard (g := .crf c) hon hup hdest)]
  exact ⟨fun htype => if_pos htype, fun htype => if_neg (not_not_intro htype)⟩

theorem stream_record (c o : Nat) (d : List (Nat × Nat)) (s : State) (b : Bool) (k : Nat) :
    (record c o d s).stream b k = s.stream b k := by
  rw [State.stream, record_eth]
  rfl

theorem frame_of_eth (base : State) {u : State} (h : u = { base with eth := u.eth }) : sansEvents base u = { base with eth := u.eth } := by
  rw [h]
  rfl

theorem judgePacket_judges {k fs : Nat} (rx : Time) (b : Int) (samples : List (List Word)) {s : State} (hs : shaped s = true)
    (hk : k < 64) :
    let u := judgePacket k fs rx b samples s
    let late := boundaryBefore s fs b rx 2
    let early := boundaryAfter s fs (b + samples.length - 1) rx 128
    (u.stream false k).next = some (b + samples.length) ∧ (u.stream false k).state = 1 ∧
    (u.stream false k).late = (s.stream false k).late + (if late then 1 else 0) ∧
    (u.stream false k).early = (s.stream false k).early + (if !late && early then 1 else 0) ∧
    (u.stream false k).packets = (s.stream false k).packets + (if late || early then 0 else 1) ∧
    (u.stream false k).buf = (if late || early then (s.stream false k).buf else placeSamples b samples (s.stream false k).buf) ∧
    sansEvents s u = { s with eth := u.eth } := by
  have hstream : ∀ f g, (modStream false k g (modStream false k f s)).stream false k = g (f (s.stream false k)) := by
    intro f g
    rw [modStream_modStream, stream_modStream_self _ (by rw [shaped_streams hs]; exact hk)]
  have hlate : ∀ f, boundaryBefore (modStream false k f s) fs b rx 2 = boundaryBefore s fs b rx 2 := fun _ => rfl
  have hearly : ∀ f, boundaryAfter (modStream false k f s) fs (b + samples.length - 1) rx 128 =
    boundaryAfter s fs (b + samples.length - 1) rx 128 := fun _ => rfl
  intro u late early
  have hu : u = judgePacket k fs rx b samples s := rfl
  unfold judgePacket at hu
  dsimp only at hu
  rw [hlate, hearly] at hu
  cases hl : boundaryBefore s fs b rx 2
  case true =>
    rw [hl, if_pos rfl] at hu
    simp only [late, early, hl, hu, stream_record, hstream, sansEvents_record, record_eth]
    simp
    rfl
  case false =>
    rw [hl, if_neg (by decide)] at hu
    cases he : boundaryAfter s fs (b + samples.length - 1) rx 128
    case true =>
      rw [he, if_pos rfl] at hu
      simp only [late, early, hl, he, hu, stream_record, hstream, sansEvents_record, record_eth]
      simp
      rfl
    case false =>
      rw [he, if_neg (by decide)] at hu
      simp only [late, early, hl, he, hu, hstream]
      simp
      rfl

/-! A talker's frame. -/

theorem port_lt_of_up {s : State} {p : Nat} (h : portUp s p = true) : p < s.eth.ports.length := by
  by_contra hp
  have hport : s.ethPort p = default := by
    rw [State.ethPort, nth, List.getD_eq_getElem?_getD, List.getElem?_eq_none (Nat.le_of_not_lt hp)]
    rfl
  simp only [portUp, hport, Bool.and_eq_true] at h
  exact absurd h.1.1.1.1 (by decide)

theorem portSends_modEthPort (p q : Nat) {f : EthPort → EthPort}
    (hf : ∀ x, ((f x).mode, (f x).link, (f x).mac) = (x.mode, x.link, x.mac)) (s : State) :
    portSends (modEthPort p f s) q = portSends s q := by
  have hmap : (modEthPort p f s).eth.ports.map (fun x => (x.mode, x.link, x.mac)) = s.eth.ports.map fun x => (x.mode, x.link, x.mac) :=
    map_updAt _ _ _ _ hf
  have hport : (((modEthPort p f s).ethPort q).mode, ((modEthPort p f s).ethPort q).link, ((modEthPort p f s).ethPort q).mac) =
      ((s.ethPort q).mode, (s.ethPort q).link, (s.ethPort q).mac) := nth_of_map_eq hmap q
  simp only [Prod.mk.injEq] at hport
  obtain ⟨hmode, hlink, hmac⟩ := hport
  simp only [portSends, portUp, hmode, hlink, hmac]
  rfl

/-- A frame at the end of the queue of its class, the credits counted to the present cycle. -/
def queued (now cls : Nat) (x : AvFrame × Nat) (q : EthPort) : EthPort :=
  if cls = 0 then { accrueCredits now q with shapeA := { (accrueCredits now q).shapeA with frames := (accrueCredits now q).shapeA.frames ++ [x] } }
  else { accrueCredits now q with shapeB := { (accrueCredits now q).shapeB with frames := (accrueCredits now q).shapeB.frames ++ [x] } }

theorem queueFrame_eq (p cls bits : Nat) (f : AvFrame) (s : State) :
    queueFrame p cls bits f s = serveLine (modEthPort p (queued s.last.cycles cls (f, bits)) s) p := by
  unfold queueFrame
  dsimp only
  rw [modEthPort_modEthPort]
  rfl

theorem accrue_idle {idle dt : Nat} {x : Shaper} (hframes : x.frames = []) (hcredit : x.credit = 0) :
    accrue idle dt x = { frames := [], credit := 0 } := by
  simp only [accrue, hframes, hcredit, List.isEmpty_nil, if_true, Shaper.mk.injEq, true_and]
  omega

theorem accrue_now {idle : Nat} {x : Shaper} (hframes : x.frames ≠ [] ∨ x.credit = 0) : accrue idle 0 x = x := by
  obtain ⟨frames, credit⟩ := x
  cases frames <;> simp_all [accrue]

/-- An idle line with the frame it is to take. -/
theorem queued_idle {now cls : Nat} {x : AvFrame × Nat} {q : EthPort} (ha : q.shapeA.frames = []) (hb : q.shapeB.frames = [])
    (hca : q.shapeA.credit = 0) (hcb : q.shapeB.credit = 0) :
    (accrueCredits now (queued now cls x q)).shapeA = (if cls = 0 then { frames := [x], credit := 0 } else {}) ∧
      (accrueCredits now (queued now cls x q)).shapeB = (if cls = 0 then {} else { frames := [x], credit := 0 }) := by
  unfold queued
  split
  · simp only [accrueCredits, accrue_idle ha hca, accrue_idle hb hcb, Nat.sub_self, List.nil_append]
    exact ⟨accrue_now (.inl (by simp)), accrue_now (.inr rfl)⟩
  · simp only [accrueCredits, accrue_idle ha hca, accrue_idle hb hcb, Nat.sub_self, List.nil_append]
    exact ⟨accrue_now (.inr rfl), accrue_now (.inl (by simp))⟩

theorem out_sendFirst_single (p : Nat) (f : AvFrame) (bits : Nat) (credit : Int) (s : State) :
    (sendFirst p { frames := [(f, bits)], credit } s).out = s.out ++ [.avtp f] := rfl

/-- On a free line on which no frame waits a frame leaves at once. -/
theorem out_queueFrame_idle {p : Nat} {s : State} (cls bits : Nat) (f : AvFrame) (hsends : portSends s p = true)
    (hidle : lineIdle s p = true) : (queueFrame p cls bits f s).out = s.out ++ [.avtp f] := by
  have hlt := port_lt_of_up (portSends_up hsends)
  simp only [lineIdle, Bool.and_eq_true, decide_eq_true_eq, List.isEmpty_iff] at hidle
  obtain ⟨⟨⟨⟨hfree, ha⟩, hb⟩, hca⟩, hcb⟩ := hidle
  obtain ⟨hqa, hqb⟩ := queued_idle (now := s.last.cycles) (cls := cls) (x := (f, bits)) ha hb hca hcb
  have hsends' : portSends (modEthPort p (queued s.last.cycles cls (f, bits)) s) p = true := by
    rw [portSends_modEthPort]
    · exact hsends
    · intro x
      unfold queued
      split <;> rfl
  have hport : (modEthPort p (fun q => accrueCredits s.last.cycles (queued s.last.cycles cls (f, bits) q)) s).ethPort p =
      accrueCredits s.last.cycles (queued s.last.cycles cls (f, bits) (s.ethPort p)) := ethPort_modEthPort_self _ hlt
  have hline : (accrueCredits s.last.cycles (queued s.last.cycles cls (f, bits) (s.ethPort p))).lineFree = (s.ethPort p).lineFree := by
    unfold queued
    split <;> rfl
  rw [queueFrame_eq]
  unfold serveLine
  rw [if_neg (by rw [hsends']; decide)]
  have hlast : (modEthPort p (queued s.last.cycles cls (f, bits)) s).last = s.last := rfl
  simp only [hlast, modEthPort_modEthPort, lineWait, modEthPort_last, hport, hline, hqa, hqb]
  rw [if_neg (by omega)]
  split
  · rw [if_pos (show mayTake { frames := [(f, bits)] } = true from rfl)]
    exact out_sendFirst_single ..
  · rw [if_neg (by decide), if_pos (show mayTake { frames := [(f, bits)] } = true from rfl)]
    exact out_sendFirst_single ..

/-- What serving a line leaves: all but the ports of 06, what is sent and the packets of the talkers counted. -/
def lineView (s : State) : State × Nat × List Stream := (sansSent s, s.free, s.eth.talkers.map fun x => { x with packets := 0 })

theorem lineView_modEthPort (p : Nat) (f : EthPort → EthPort) (s : State) : lineView (modEthPort p f s) = lineView s := rfl

theorem lineView_sendFirst (p : Nat) (x : Shaper) (s : State) : lineView (sendFirst p x s) = lineView s := by
  unfold sendFirst
  split
  · rfl
  next f bits l hf =>
    have hmap : (modStream true f.stream (fun y => { y with packets := y.packets + 1 }) s).eth.talkers.map
        (fun x => { x with packets := 0 }) = s.eth.talkers.map fun x => { x with packets := 0 } := map_updAt _ _ _ _ fun x => rfl
    exact congrArg (fun l => (sansSent s, s.free, l)) hmap

theorem lineView_serveLine (s : State) (p : Nat) : lineView (serveLine s p) = lineView s := by
  unfold serveLine
  dsimp only
  split_ifs
  · rfl
  · rfl
  · rw [lineView_sendFirst, lineView_modEthPort, lineView_modEthPort]
  · rw [lineView_sendFirst, lineView_modEthPort, lineView_modEthPort]
  · rfl

/-- What sending a talker's frame gives: one more frame is counted as sent, and all else of the stream but its packets stays. -/
structure TalkerSent (k : Nat) (s u : State) : Prop where
  sent : (u.stream true k).sent = (s.stream true k).sent + 1
  collected : (u.stream true k).collected = (s.stream true k).collected
  firstB : (u.stream true k).firstB = (s.stream true k).firstB
  frame : u = { s with eth := u.eth, out := u.out }

theorem talkerSent_sendTalker {k : Nat} {g : StreamCfg} {bits : Nat} {body : AvBody} {s : State} (hk : k < s.eth.talkers.length)
    (hsends : portSends s g.port = true) : TalkerSent k s (sendTalker k g bits body s) ∧
      (lineIdle s g.port = true → (sendTalker k g bits body s).out = s.out ++ [.avtp (talkerFrame s k g body)]) := by
  have hsend : sendTalker k g bits body s = queueFrame g.port g.cls bits (talkerFrame s k g body)
      (modStream true k (fun x => { x with sent := x.sent + 1 }) s) := if_neg (by rw [hsends]; decide)
  have hview : lineView (sendTalker k g bits body s) = lineView (modStream true k (fun x => { x with sent := x.sent + 1 }) s) := by
    rw [hsend, queueFrame_eq, lineView_serveLine, lineView_modEthPort]
  have hself : (modStream true k (fun x => { x with sent := x.sent + 1 }) s).stream true k =
      { s.stream true k with sent := (s.stream true k).sent + 1 } := stream_modStream_self _ hk
  have hstream : ({ (sendTalker k g bits body s).stream true k with packets := 0 } : Stream) =
      { (modStream true k (fun x => { x with sent := x.sent + 1 }) s).stream true k with packets := 0 } :=
    nth_of_map_eq (congrArg (fun x => x.2.2) hview :) k
  rw [hself] at hstream
  refine ⟨⟨(congrArg Stream.sent hstream :), (congrArg Stream.collected hstream :), (congrArg Stream.firstB hstream :),
    frame_of_sansSent_free (congrArg (fun x => x.1) hview :) (congrArg (fun x => x.2.1) hview :)⟩, fun hidle => ?_⟩
  rw [hsend]
  exact out_queueFrame_idle (s := modStream true k (fun x => { x with sent := x.sent + 1 }) s) _ _ _ hsends hidle

theorem avtpTalkerInterval_sends {k : Fin 64} {c : AvtpCfg} {s : State} (hcfg : (s.stream true k).cfg = some (.aaf c))
    (hstate : (s.stream true k).state = 1) (hcollected : (s.stream true k).collected ≠ [])
    (hnext : (s.stream true k).nextSend ≤ s.last.cycles) (hsends : portSends s c.port.toNat = true) (hs : shaped s = true) :
    ∃ u, exec (.avtpTalkerInterval k) s = .next u ∧ (u.stream true k).collected = [] ∧
      (u.stream true k).sent = (s.stream true k).sent + 1 ∧
      (u.stream true k).firstB = (s.stream true k).firstB + (s.stream true k).collected.length ∧
      (lineIdle s c.port.toNat = true → u.out = s.out ++ [.avtp {
        port := c.port.toNat, stream := k, dest := c.destMac
        source := (s.ethPort c.port.toNat).mac.getD 0, priority := (if c.cls.toNat = 0 then 3 else 2)
        vid := (s.ethPort c.port.toNat).vid, streamId := c.streamId, seq := (s.stream true k).sent
        body := .aaf true c.format c.nsr c.channels
          (BitVec.ofInt 32 (boundaryNs s (nsrRate c.nsr.toNat) (s.stream true k).firstB c.presOffset.toNat))
          (payloadOf (formatBytes c.format.toNat) (s.stream true k).collected) }]) ∧
      u = { s with eth := u.eth, out := u.out } := by
  have hk : k.val < s.eth.talkers.length := (shaped_streams hs true).symm ▸ k.isLt
  have hexec : exec (.avtpTalkerInterval k) s = execAvtpTalkerInterval k s := rfl
  unfold execAvtpTalkerInterval at hexec
  simp only [hcfg] at hexec
  rw [if_neg (by simp only [hstate, hcollected, decide_eq_false (Nat.not_lt.2 hnext)]; decide)] at hexec
  refine ⟨_, hexec, ?_⟩
  generalize (if s.last.cycles < (s.stream true k).nextSend + classCycles c.cls.toNat
    then (s.stream true k).nextSend + classCycles c.cls.toNat else s.last.cycles + classCycles c.cls.toNat) = next
  generalize hw : modStream true k (fun x => { x with
    collected := [], firstB := x.firstB + ((s.stream true k).collected.length : Int), nextSend := next }) s = w
  have hself : w.stream true k = { s.stream true k with
      collected := [], firstB := (s.stream true k).firstB + ((s.stream true k).collected.length : Int), nextSend := next } := by
    rw [← hw]
    exact stream_modStream_self _ hk
  have hframe : w = { s with eth := w.eth } := by rw [← hw]; rfl
  have hlen : k.val < w.eth.talkers.length := by
    rw [← hw]
    exact lt_of_lt_of_eq hk (length_updAt ..).symm
  have hport : ∀ p, w.ethPort p = s.ethPort p := by rw [← hw]; exact fun p => rfl
  have hsends' : portSends w (StreamCfg.aaf c).port = true := by rw [← hw]; exact hsends
  obtain ⟨⟨hsent, hcol, hfirst, hrest⟩, hout⟩ := talkerSent_sendTalker (bits := aafBits c (s.stream true k).collected.length)
    (body := .aaf true c.format c.nsr c.channels
      (BitVec.ofInt 32 (boundaryNs s (nsrRate c.nsr.toNat) (s.stream true k).firstB c.presOffset.toNat))
      (payloadOf (formatBytes c.format.toNat) (s.stream true k).collected)) hlen hsends'
  refine ⟨hcol.trans (by rw [hself]), hsent.trans (by rw [hself]), hfirst.trans (by rw [hself]), fun hidle => ?_, ?_⟩
  · have hidle' : lineIdle w c.port.toNat = true := by rw [← hw]; exact hidle
    have hw' : w.out = s.out := by rw [← hw]; rfl
    refine (hout hidle').trans ?_
    simp only [talkerFrame, hself, hport, hw']
    rfl
  · refine hrest.trans ?_
    rw [hframe]

/-- The stamps of a CRF PDU (R163): of the MCG's own edges, or of the ages measured. -/
def crfStamps (s : State) (c : CrfCfg) (firstB : Int) (ages : List Nat) : List DWord :=
  if (s.mcg c.mcg.toNat).mode = 1 then (List.range c.tsPerPdu.toNat).map fun i =>
    crfStamp s (mcgHz (s.mcg c.mcg.toNat).mult (s.mcg c.mcg.toNat).family) (firstB + (i * c.tsInterval.toNat : Nat))
  else ages.map (edgeStampNs s)

theorem exec_crfPduSend {k : Fin 64} {c : CrfCfg} {ages : List Nat} {s : State} (hcfg : (s.stream true k).cfg = some (.crf c))
    (hstate : (s.stream true k).state = 1) (hon : streamOn s (s.stream true k) = true)
    (hdue : (s.mcg c.mcg.toNat).mode = 1 ∧ boundaryAfter s (mcgHz (s.mcg c.mcg.toNat).mult (s.mcg c.mcg.toNat).family)
        ((s.stream true k).firstB + ((c.tsPerPdu.toNat - 1) * c.tsInterval.toNat : Nat)) s.now 0 = false ∨
      (s.mcg c.mcg.toNat).mode = 2 ∧ ages.length = c.tsPerPdu.toNat) :
    exec (.crfPduSend { stream := k, ages }) s = .next (sendTalker k (.crf c) (crfBits c)
      (.crf 1 c.baseFreq c.tsInterval (crfStamps s c (s.stream true k).firstB ages))
      (modStream true k (fun x => { x with firstB := x.firstB + (c.tsPerPdu.toNat * c.tsInterval.toNat : Nat) }) s)) := by
  have hexec : exec (.crfPduSend { stream := k, ages }) s = execCrfPduSend { stream := k, ages } s := rfl
  rw [hexec]
  unfold execCrfPduSend
  simp only [hcfg]
  refine if_neg ?_
  obtain ⟨hmode, hbound⟩ | ⟨hmode, hages⟩ := hdue
  · have hpassed : boundaryAfter s (crfHz s c) ((s.stream true k).firstB + ((c.tsPerPdu.toNat - 1) * c.tsInterval.toNat : Nat)) s.now 0 =
        false := hbound
    simp [-Nat.cast_mul, -Int.natCast_mul, hstate, hon, hmode, hpassed]
  · simp [-Nat.cast_mul, -Int.natCast_mul, hstate, hon, hmode, hages]

theorem crfPduSend_sends {k : Fin 64} {c : CrfCfg} {ages : List Nat} {s : State} (hcfg : (s.stream true k).cfg = some (.crf c))
    (hstate : (s.stream true k).state = 1) (hon : streamOn s (s.stream true k) = true)
    (hsends : portSends s c.port.toNat = true) (hs : shaped s = true) :
    let m := s.mcg c.mcg.toNat
    let edge := fun (i : Nat) => (s.stream true k).firstB + (i * c.tsInterval.toNat : Nat)
    (m.mode = 1 ∧ boundaryAfter s (mcgHz m.mult m.family) (edge (c.tsPerPdu.toNat - 1)) s.now 0 = false) ∨
      (m.mode = 2 ∧ ages.length = c.tsPerPdu.toNat) →
    ∃ u, exec (.crfPduSend { stream := k, ages }) s = .next u ∧ (u.stream true k).sent = (s.stream true k).sent + 1 ∧
      (lineIdle s c.port.toNat = true → u.out = s.out ++ [.avtp {
        port := c.port.toNat, stream := k, dest := c.destMac
        source := (s.ethPort c.port.toNat).mac.getD 0, priority := (if c.cls.toNat = 0 then 3 else 2)
        vid := (s.ethPort c.port.toNat).vid, streamId := c.streamId, seq := (s.stream true k).sent
        body := .crf 1 c.baseFreq c.tsInterval (if m.mode = 1 then
          (List.range c.tsPerPdu.toNat).map fun i => crfStamp s (mcgHz m.mult m.family) (edge i) else ages.map (edgeStampNs s)) }]) ∧
      u = { s with eth := u.eth, out := u.out } := by
  intro m edge hdue
  have hk : k.val < s.eth.talkers.length := (shaped_streams hs true).symm ▸ k.isLt
  refine ⟨_, exec_crfPduSend hcfg hstate hon hdue, ?_⟩
  generalize hw : modStream true k (fun x => { x with firstB := x.firstB + (c.tsPerPdu.toNat * c.tsInterval.toNat : Nat) }) s = w
  have hself : w.stream true k = { s.stream true k with
      firstB := (s.stream true k).firstB + (c.tsPerPdu.toNat * c.tsInterval.toNat : Nat) } := by
    rw [← hw]
    exact stream_modStream_self _ hk
  have hframe : w = { s with eth := w.eth } := by rw [← hw]; rfl
  have hlen : k.val < w.eth.talkers.length := by
    rw [← hw]
    exact lt_of_lt_of_eq hk (length_updAt ..).symm
  have hport : ∀ p, w.ethPort p = s.ethPort p := by rw [← hw]; exact fun p => rfl
  have hsends' : portSends w (StreamCfg.crf c).port = true := by rw [← hw]; exact hsends
  obtain ⟨⟨hsent, -, -, hrest⟩, hout⟩ := talkerSent_sendTalker (bits := crfBits c)
    (body := .crf 1 c.baseFreq c.tsInterval (crfStamps s c (s.stream true k).firstB ages)) hlen hsends'
  refine ⟨hsent.trans (by rw [hself]), fun hidle => ?_, ?_⟩
  · have hidle' : lineIdle w c.port.toNat = true := by rw [← hw]; exact hidle
    have hw' : w.out = s.out := by rw [← hw]; rfl
    refine (hout hidle').trans ?_
    simp only [talkerFrame, hself, hport, hw']
    rfl
  · refine hrest.trans ?_
    rw [hframe]

/-- Settles O32: the packets of a listener judged, the frame of a talker on an idle line. -/
theorem avtpPackets : Obligations.AvtpPackets :=
  ⟨fun _ _ _ _ hcfg hon hup hdest hbad => (avtpPacket_aaf hcfg hon hup hdest).1 hbad,
    fun _ _ _ _ hcfg hon hup hdest hformat hnsr hchannels htv => (avtpPacket_aaf hcfg hon hup hdest).2 hformat hnsr hchannels htv,
    fun _ _ _ _ hcfg hon hup hdest => avtpPacket_crf hcfg hon hup hdest,
    fun _ _ rx b samples _ hs hk => judgePacket_judges rx b samples hs hk,
    fun _ _ _ hcfg hstate hcollected hnext hsends hs => avtpTalkerInterval_sends hcfg hstate hcollected hnext hsends hs,
    fun _ _ _ _ hcfg hstate hon hsends hs => crfPduSend_sends hcfg hstate hon hsends hs⟩

end Sys2Proof.Machine
end

section
/-! Time pins, reflex paths and frame-sync generators (07): their commands and their events. -/

namespace Sys2Proof.Machine

/-! Pins, paths and FSGs. -/

theorem shaped_trig {s : State} (h : shaped s = true) :
    s.trig.pins.length = 32 ∧ s.trig.paths.length = 16 ∧ s.trig.fsgs.length = 8 := by
  simp only [shaped, Bool.and_eq_true, decide_eq_true_eq] at h
  simp only [h, and_self]

theorem pin_modPin_self {p : Nat} {s : State} (f : Pin → Pin) (h : p < s.trig.pins.length) : (modPin p f s).pin p = f (s.pin p) :=
  nth_updAt_self _ _ _ h

theorem pin_modPin_other {p q : Nat} (f : Pin → Pin) (s : State) (h : q ≠ p) : (modPin p f s).pin q = s.pin q :=
  nth_updAt_other _ _ _ _ h.symm

theorem modPin_modPin (p : Nat) (f g : Pin → Pin) (s : State) : modPin p g (modPin p f s) = modPin p (fun n => g (f n)) s := by
  simp only [modPin, updAt_updAt]

theorem path_modPath_self {p : Nat} {s : State} (f : Path → Path) (h : p < s.trig.paths.length) : (modPath p f s).path p = f (s.path p) :=
  nth_updAt_self _ _ _ h

theorem path_modPath_other {p q : Nat} (f : Path → Path) (s : State) (h : q ≠ p) : (modPath p f s).path q = s.path q :=
  nth_updAt_other _ _ _ _ h.symm

theorem fsg_modFsg_self {k : Nat} {s : State} (f : Fsg → Fsg) (h : k < s.trig.fsgs.length) : (modFsg k f s).fsg k = f (s.fsg k) :=
  nth_updAt_self _ _ _ h

theorem fsg_modFsg_other {k j : Nat} (f : Fsg → Fsg) (s : State) (h : j ≠ k) : (modFsg k f s).fsg j = s.fsg j :=
  nth_updAt_other _ _ _ _ h.symm

theorem pin_record (c o : Nat) (d : List (Nat × Nat)) (s : State) (p : Nat) : (record c o d s).pin p = s.pin p := by
  rw [State.pin, record_trig]
  rfl

/-! Commands. -/

/-- A command that runs at once is of class 0, and applies now. -/
theorem appliedAt_of_runs {i : Instr} {r : Req} {s : State} (hr : reqOf i = some r) (h : runsAtOnce i s = true) : appliedAt r s = s.now := by
  simp only [runsAtOnce, hr, Bool.and_eq_true, decide_eq_true_eq] at h
  obtain ⟨-, ⟨hcls, -⟩, -⟩ := h
  refine if_neg ?_
  simp [hcls]

theorem tpinConfig_waits {r : Req} {c : TpinCfg} {s : State} (hruns : runsAtOnce (.tpinConfig r c) s = true)
    (hfalls : (s.pin c.pin.toNat).falls ≠ []) : Answers (.tpinConfig r c) s .ok []
      (modPin c.pin.toNat (fun n => { n with pendingCfg := some (c, s.now) }) s) := by
  have hans := runs_answers (m := tpinConfigM r c) rfl hruns
  simp only [tpinConfigM, if_pos hfalls, appliedAt_of_runs rfl hruns] at hans
  exact hans

theorem tpinConfig_configures {r : Req} {c : TpinCfg} {s : State} (hruns : runsAtOnce (.tpinConfig r c) s = true)
    (hs : shaped s = true) (hfalls : (s.pin c.pin.toNat).falls = []) : ∃ u, Answers (.tpinConfig r c) s .ok [] u ∧
      (u.pin c.pin.toNat).mode = c.mode.toNat ∧ (u.pin c.pin.toNat).width = c.width.toNat ∧
      (u.pin c.pin.toNat).period = c.period.toNat ∧ (u.pin c.pin.toNat).actions = [] ∧ (u.pin c.pin.toNat).reports = [] ∧
      (u.pin c.pin.toNat).lost = 0 ∧ (∀ p, p ≠ c.pin.toNat → u.pin p = s.pin p) ∧ sansEvents s u = { s with trig := u.trig } := by
  have hpin := unit_lt_of_runs (m := tpinConfigM r c) rfl rfl hruns (u := ⟨0x06, c.pin.toNat, 32⟩) (.head _)
  have hlt : c.pin.toNat < s.trig.pins.length := by rw [(shaped_trig hs).1]; exact hpin
  have hans := runs_answers (m := tpinConfigM r c) rfl hruns
  simp only [tpinConfigM, if_neg (not_not_intro hfalls)] at hans
  refine ⟨_, hans, ?_⟩
  have hself := fun f => pin_modPin_self (s := s) f hlt
  unfold configurePin
  dsimp only
  split
  · rw [hself]
    exact ⟨rfl, rfl, rfl, rfl, rfl, rfl, fun p hp => pin_modPin_other _ _ hp, rfl⟩
  · rw [pin_record, hself, sansEvents_record, record_trig]
    exact ⟨rfl, rfl, rfl, rfl, rfl, rfl, fun p hp => (pin_record ..).trans (pin_modPin_other _ _ hp), rfl⟩

/-- The action TPIN_SCHEDULE queues. -/
def queuedAction (r : Req) (pin action policy : Byte) (time : Stamp) (s : State) : PinAction where
  handle := freeHandle (s.pin pin.toNat).actions 17 (s.pin pin.toNat).handle
  time := timeOf time
  action := action.toNat
  fireLate := policy = 1 || lateSchedule r time s
  late := lateSchedule r time s

theorem tpinSchedule_queues {r : Req} {pin action policy : Byte} {time : Stamp} {s : State}
    (hruns : runsAtOnce (.tpinSchedule r pin action policy time) s = true) (hs : shaped s = true) :
    ∃ u h a, Answers (.tpinSchedule r pin action policy time) s .ok
        (le 2 h ++ le 1 ((s.pin pin.toNat).actions.length + 1) ++ le 1 0) u ∧
      (u.pin pin.toNat).actions = (s.pin pin.toNat).actions ++ [a] ∧ a.handle = h ∧ a.time = timeOf time ∧
      a.action = action.toNat ∧ (∀ p, p ≠ pin.toNat → u.pin p = s.pin p) ∧ u = { s with trig := u.trig } := by
  have hpin := unit_lt_of_runs (m := tpinScheduleM r pin action policy time) rfl rfl hruns (u := ⟨0x06, pin.toNat, 32⟩) (.head _)
  have hlt : pin.toNat < s.trig.pins.length := by rw [(shaped_trig hs).1]; exact hpin
  refine ⟨_, _, queuedAction r pin action policy time s, runs_answers (m := tpinScheduleM r pin action policy time) rfl hruns, ?_⟩
  simp only [tpinScheduleM, pin_modPin_self _ hlt]
  exact ⟨rfl, rfl, rfl, rfl, fun p hp => pin_modPin_other _ _ hp, rfl⟩

theorem tpinCancel_cancels {r : Req} {pin : Byte} {handle : Half} {s : State} (hruns : runsAtOnce (.tpinCancel r pin handle) s = true)
    (hs : shaped s = true) :
    ∃ u n, Answers (.tpinCancel r pin handle) s .ok (le 2 n ++ le 2 0) u ∧
      n + (u.pin pin.toNat).actions.length = (s.pin pin.toNat).actions.length ∧
      (∀ a ∈ (s.pin pin.toNat).actions, a.time ≤ s.now + ofNs 1000 → a ∈ (u.pin pin.toNat).actions) ∧
      (∀ p, p ≠ pin.toNat → u.pin p = s.pin p) ∧ u = { s with trig := u.trig } := by
  have hpin := unit_lt_of_runs (m := tpinCancelM pin handle) rfl rfl hruns (u := ⟨0x06, pin.toNat, 32⟩) (.head _)
  have hlt : pin.toNat < s.trig.pins.length := by rw [(shaped_trig hs).1]; exact hpin
  refine ⟨_, _, runs_answers (m := tpinCancelM pin handle) rfl hruns, ?_⟩
  simp only [tpinCancelM, pin_modPin_self _ hlt]
  refine ⟨List.length_eq_length_filter_add .. |>.symm, fun a ha htime => ?_, fun p hp => pin_modPin_other _ _ hp, rfl⟩
  rw [List.mem_filter]
  refine ⟨ha, ?_⟩
  rw [decide_eq_false (not_lt.2 htime), Bool.and_false]
  rfl

theorem tpinCaptureRead_reads {r : Req} {pin max_ : Byte} {s : State} (hruns : runsAtOnce (.tpinCaptureRead r pin max_) s = true) :
    ∃ u k, k ≤ max_.toNat ∧ (r.origin = none → k = min max_.toNat (s.pin pin.toNat).reports.length) ∧
      Answers (.tpinCaptureRead r pin max_) s .ok (le 1 k ++ le 1 ((s.pin pin.toNat).reports.length - k) ++ le 2 0 ++
        leBits 4 (s.pin pin.toNat).lost ++ ((s.pin pin.toNat).reports.take k).flatMap reportBytes) u ∧
      u = modPin pin.toNat (fun n => { n with reports := n.reports.drop k }) s := by
  refine ⟨_, min (if r.origin.isSome then min 11 max_.toNat else max_.toNat) (s.pin pin.toNat).reports.length, ?_, fun hlocal => ?_,
    runs_answers (m := tpinCaptureReadM r pin max_) rfl hruns, rfl⟩
  · split <;> omega
  · rw [hlocal]
    rfl

/-- The path REFLEX_CONFIG writes. -/
def configuredPath (cal : Calib) (c : ReflexCfg) : Path where
  mode := c.mode.toNat
  inPin := c.inPin.toNat
  outPin := c.outPin.toNat
  delay := c.delay.toNat
  width := c.width.toNat
  trim := trimOf cal c.path.toNat c.delay.toNat c.inPin.toNat c.outPin.toNat
  lat := latencyOf cal c.delay.toNat c.inPin.toNat c.outPin.toNat

theorem reflexConfig_configures {r : Req} {c : ReflexCfg} {s : State} (hruns : runsAtOnce (.reflexConfig r c) s = true)
    (hs : shaped s = true) :
    ∃ u, Answers (.reflexConfig r c) s .ok (leInt 4 (u.path c.path.toNat).trim) u ∧
      (u.path c.path.toNat).mode = c.mode.toNat ∧ (u.path c.path.toNat).inPin = c.inPin.toNat ∧
      (u.path c.path.toNat).outPin = c.outPin.toNat ∧ (u.path c.path.toNat).delay = c.delay.toNat ∧
      (u.path c.path.toNat).width = c.width.toNat ∧
      (u.path c.path.toNat).trim = trimOf s.last.cal c.path.toNat c.delay.toNat c.inPin.toNat c.outPin.toNat ∧
      (∀ m, m ≠ c.path.toNat → u.path m = s.path m) ∧ u = { s with trig := u.trig } := by
  have hpath := unit_lt_of_runs (m := reflexConfigM c) rfl rfl hruns (u := ⟨0x0E, c.path.toNat, 16⟩) (.head _)
  have hlt : c.path.toNat < s.trig.paths.length := by rw [(shaped_trig hs).2.1]; exact hpath
  have hself : (modPath c.path.toNat (fun _ => configuredPath s.last.cal c) s).path c.path.toNat = configuredPath s.last.cal c :=
    path_modPath_self _ hlt
  refine ⟨modPath c.path.toNat (fun _ => configuredPath s.last.cal c) s, ?_⟩
  rw [hself]
  exact ⟨runs_answers (m := reflexConfigM c) rfl hruns, rfl, rfl, rfl, rfl, rfl, rfl, fun m hm => path_modPath_other _ _ hm, rfl⟩

theorem reflexWindow_configures {r : Req} {c : WindowCfg} {s : State} (hruns : runsAtOnce (.reflexWindow r c) s = true)
    (hs : shaped s = true) :
    ∃ u, Answers (.reflexWindow r c) s .ok [] u ∧ (u.path c.path.toNat).base = c.base.toNat ∧
      (u.path c.path.toNat).openAt = c.openAt.toNat ∧ (u.path c.path.toNat).length = c.length.toNat ∧
      (u.path c.path.toNat).period = c.period.toNat ∧ (u.path c.path.toNat).mode = (s.path c.path.toNat).mode ∧
      (u.path c.path.toNat).trim = (s.path c.path.toNat).trim ∧ (u.path c.path.toNat).used = none ∧
      (∀ m, m ≠ c.path.toNat → u.path m = s.path m) ∧ u = { s with trig := u.trig } := by
  have hpath := unit_lt_of_runs (m := reflexWindowM c) rfl rfl hruns (u := ⟨0x0E, c.path.toNat, 16⟩) (.head _)
  have hlt : c.path.toNat < s.trig.paths.length := by rw [(shaped_trig hs).2.1]; exact hpath
  refine ⟨_, runs_answers (m := reflexWindowM c) rfl hruns, ?_⟩
  simp only [reflexWindowM, path_modPath_self _ hlt]
  exact ⟨trivial, trivial, trivial, trivial, trivial, trivial, trivial, fun m hm => path_modPath_other _ _ hm, rfl⟩

theorem fsgConfig_configures {r : Req} {c : FsgCfg} {s : State} (hruns : runsAtOnce (.fsgConfig r c) s = true)
    (hs : shaped s = true) :
    ∃ u, Answers (.fsgConfig r c) s .ok [] u ∧
      ((s.fsg c.fsg.toNat).running = false → (u.fsg c.fsg.toNat).cfg = some (fsgSetOf c)) ∧
      ((s.fsg c.fsg.toNat).running = true → (u.fsg c.fsg.toNat).cfg = (s.fsg c.fsg.toNat).cfg ∧
        (u.fsg c.fsg.toNat).change = some (fsgSetOf c, s.now + ofNs 20000)) ∧
      (∀ k, k ≠ c.fsg.toNat → u.fsg k = s.fsg k) ∧ u = { s with trig := u.trig } := by
  have hfsg := unit_lt_of_runs (m := fsgConfigM r c) rfl rfl hruns (u := ⟨0x07, c.fsg.toNat, 8⟩) (.head _)
  have hlt : c.fsg.toNat < s.trig.fsgs.length := by rw [(shaped_trig hs).2.2]; exact hfsg
  have hcls : r.cls = 0 := by
    simp only [runsAtOnce, reqOf, Bool.and_eq_true, decide_eq_true_eq] at hruns
    exact hruns.2.1.1
  refine ⟨_, runs_answers (m := fsgConfigM r c) rfl hruns, ?_⟩
  simp only [fsgConfigM, fsg_modFsg_self _ hlt, if_pos hcls]
  refine ⟨fun hstopped => ?_, fun hrunning => ?_, fun m hm => fsg_modFsg_other _ _ hm, rfl⟩
  · rw [hstopped]
    rfl
  · rw [hrunning]
    exact ⟨rfl, rfl⟩

theorem fsgStart_starts {r : Req} {k : Byte} {s : State} (hruns : runsAtOnce (.fsgStart r k) s = true) (hs : shaped s = true) :
    ∃ u, Answers (.fsgStart r k) s .ok [] u ∧ (u.fsg k.toNat).running = true ∧ (u.fsg k.toNat).cfg = (s.fsg k.toNat).cfg ∧
      (∀ c, (s.fsg k.toNat).cfg = some c → (u.fsg k.toNat).k = fsgFrom c s.now) ∧
      (∀ j, j ≠ k.toNat → u.fsg j = s.fsg j) ∧ u = { s with trig := u.trig } := by
  have hfsg := unit_lt_of_runs (m := fsgStartM r k) rfl rfl hruns (u := ⟨0x07, k.toNat, 8⟩) (.head _)
  have hlt : k.toNat < s.trig.fsgs.length := by rw [(shaped_trig hs).2.2]; exact hfsg
  have hset := check_of_runs (m := fsgStartM r k) rfl rfl hruns (st := .range) (.head _) (by decide)
  obtain ⟨c, hc⟩ : ∃ c, (s.fsg k.toNat).cfg = some c := by
    rw [← Option.isSome_iff_exists, ← Option.not_isNone, hset]
    rfl
  refine ⟨_, runs_answers (m := fsgStartM r k) rfl hruns, ?_⟩
  simp only [fsgStartM, fsg_modFsg_self _ hlt, hc, appliedAt_of_runs rfl hruns]
  exact ⟨trivial, trivial, fun c' hc' => by rw [Option.some.inj hc'], fun j hj => fsg_modFsg_other _ _ hj, rfl⟩

/-- Settles O33, command by command. -/
theorem pinCommands : Obligations.PinCommands :=
  ⟨fun _ _ _ hruns hs => ⟨tpinConfig_waits hruns, tpinConfig_configures hruns hs⟩, fun _ _ _ _ _ _ hruns hs => tpinSchedule_queues hruns hs,
    fun _ _ _ _ hruns hs => tpinCancel_cancels hruns hs, fun _ _ _ _ hruns _ => tpinCaptureRead_reads hruns,
    fun _ _ _ hruns hs => reflexConfig_configures hruns hs, fun _ _ _ hruns hs => reflexWindow_configures hruns hs,
    fun _ _ _ hruns hs => fsgConfig_configures hruns hs, fun _ _ _ hruns hs => fsgStart_starts hruns hs,
    fun _ k _ hruns => runs_answers (m := fsgStopM k) rfl hruns⟩

/-! Events. -/

theorem exec_captureEdge {p : Fin 32} {f : Bool} {tap : Fin 8} {near : Bool} {s : State} (hmode : (s.pin p).mode = 1)
    (hruns : trigRuns s = true) (hz : (s.pin p).z = false)
    (hedge : (if f then (s.pin p).edge.getLsbD 1 else (s.pin p).edge.getLsbD 0) = true)
    (hrange : inRange (ofQuarter (captureOf s p tap)) = true) :
    exec (.captureEdge p f tap near) s = .next (msixScan 16 (capture p f (ofQuarter (captureOf s p tap)) (elapsedQ s + tap)
      ((List.range 16).foldl (reflexPass p (ofQuarter (captureOf s p tap)) (elapsedQ s + tap) near)
        (modPin p (fun n => { n with level := !f }) s)))) := by
  have hexec : exec (.captureEdge p f tap near) s = execCaptureEdge p f tap near s := rfl
  rw [hexec]
  unfold execCaptureEdge
  dsimp only
  rw [if_neg (by rw [hmode, hruns, hz]; decide), if_neg (by rw [hedge]; decide), if_pos (by rw [hmode])]
  unfold reportable
  rw [if_pos hrange]
  rfl

theorem capture_lost {p at_ : Nat} {f : Bool} {time : Time} {s : State} (hsoon : tooSoon (s.pin p).lastEdge at_ = true) :
    sansEvents s (capture p f time at_ s) = modPin p (fun n => { n with lost := n.lost + 1 }) s := by
  unfold capture
  dsimp only
  rw [if_pos hsoon, sansEvents_record]
  rfl

theorem capture_reported {p at_ : Nat} {f : Bool} {t : Time} {s : State} (hp : p < s.trig.pins.length) (hsrc : s.last.src.toNat ≠ 0x40 + p)
    (hsoon : tooSoon (s.pin p).lastEdge at_ = false) (hroom : (s.pin p).reports.length < 16) : capture p f t at_ s =
      modPin p (fun n => { n with lastEdge := some at_, reports := n.reports ++ [⟨t, bit f, 0⟩] }) s := by
  have hreport : report p ⟨t, bit f, 0⟩ (modPin p (fun n => { n with lastEdge := some at_ }) s) =
      modPin p (fun n => { n with lastEdge := some at_, reports := n.reports ++ [⟨t, bit f, 0⟩] }) s := by
    unfold report
    rw [if_pos (by rw [pin_modPin_self _ hp]; exact hroom), modPin_modPin]
  unfold capture
  dsimp only
  rw [if_neg (by rw [hsoon]; decide), hreport, if_neg (by simp [hsrc])]

theorem exec_scheduledAction (p : Fin 32) (s : State) : exec (.scheduledAction p) s = execScheduledAction p s := rfl

theorem scheduledAction_due {p : Fin 32} {a : PinAction} {s : State} (hmode : (s.pin p).mode = 2) (hruns : pinsRun s p = true)
    (hlate : (s.pin p).actions.filter (fun a => a.late) = []) (hnext : earliest (s.pin p).actions = some a) :
    exec (.scheduledAction p) s = if dueNow s (launchOf s p a.time) && inCycle s (edgePos (s.pin p) (elapsedAt s (launchOf s p a.time)))
      then .next (msixScan 16 (fireAction p a (edgePos (s.pin p) (elapsedAt s (launchOf s p a.time))) s)) else .next s := by
  rw [exec_scheduledAction]
  unfold execScheduledAction
  dsimp only
  rw [if_neg (by rw [hmode, hruns]; decide)]
  simp only [hlate, hnext, earliest]
  rfl

theorem scheduledAction_late {p : Fin 32} {a : PinAction} {s : State} (hmode : (s.pin p).mode = 2) (hruns : pinsRun s p = true)
    (hlate : earliest ((s.pin p).actions.filter fun a => a.late) = some a) (hfalls : (s.pin p).falls = [])
    (hin : inCycle s (edgePos (s.pin p) (elapsedQ s)) = true) :
    exec (.scheduledAction p) s = .next (msixScan 16 (report p ⟨timeAt s (edgePos (s.pin p) (elapsedQ s)), 3, a.handle⟩
      (fireAction p a (edgePos (s.pin p) (elapsedQ s)) s))) := by
  rw [exec_scheduledAction]
  unfold execScheduledAction
  dsimp only
  rw [if_neg (by rw [hmode, hruns]; decide)]
  simp only [hlate]
  rw [if_neg (by simp [hfalls, hin])]
  rfl

theorem gridPulse_starts {p : Fin 32} {g : Time} {s : State} (hnext : (s.pin p).next = some g) (hruns : pinsRun s p = true)
    (hdue : dueNow s (launchOf s p g) = true) (hfalls : (s.pin p).falls = []) (hheld : heldBack s (s.pin p) = false)
    (hin : inCycle s (edgePos (s.pin p) (elapsedAt s (launchOf s p g))) = true) :
    exec (.gridPulse p) s = .next (startPulse p (s.pin p).width (edgePos (s.pin p) (elapsedAt s (launchOf s p g)))
      (modPin p (fun n => { n with next := some (g + ofFrac (pinPeriod n)) }) s)) := by
  have hexec : exec (.gridPulse p) s = execGridPulse p s := rfl
  rw [hexec]
  unfold execGridPulse
  simp only [hnext]
  rw [if_neg (by simp [hruns, hdue, hfalls, hin]), if_neg (by rw [hheld]; decide)]

theorem pulseTrailingEdge_ends {p : Fin 32} {e : Nat} {rest : List Nat} {s : State} (hfalls : (s.pin p).falls = e :: rest)
    (hin : inCycle s (edgePos (s.pin p) e) = true) (hcfg : (s.pin p).pendingCfg = none) :
    exec (.pulseTrailingEdge p) s =
      .next (msixScan 16 (modPin p (fun n => { n with falls := rest }) (drive p false (edgePos (s.pin p) e) s))) := by
  have hexec : exec (.pulseTrailingEdge p) s = execPulseTrailingEdge p s := rfl
  rw [hexec]
  unfold execPulseTrailingEdge
  simp only [hfalls, hcfg]
  rw [if_neg (by rw [hin]; decide)]
  rfl

theorem exec_fsgFrameStart {k : Fin 8} {c : FsgSet} {s : State} (hrunning : (s.fsg k).running = true) (hcfg : (s.fsg k).cfg = some c)
    (hruns : trigRuns s = true) (hchange : (s.fsg k).change = none) :
    exec (.fsgFrameStart k) s =
      if !dueNow s (fsgStart c (s.fsg k).k) then .next (if (s.fsg k).skip.isSome then s else launchEarly k c (s.fsg k).k s)
      else .next ((s.fsg k).skip.elim (modFsg k (fun f => { f with k := f.k + 1 }) (beginFrame k c (s.fsg k).k s)) fun cause =>
        record 0x0303 (ownerOf s 0x07 k) [(1, k), (4, (nsOf (ofQuarter (fsgStart c (s.fsg k).k)) % 1000000000).toNat), (1, cause)]
          (modFsg k (fun f => { f with k := f.k + 1, skip := none, skips := f.skips + 1 }) s)) := by
  have hexec : exec (.fsgFrameStart k) s = execFsgFrameStart k s := rfl
  rw [hexec]
  unfold execFsgFrameStart
  simp only [hrunning, hcfg, hchange, startSet]
  rw [if_neg (by rw [hruns]; decide)]
  cases (s.fsg k).skip <;> rfl

theorem fsgFrameStart_skips {k : Fin 8} {c : FsgSet} {cause : Nat} {s : State} (hrunning : (s.fsg k).running = true)
    (hcfg : (s.fsg k).cfg = some c) (hruns : trigRuns s = true) (hdue : dueNow s (fsgStart c (s.fsg k).k) = true)
    (hskip : (s.fsg k).skip = some cause) : ∃ u, exec (.fsgFrameStart k) s = .next u ∧
      sansEvents s u = modFsg k (fun f => { f with k := f.k + 1, skip := none, skips := f.skips + 1 }) s := by
  have hexec : exec (.fsgFrameStart k) s = execFsgFrameStart k s := rfl
  unfold execFsgFrameStart at hexec
  simp only [hrunning, hcfg] at hexec
  rw [if_neg (by rw [hruns]; decide), if_neg (by rw [hdue]; decide)] at hexec
  simp only [hskip] at hexec
  exact ⟨_, hexec, sansEvents_record ..⟩

/-- Settles O34, event by event. -/
theorem pinEvents : Obligations.PinEvents := by
  refine ⟨fun p f tap near s hmode hruns hz hedge hrange => exec_captureEdge hmode hruns hz hedge hrange,
    fun p f t at_ s hs hsrc => ⟨fun hsoon => ⟨_, rfl, capture_lost hsoon⟩,
      capture_reported (by rw [(shaped_trig hs).1]; exact p.isLt) hsrc⟩,
    fun p a s hmode hruns hlate hnext => ⟨fun hdue hin => ?_, fun hdue => ?_⟩,
    fun p a s hmode hruns hlate hfalls hin => scheduledAction_late hmode hruns hlate hfalls hin,
    fun p g s hnext hruns hdue hfalls hheld hin => gridPulse_starts hnext hruns hdue hfalls hheld hin,
    fun p e rest s hfalls hin hcfg => pulseTrailingEdge_ends hfalls hin hcfg,
    fun k c s hrunning hcfg hruns hdue hskip hchange => ?_,
    fun k c s hrunning hcfg hruns hdue => ⟨fun hskip hchange => ?_, fun cause hskip => fsgFrameStart_skips hrunning hcfg hruns hdue hskip⟩,
    fun m s hruns => if_pos hruns, fun t s hany => if_pos hany⟩
  · rw [scheduledAction_due hmode hruns hlate hnext]
    exact if_pos (by rw [hdue, hin]; rfl)
  · rw [scheduledAction_due hmode hruns hlate hnext]
    exact if_neg (by rw [hdue, Bool.false_and]; decide)
  · rw [exec_fsgFrameStart hrunning hcfg hruns hchange, if_pos (by rw [hdue]; rfl), hskip]
    rfl
  · rw [exec_fsgFrameStart hrunning hcfg hruns hchange, if_neg (by rw [hdue]; decide), hskip]
    rfl

end Sys2Proof.Machine
end

section
/-! The Prieth fabric (08): what reads and writes of a port give, and what enumeration and replies leave of it. -/

namespace Sys2Proof.Machine

/-! Ports. -/

theorem shaped_pl {s : State} (h : shaped s = true) : s.plink.ports.length = 4 := by
  simp only [shaped, Bool.and_eq_true, decide_eq_true_eq] at h
  simp only [h]

theorem pl_lt {s : State} (hs : shaped s = true) (p : Fin 4) : p.val < s.plink.ports.length := by
  rw [shaped_pl hs]
  exact p.isLt

theorem pl_modPl_self {p : Nat} {s : State} (f : PlPort → PlPort) (h : p < s.plink.ports.length) : (modPl p f s).pl p = f (s.pl p) :=
  nth_updAt_self _ _ _ h

theorem pl_modPl_other {p q : Nat} (f : PlPort → PlPort) (s : State) (h : q ≠ p) : (modPl p f s).pl q = s.pl q :=
  nth_updAt_other _ _ _ _ h.symm

theorem modPl_modPl (p : Nat) (f g : PlPort → PlPort) (s : State) : modPl p g (modPl p f s) = modPl p (fun q => g (f q)) s := by
  simp only [modPl, updAt_updAt]

theorem modPl_congr {p : Nat} {f g : PlPort → PlPort} {s : State} (h : f (s.pl p) = g (s.pl p)) : modPl p f s = modPl p g s := by
  simp only [modPl, updAt_congr _ _ h]

theorem pl_record (c o : Nat) (d : List (Nat × Nat)) (s : State) (p : Nat) : (record c o d s).pl p = s.pl p := by
  rw [State.pl, record_plink]
  rfl

/-! Replies. -/

/-- What replies over the fabric leave of it: all but its ports. -/
def sansPorts (s : State) : Plink := { s.plink with ports := [] }

theorem sansPorts_record (c o : Nat) (d : List (Nat × Nat)) (s : State) : sansPorts (record c o d s) = sansPorts s := by
  rw [sansPorts, record_plink, sansPorts]

theorem sansPorts_modPl (p : Nat) (f : PlPort → PlPort) (s : State) : sansPorts (modPl p f s) = sansPorts s := rfl

theorem sansPorts_modTenant (t : Nat) (f : Tenant → Tenant) (s : State) : sansPorts (modTenant t f s) = sansPorts s := rfl

theorem sansPorts_deliverOne (t : Nat) (s : State) : sansPorts (deliverOne t s) = sansPorts s := by
  unfold deliverOne
  dsimp only
  split
  · rfl
  · split_ifs <;> rfl

theorem sansPorts_deliver (t : Nat) (s : State) : sansPorts (deliver t s) = sansPorts s := by
  have hmany : ∀ k v, sansPorts (deliverMany k t v) = sansPorts v := by
    intro k
    induction k with
    | zero => exact fun v => rfl
    | succ k ih => exact fun v => (ih _).trans (sansPorts_deliverOne t v)
  unfold deliver finishClose
  dsimp only
  split
  · rw [sansPorts_record, sansPorts_modTenant, hmany]
  · exact hmany ..

theorem sansPorts_post (t : Nat) (timed : Bool) (r : Reply) (s : State) : sansPorts (post t timed r s) = sansPorts s := by
  have henqueue : ∀ t x, sansPorts (enqueue t timed x s) = sansPorts s := by
    intro t x
    unfold enqueue
    split
    · rfl
    · rw [sansPorts_deliver, sansPorts_modTenant]
  have hcell : ∀ c, sansPorts (queueCell c s) = sansPorts s := by
    intro c
    unfold queueCell
    split
    · rfl
    · split
      · rfl
      · rw [sansPorts_record, sansPorts_modPl]
  unfold post
  split
  · rfl
  · split
    · split
      · exact henqueue ..
      · exact hcell _
    · exact henqueue ..

theorem sansPorts_sayInterim (r : Req) (i : Instr) (st : Status) (res : List Byte) (s : State) :
    sansPorts (sayInterim r i st res s) = sansPorts s := by
  unfold sayInterim
  split
  · rfl
  · exact sansPorts_post ..

/-! Enumeration. -/

/-- What enumeration leaves of a port. -/
def linkless (q : PlPort) : PlPort := { q with role := 0, first := 0, last := 0, reattach := false, express := [] }

/-- What enumeration leaves of a state. -/
def enumView (s : State) : State :=
  sansEvents State.reset { s with plink := { s.plink with
    enumRun := none, lastAddr := 0, nodes := 0, maxDepth := 0, blockedAll := 0, ports := s.plink.ports.map linkless } }

/-- A state differs from another by a run of enumeration alone. -/
def EnumOnly (s u : State) : Prop := enumView u = enumView s

namespace EnumOnly

theorem refl (s : State) : EnumOnly s s := rfl

theorem trans {s u v : State} (h : EnumOnly s u) (h' : EnumOnly u v) : EnumOnly s v := Eq.trans h' h

theorem root {s u : State} (h : EnumOnly s u) : u.plink.root = s.plink.root := (congrArg (fun x => x.plink.root) h :)

theorem rooted {s u : State} (h : EnumOnly s u) : u.plink.rooted = s.plink.rooted := (congrArg (fun x => x.plink.rooted) h :)

theorem addr {s u : State} (h : EnumOnly s u) : u.plink.addr = s.plink.addr := (congrArg (fun x => x.plink.addr) h :)

theorem depth {s u : State} (h : EnumOnly s u) : u.plink.depth = s.plink.depth := (congrArg (fun x => x.plink.depth) h :)

theorem epoch {s u : State} (h : EnumOnly s u) : u.plink.epoch = s.plink.epoch := (congrArg (fun x => x.plink.epoch) h :)

theorem last {s u : State} (h : EnumOnly s u) : u.last = s.last := (congrArg (fun x => x.last) h :)

theorem ports {s u : State} (h : EnumOnly s u) : u.plink.ports.map linkless = s.plink.ports.map linkless :=
  (congrArg (fun x => x.plink.ports) h :)

theorem port {s u : State} (h : EnumOnly s u) (p : Nat) : linkless (u.pl p) = linkless (s.pl p) := nth_of_map_eq h.ports p

theorem record (c o : Nat) (d : List (Nat × Nat)) (s : State) : EnumOnly s (record c o d s) := by
  rw [record_eq]
  rfl

theorem modPl (p : Nat) {f : PlPort → PlPort} (hf : ∀ q, linkless (f q) = linkless q) (s : State) : EnumOnly s (modPl p f s) :=
  congrArg (fun l => sansEvents State.reset { s with plink := { s.plink with
    enumRun := none, lastAddr := 0, nodes := 0, maxDepth := 0, blockedAll := 0, ports := l } }) (map_updAt _ _ _ _ hf)

theorem setRun (e : Option EnumRun) (s : State) : EnumOnly s { s with plink := { s.plink with enumRun := e } } := rfl

theorem sendExpress (p : Nat) (c : ExpressCell) (s : State) : EnumOnly s (sendExpress p c s) := by
  refine modPl p ?_ s
  exact fun q => rfl

theorem foldl {α : Type} {f : State → α → State} (hf : ∀ s x, EnumOnly s (f s x)) (l : List α) (s : State) : EnumOnly s (l.foldl f s) :=
  foldl_keeps enumView hf l s

theorem blockPort (p reason : Nat) (s : State) : EnumOnly s (blockPort p reason s) := by
  refine trans ?_ (trans (setRun ..) (record ..))
  refine modPl p ?_ s
  exact fun q => rfl

theorem otherNodes (n : Nat) (s : State) : EnumOnly s (otherNodes n s).2.2 := by
  unfold Machine.otherNodes
  split
  · exact refl s
  · rfl

theorem enumFinish (e : EnumRun) (s : State) : EnumOnly s (enumFinish e s) := by
  unfold Machine.enumFinish
  split
  · exact setRun ..
  · split
    · exact trans (otherNodes e.next s) (trans (by rfl) (record ..))
    · refine trans (by rfl) (foldl ?_ _ _)
      exact fun s p => sendExpress ..

theorem enumGo (k : Nat) (s : State) : EnumOnly s (enumGo k s) := by
  induction k generalizing s with
  | zero => exact refl s
  | succ k ih =>
    unfold Machine.enumGo
    split
    · exact refl s
    · dsimp only
      split_ifs
      · exact enumFinish ..
      · exact trans (setRun ..) (ih _)
      · exact trans (blockPort ..) (trans (setRun ..) (ih _))
      · exact trans (blockPort ..) (trans (setRun ..) (ih _))
      · exact sendExpress ..

theorem reattachNext (s : State) : EnumOnly s (reattachNext s) := by
  unfold Machine.reattachNext
  split
  · exact refl s
  · split
    · refine trans ?_ (trans (setRun ..) (enumGo ..))
      refine modPl _ ?_ s
      exact fun q => rfl
    · exact refl s

theorem enumStep (f : EnumRun → EnumRun) (s : State) : EnumOnly s (enumStep f s) :=
  trans (setRun ..) (trans (enumGo ..) (reattachNext _))

end EnumOnly

/-- A root's run stays until its command ends. -/
theorem enumGo_rootRun (k : Nat) (s : State) (h : (s.plink.enumRun.any fun e => e.isRoot && !e.again) = true) :
    ((enumGo k s).plink.enumRun.any fun e => e.isRoot && !e.again) = true := by
  induction k generalizing s with
  | zero => exact h
  | succ k ih =>
    have hskip : ∀ v : State, (v.plink.enumRun.any fun e => e.isRoot && !e.again) = true →
        (({ v with plink := { v.plink with enumRun := v.plink.enumRun.map fun e => { e with port := if e.again then 4 else e.port + 1 } } } :
          State).plink.enumRun.any fun e => e.isRoot && !e.again) = true := by
      intro v hv
      simpa [Option.any_map, Function.comp_def] using hv
    have hblock : ∀ p r, ((blockPort p r s).plink.enumRun.any fun e => e.isRoot && !e.again) = true := by
      intro p r
      unfold blockPort
      rw [record_plink]
      simpa [Option.any_map, Function.comp_def, modPl] using h
    unfold enumGo
    split
    · exact h
    next e he =>
      have hroot : (e.isRoot && !e.again) = true := by simpa [he] using h
      simp only [Bool.and_eq_true, Bool.not_eq_true'] at hroot
      dsimp only
      split_ifs
      · simp only [enumFinish, hroot, Bool.false_eq_true, if_false, if_true, record_plink]
        simp
      · exact ih _ (hskip _ h)
      · exact ih _ (hskip _ (hblock ..))
      · exact ih _ (hskip _ (hblock ..))
      · exact h

end Sys2Proof.Machine
end

section
/-! The commands of the Prieth fabric (08). -/

namespace Sys2Proof.Machine

/-! PLINK_ENUMERATE. -/

/-- The node is the root of a new epoch, no port tried yet. -/
def rootRun (setSource : Bool) (tenant : Nat) (s : State) : State :=
  { s with plink := { s.plink with
    root := true, rooted := true, addr := 0, depth := 0, epoch := s.plink.epoch + 1, fabric := none
    ports := s.plink.ports.map fun q =>
      if q.st = 2 then { q with reattach := false } else { q with role := 0, first := 0xFFFF, last := 0xFFFF, reattach := false }
    enumRun := some { port := 0, next := 1, limit := 0xFFF, setSource, isRoot := true, tenant, blocked := 0, again := false } } }

theorem startEnumerate_eq (setSource : Bool) (tenant : Nat) (s : State) :
    startEnumerate setSource tenant s = enumGo 6 (if nodeAddr s = 0 then rootRun setSource tenant s
      else record 0x0404 engineTag [(2, nodeAddr s), (2, 0), (2, (s.plink.epoch + 1).toNat)] (rootRun setSource tenant s)) := rfl

/-- The run of a root that begins. -/
structure RootStarted (s u : State) : Prop where
  root : u.plink.root = true
  rooted : u.plink.rooted = true
  addr : u.plink.addr = 0
  depth : u.plink.depth = 0
  epoch : u.plink.epoch = s.plink.epoch + 1
  running : u.plink.enumRun.isSome = true
  last : u.last = s.last

theorem rootStarted_startEnumerate (setSource : Bool) (tenant : Nat) (s : State) :
    RootStarted s (startEnumerate setSource tenant s) := by
  rw [startEnumerate_eq]
  generalize hv : (if nodeAddr s = 0 then rootRun setSource tenant s
    else record 0x0404 engineTag [(2, nodeAddr s), (2, 0), (2, (s.plink.epoch + 1).toNat)] (rootRun setSource tenant s)) = v
  have hplink : v.plink = (rootRun setSource tenant s).plink := by
    rw [← hv]
    split
    · rfl
    · rw [record_plink]
  have hlast : v.last = s.last := by
    rw [← hv]
    split
    · rfl
    · rw [record_last]
      rfl
  have hrun := EnumOnly.enumGo 6 v
  have hroot := enumGo_rootRun 6 v (by rw [hplink]; rfl)
  obtain ⟨e, he, -⟩ := (Option.any_eq_true _ _).1 hroot
  exact {
    root := hrun.root.trans (by rw [hplink]; rfl)
    rooted := hrun.rooted.trans (by rw [hplink]; rfl)
    addr := hrun.addr.trans (by rw [hplink]; rfl)
    depth := hrun.depth.trans (by rw [hplink]; rfl)
    epoch := hrun.epoch.trans (by rw [hplink]; rfl)
    running := by rw [he]; rfl
    last := hrun.last.trans hlast }

/-- What an accepted class 2 command does when it is not staged. -/
theorem exec_class2 {i : Instr} {r : Req} {m : Meaning} {s : State} (hr : reqOf i = some r) (hm : meaningOf i = some m)
    (hacc : accepted i s = true) (hcls : r.cls = 2) : exec i s = .next (msixScan 16 (startClass2 i r m s)) := by
  rw [exec_accepted hr hm hacc, execute, if_neg (not_staged_of_cls hr hm hacc (by rw [hcls]; decide)), if_pos hcls]

theorem plinkEnumerate_starts {r : Req} {flags : Byte} {s : State} (hacc : accepted (.plinkEnumerate r flags) s = true) (hcls : r.cls = 2)
    (hempty : (s.tenant r.tenant).class2 = []) :
    ∃ u, exec (.plinkEnumerate r flags) s = .next (msixScan 16 u) ∧ RootStarted s u := by
  refine ⟨_, exec_class2 (m := plinkEnumerateM r flags) rfl rfl hacc hcls, ?_⟩
  have hstart : startClass2 (.plinkEnumerate r flags) r (plinkEnumerateM r flags) s =
      startEnumerate (flags.getLsbD 0) r.tenant (sayInterim r (.plinkEnumerate r flags) .pending []
        (modTenant r.tenant (fun n => { n with class2 := n.class2 ++ [{ cmd := .plinkEnumerate r flags }] }) s)) := by
    rw [startClass2_eq]
    dsimp only
    rw [if_pos (by rw [hempty]; rfl)]
    rfl
  rw [hstart]
  generalize hv : sayInterim r (.plinkEnumerate r flags) .pending []
    (modTenant r.tenant (fun n => { n with class2 := n.class2 ++ [{ cmd := .plinkEnumerate r flags }] }) s) = v
  have hplink : sansPorts v = sansPorts s := by rw [← hv, sansPorts_sayInterim, sansPorts_modTenant]
  have hlast : v.last = s.last := by
    rw [← hv, (repliesOnly_sayInterim _ _ _ _ _).frame]
    rfl
  obtain ⟨hroot, hrooted, haddr, hdepth, hepoch, hrunning, hsame⟩ := rootStarted_startEnumerate (flags.getLsbD 0) r.tenant v
  exact ⟨hroot, hrooted, haddr, hdepth, hepoch.trans (congrArg (· + 1) (congrArg Plink.epoch hplink :)), hrunning, hsame.trans hlast⟩

/-! FABRIC_PREPARE. -/

theorem sansPorts_broadcast (c : ExpressCell) (s : State) : sansPorts (broadcast c s) = sansPorts s :=
  foldl_keeps (f := fun s p => sendExpress p c s) sansPorts (fun _ _ => rfl) _ _

/-- The commit a node has judged. -/
def judgedRun (fid tenant group by_ : Nat) (s : State) : FabricRun where
  fid := fid
  tenant := tenant
  by_ := by_
  group := group
  applied := s.plink.fabric.any fun f => f.fid = fid && f.applied
  ready := bit (judge tenant group s = 0)
  idle := bit (judge tenant group s = 1)
  failed := bit (judge tenant group s = 2)
  firstFailed := if judge tenant group s = 2 then nodeAddr s else 0xFFFF

theorem judge_lt (tenant group : Nat) (s : State) : judge tenant group s < 3 := by
  unfold judge
  dsimp only
  split_ifs <;> omega

theorem judgedRun_counts (fid tenant group by_ : Nat) (s : State) :
    let f := judgedRun fid tenant group by_ s
    f.ready + f.idle + f.failed = 1 ∧ (f.ready = 1 ↔ judge tenant group s = 0) := by
  have h := judge_lt tenant group s
  simp only [judgedRun]
  generalize judge tenant group s = j at h
  obtain rfl | rfl | rfl : j = 0 ∨ j = 1 ∨ j = 2 := by omega
  all_goals decide

/-- What judging a PREPARE leaves of the fabric. -/
theorem sansPorts_startPrepare (fid tenant group by_ : Nat) (s : State) : sansPorts (startPrepare fid tenant group by_ s) =
    { sansPorts s with
      fabric := some (judgedRun fid tenant group by_ s)
      armed := if judge tenant group s = 0 then some { fid, tenant, group } else s.plink.armed } := by
  unfold startPrepare
  dsimp only
  rw [sansPorts_broadcast]
  by_cases hj : judge tenant group s = 0
  · simp only [hj, if_true, sansPorts, record_plink]
    simp [judgedRun, hj, modGroup, modTenant]
  · simp only [hj, if_false, sansPorts]
    simp [judgedRun, hj]

theorem fabricPrepare_judges {r : Req} {fid tenant : Byte} {group : Half} {s : State}
    (hacc : accepted (.fabricPrepare r fid tenant group) s = true) (hcls : r.cls = 2) :
    ∃ u, exec (.fabricPrepare r fid tenant group) s = .next (msixScan 16 u) ∧
      sansPorts u = sansPorts (startPrepare fid.toNat tenant.toNat group.toNat r.tenant s) := by
  refine ⟨_, exec_class2 (m := fabricPrepareM r fid tenant group) rfl rfl hacc hcls, ?_⟩
  rw [startClass2_eq]
  simp only [fabricPrepareM]
  split
  · exact (sansPorts_sayInterim ..).trans (sansPorts_modTenant ..)
  · exact (sansPorts_sayInterim ..).trans (sansPorts_modTenant ..)

/-! FABRIC_APPLY and FABRIC_ABORT. -/

/-- The root's APPLY as broadcast. -/
def applyCast (r : Req) (fid : Nat) (s : State) : State :=
  broadcast (.apply fid r.apply.sHi r.apply.sLo r.apply.ns)
    { s with plink := { s.plink with fabric := s.plink.fabric.map fun f => { f with applied := true } } }

theorem fabricApply_onAccept (r : Req) (fid : Byte) (s : State) : ∃ v, (fabricApplyM r fid).onAccept s = (v, .pending, []) ∧
    v.plink.fabric = s.plink.fabric.map (fun f => { f with applied := true }) ∧ v.tenants.length = s.tenants.length := by
  have hplink : (applyCast r fid.toNat s).plink.fabric = s.plink.fabric.map fun f => { f with applied := true } :=
    (congrArg Plink.fabric (sansPorts_broadcast (.apply fid.toNat r.apply.sHi r.apply.sLo r.apply.ns)
      { s with plink := { s.plink with fabric := s.plink.fabric.map fun f => { f with applied := true } } }) :)
  have htenants : (applyCast r fid.toNat s).tenants = s.tenants :=
    foldl_keeps (f := fun s p => sendExpress p _ s) State.tenants (fun _ _ => rfl) _ _
  have haccept : (fabricApplyM r fid).onAccept s = ((armedWaiting (applyCast r fid.toNat s)).elim (applyCast r fid.toNat s)
      fun a => if a.fid = fid.toNat then commitArmed a r.apply (applyCast r fid.toNat s) else applyCast r fid.toNat s, .pending, []) := by
    cases hwaiting : armedWaiting (applyCast r fid.toNat s) <;> simp only [applyCast] at hwaiting <;>
      simp only [fabricApplyM, hwaiting] <;> rfl
  refine ⟨_, haccept, ?_⟩
  cases armedWaiting (applyCast r fid.toNat s) with
  | none => exact ⟨hplink, by rw [Option.elim_none, htenants]⟩
  | some a =>
    simp only [Option.elim_some]
    split
    · exact ⟨hplink, by simp [commitArmed, modGroup, modTenant, htenants]⟩
    · exact ⟨hplink, by rw [htenants]⟩

theorem fabricApply_waits {r : Req} {fid : Byte} {s : State} (hacc : accepted (.fabricApply r fid) s = true) :
    ∃ u, exec (.fabricApply r fid) s = .next (msixScan 16 u) ∧ u.plink.fabric.any (fun f => f.applied && f.fid = fid.toNat) = true ∧
      (u.tenant r.tenant).pend.any (fun p => p.cmd = .fabricApply r fid && p.timed && p.due = applyTime r.apply) = true := by
  have hcls : r.cls = 1 := by
    have h := cls_mem_of_accepted (m := fabricApplyM r fid) rfl rfl hacc
    exact BitVec.eq_of_toNat_eq (by simpa [opInfo] using h)
  obtain ⟨-, -, -, -, -, -, -, htime, hown⟩ := refusal_none (refusal_of_accepted (m := fabricApplyM r fid) rfl rfl hacc)
  have hclose : tooClose s r (.fabricApply r fid) = false := by
    by_contra htoo
    rw [timeCheck, if_neg (by simp [pinTooLate]), if_neg (by simp [hcls])] at htime
    split at htime
    · cases htime
    · rw [if_pos (by rw [eq_true_of_ne_false htoo]; simp [opInfo])] at htime
      cases htime
  have hknown : (preparedRun s fid).isNone = false := by
    have h := check_passes hown (st := .range) (.head _) (by decide)
    simp only [Bool.or_eq_false_iff] at h
    exact h.1
  obtain ⟨f, hf⟩ : ∃ f, preparedRun s fid = some f := by
    rw [← Option.isSome_iff_exists, ← Option.not_isNone, hknown]
    rfl
  obtain ⟨hfabric, hfid⟩ : s.plink.fabric = some f ∧ f.fid = fid.toNat := by
    simp only [preparedRun, Option.filter_eq_some_iff, Bool.and_eq_true, decide_eq_true_eq] at hf
    exact ⟨hf.1, hf.2.2⟩
  have hexec : execute (.fabricApply r fid) r (fabricApplyM r fid) s =
      hold (.fabricApply r fid) r (fabricApplyM r fid) (applyTime r.apply) true s := by
    rw [execute, if_neg (not_staged_of_cls (m := fabricApplyM r fid) rfl rfl hacc (by rw [hcls]; decide))]
    simp [hcls, hclose]
  obtain ⟨v, haccept, hv, hlen⟩ := fabricApply_onAccept r fid s
  refine ⟨_, exec_accepted (m := fabricApplyM r fid) rfl rfl hacc, ?_⟩
  rw [hexec, hold, haccept]
  dsimp only
  generalize hw : modTenant r.tenant (fun n => { n with pend := n.pend ++ [{
    cmd := .fabricApply r fid, due := applyTime r.apply, timed := true, copied := (fabricApplyM r fid).copy s }] }) v = w
  have hreplies := repliesOnly_sayInterim r (.fabricApply r fid) .pending [] w
  have hplink := sansPorts_sayInterim r (.fabricApply r fid) .pending [] w
  refine ⟨?_, ?_⟩
  · have hfab : (sayInterim r (.fabricApply r fid) .pending [] w).plink.fabric = v.plink.fabric :=
      (congrArg Plink.fabric hplink :).trans (by rw [← hw]; rfl)
    rw [hfab, hv, hfabric]
    simp [hfid]
  · rw [hreplies.pend, ← hw, tenant_modTenant_self _ (hlen ▸ tenant_lt_of_accepted rfl hacc)]
    simp

theorem abortArmed_disarms (fid : Nat) (s : State) :
    (abortArmed fid s).last = s.last ∧ ∀ a, armedWaiting s = some a → a.fid = fid → (abortArmed fid s).plink.armed = none := by
  unfold abortArmed
  cases hwaiting : armedWaiting s with
  | none => exact ⟨rfl, nofun⟩
  | some a =>
    dsimp only
    have harmed : s.plink.armed = some a := (Option.filter_eq_some_iff.1 hwaiting).1
    split
    · rw [record_last, record_plink]
      unfold disarm
      simp only [harmed]
      exact ⟨rfl, fun _ _ _ => trivial⟩
    next hfid => exact ⟨rfl, fun b hb hbid => absurd (Option.some.inj hb ▸ hbid) hfid⟩

theorem armedWaiting_broadcast (c : ExpressCell) (s : State) : armedWaiting (broadcast c s) = armedWaiting s := by
  have harmed : (broadcast c s).plink.armed = s.plink.armed := (congrArg Plink.armed (sansPorts_broadcast c s) :)
  rw [armedWaiting, harmed, armedWaiting]

theorem last_broadcast (c : ExpressCell) (s : State) : (broadcast c s).last = s.last :=
  foldl_keeps (f := fun s p => sendExpress p c s) State.last (fun _ _ => rfl) _ _

/-- Settles O35, command by command. -/
theorem fabricCommands : Obligations.FabricCommands := by
  refine ⟨fun r flags s hacc hcls _ hempty => ?_, fun r c s hruns => runs_answers (m := plinkAudioMapM c) rfl hruns,
    fun r fid tenant group s hacc hcls _ => ?_, fun r fid s hacc _ => fabricApply_waits hacc, fun r fid s hruns => ?_,
    fun t ok rb r flags s hends => endsAs_effect (m := plinkEnumerateM r flags) ok rb rfl hends,
    fun t ok rb r fid tenant group f s hends hf => ?_⟩
  · obtain ⟨u, hexec, hroot, hrooted, haddr, hdepth, hepoch, hrunning, hlast⟩ := plinkEnumerate_starts hacc hcls hempty
    exact ⟨u, hexec, hroot, hrooted, haddr, hdepth, hepoch, hrunning, hlast⟩
  · obtain ⟨u, hexec, hu⟩ := fabricPrepare_judges hacc hcls
    rw [sansPorts_startPrepare] at hu
    obtain ⟨hsum, hready⟩ := judgedRun_counts fid.toNat tenant.toNat group.toNat r.tenant s
    have harmed : u.plink.armed = if judge tenant.toNat group.toNat s = 0
      then some { fid := fid.toNat, tenant := tenant.toNat, group := group.toNat } else s.plink.armed := (congrArg Plink.armed hu :)
    refine ⟨u, _, hexec, (congrArg Plink.fabric hu :), rfl, rfl, rfl, rfl, rfl, hsum, hready, fun h => ?_, fun h => ?_⟩
    · rw [harmed, if_pos (hready.1 h)]
    · rw [harmed, if_neg fun hj => absurd ((hready.2 hj).symm.trans h) (by decide)]
  · refine ⟨_, runs_answers (m := fabricAbortM r fid) rfl hruns, rfl, fun a ha hfid => ?_, ?_⟩
    · exact (abortArmed_disarms fid.toNat _).2 a ((armedWaiting_broadcast ..).trans ha) hfid
    · exact ((abortArmed_disarms fid.toNat _).1).trans (last_broadcast ..)
  · have hans := endsAs_effect (m := fabricPrepareM r fid tenant group) ok rb rfl hends
    simp only [fabricPrepareM, hf] at hans
    exact hans

end Sys2Proof.Machine
end

section
/-! Links, frames and command cells of Prieth (08). -/

namespace Sys2Proof.Machine

/-! A port goes down. -/

/-- The ports without what enumeration changes of them. -/
def links (s : State) : List PlPort := s.plink.ports.map linkless

theorem links_record (c o : Nat) (d : List (Nat × Nat)) (s : State) : links (record c o d s) = links s := by
  rw [links, record_plink, links]

theorem plink_setServo (who : Nat) (new : Servo) (s : State) : (setServo who new s).plink = s.plink :=
  (congrArg State.plink (sansEvents_setServo s who new s) :)

theorem plink_sourceLostOp (s : State) : (sourceLostOp s).plink = s.plink := by
  unfold sourceLostOp
  dsimp only
  split <;> simp only [record_plink, plink_setServo]

/-- Disarming leaves the ports and whether the node is rooted. -/
theorem disarm_keeps (s : State) : (disarm s).plink = { s.plink with armed := none } := by
  unfold disarm
  split
  · rfl
  next h => rw [← h]

theorem plink_fabricMissed (fid cause : Nat) (s : State) : (fabricMissed fid cause s).plink = { s.plink with armed := none } := by
  rw [fabricMissed, record_plink, disarm_keeps]

/-- What the loss of the address leaves of the fabric. -/
theorem unroot_keeps (s : State) : links (unroot s) = links s ∧ (unroot s).plink.rooted = false := by
  unfold unroot
  split
  next h => exact ⟨rfl, by simpa using h⟩
  · dsimp only
    set v := record 0x0404 engineTag [(2, s.plink.addr), (2, 0xFFFF), (2, s.plink.epoch.toNat)] { s with plink := { s.plink with
      rooted := false, addr := 0, depth := 0, lastAddr := 0, enumRun := none, fabric := none
      ports := s.plink.ports.map fun q => { q with first := 0xFFFF, last := 0xFFFF, reattach := false } } } with hv
    have hlinks : links v = links s := by
      rw [hv, links_record]
      simp only [links, List.map_map]
      rfl
    have hrooted : v.plink.rooted = false := by rw [hv, record_plink]
    generalize v = v at hlinks hrooted
    have hmissed : ∀ a, links (fabricMissed a 2 v) = links s ∧ (fabricMissed a 2 v).plink.rooted = false := by
      intro a
      rw [links, plink_fabricMissed]
      exact ⟨hlinks, hrooted⟩
    have hlost : ∀ w, links w = links s ∧ w.plink.rooted = false →
        links (if w.last.src = 0x20 then sourceLostOp w else w) = links s ∧
          (if w.last.src = 0x20 then sourceLostOp w else w).plink.rooted = false := by
      intro w hw
      split
      · rw [links, plink_sourceLostOp]
        exact hw
      · exact hw
    split
    · exact hlost _ (hmissed _)
    · exact hlost _ ⟨hlinks, hrooted⟩

theorem settlePrepare_keeps (s : State) : links (settlePrepare s) = links s ∧ (settlePrepare s).plink.rooted = s.plink.rooted := by
  have hsend : ∀ (r : FabricRun) (l : List Nat) (v : State), EnumOnly v (l.foldl (fun s p => sendExpress p
      (.prepareAck r.fid r.ready r.idle r.failed r.firstFailed) s) v) := fun r l v => EnumOnly.foldl (fun s p => EnumOnly.sendExpress ..) l v
  unfold settlePrepare
  split
  · split
    · exact ⟨rfl, rfl⟩
    · exact ⟨(hsend ..).ports, (hsend ..).rooted⟩
  · exact ⟨rfl, rfl⟩

/-- A port as it goes down. -/
def downed (p cause : Nat) (s : State) : State :=
  modPl p (fun q => { q with
    goodRun := 0, lastRx := none, rxFrame := none, acked := true, reattach := false, role := if q.role = 2 then 2 else 0 })
    (plinkState p 0 cause s)

/-- A port down whose role has been given up: an upstream port takes the address with it. -/
def afterRole (p cause : Nat) (s : State) : State :=
  if (s.pl p).role = 1 then
    if (downed p cause s).plink.rooted then unroot (downed p cause s)
    else if (downed p cause s).last.src = 0x20 then sourceLostOp (downed p cause s) else downed p cause s
  else downed p cause s

theorem afterRole_keeps (p cause : Nat) (s : State) : links (afterRole p cause s) = links (downed p cause s) ∧
    ((s.pl p).role = 1 → (afterRole p cause s).plink.rooted = false) := by
  unfold afterRole
  split
  · split
    · exact ⟨(unroot_keeps _).1, fun _ => (unroot_keeps _).2⟩
    next hunrooted =>
      have hfalse : (downed p cause s).plink.rooted = false := by simpa using hunrooted
      split
      · rw [links, plink_sourceLostOp]
        exact ⟨rfl, fun _ => hfalse⟩
      · exact ⟨rfl, fun _ => hfalse⟩
  next hrole => exact ⟨rfl, fun h => absurd h hrole⟩

/-- An enumeration that waits for a port goes on without it. -/
def afterEnum (p : Nat) (s : State) : State :=
  if enumWaits s p then
    if s.plink.enumRun.any fun e => e.again then enumStep id s else enumStep id (blockPort p (Config.causeCode 6 0).toNat s)
  else s

theorem afterEnum_only (p : Nat) (s : State) : EnumOnly s (afterEnum p s) := by
  unfold afterEnum
  split
  · split
    · exact .enumStep ..
    · exact .trans (.blockPort ..) (.enumStep ..)
  · exact .refl _

theorem portDown_eq {p : Nat} (cause : Nat) {s : State} (h : (s.pl p).st ≠ 0) :
    portDown p cause s = settlePrepare (afterEnum p (afterRole p cause s)) := by
  unfold portDown
  rw [if_neg h]
  rfl

theorem portDown_keeps {p : Nat} (cause : Nat) {s : State} (h : (s.pl p).st ≠ 0) :
    links (portDown p cause s) = links (downed p cause s) ∧
      ((s.pl p).role = 1 → (portDown p cause s).plink.rooted = false) := by
  rw [portDown_eq cause h]
  obtain ⟨hlinks, hrole⟩ := afterRole_keeps p cause s
  obtain ⟨hsettled, hrooted⟩ := settlePrepare_keeps (afterEnum p (afterRole p cause s))
  have hgone := afterEnum_only p (afterRole p cause s)
  exact ⟨hsettled.trans (hgone.ports.trans hlinks), fun h1 => hrooted.trans (hgone.rooted.trans (hrole h1))⟩

theorem portDown_port {p : Nat} (cause : Nat) {s : State} (hp : p < s.plink.ports.length) (h : (s.pl p).st ≠ 0) :
    ((portDown p cause s).pl p).st = 0 ∧ ((portDown p cause s).pl p).goodRun = 0 ∧
      ∀ q, q ≠ p → ((portDown p cause s).pl q).st = (s.pl q).st := by
  have hlinks := (portDown_keeps cause h).1
  have hplink : ∀ k, (plinkState p 0 cause s).pl k = (modPl p (fun q => { q with st := 0 }) s).pl k := fun k => pl_record ..
  have hport : ∀ k, linkless ((portDown p cause s).pl k) = linkless ((downed p cause s).pl k) := nth_of_map_eq hlinks
  have hlen : p < (plinkState p 0 cause s).plink.ports.length := by
    rw [plinkState, record_plink]
    simpa [modPl] using hp
  have hself := hport p
  rw [downed, pl_modPl_self _ hlen, hplink, pl_modPl_self _ hp] at hself
  refine ⟨(congrArg PlPort.st hself :), (congrArg PlPort.goodRun hself :), fun q hq => ?_⟩
  have hother := hport q
  rw [downed, pl_modPl_other _ _ hq, hplink, pl_modPl_other _ _ hq] at hother
  exact (congrArg PlPort.st hother :)

/-! Frames received. -/

theorem modPl_self (p : Nat) (s : State) : modPl p (fun q => q) s = s := by
  unfold modPl
  rw [updAt_self _ _ rfl]

/-- The audio of a frame goes into the samples of its port. -/
theorem audioRx_keeps (p : Nat) (f : PlFrame) (s : State) : ∃ l, (audioRx p f s).plink = (modPl p (fun q => { q with rx := l }) s).plink ∧
    ∀ base, sansEvents base (audioRx p f s) = sansEvents base (modPl p (fun q => { q with rx := l }) s) := by
  have hsame : modPl p (fun q => { q with rx := (s.pl p).rx }) s = s := by
    unfold modPl
    rw [updAt_self]
    rfl
  unfold audioRx
  dsimp only
  split
  · exact ⟨(s.pl p).rx, by rw [hsame], fun base => by rw [hsame]⟩
  · split
    · exact ⟨(s.pl p).rx, by rw [hsame, record_plink], fun base => by rw [hsame, sansEvents_record]⟩
    · split
      · exact ⟨(s.pl p).rx, by rw [hsame], fun base => by rw [hsame]⟩
      · split
        · exact ⟨_, rfl, fun base => rfl⟩
        · exact ⟨_, record_plink .., fun base => sansEvents_record ..⟩

/-- What a right time cell gives a port, and later parts of its frame leave. -/
def heard (q : PlPort) : Half × Nat × Option (Nat × Int × Int) := (q.peer, q.goodRun, q.lastRx)

/-- What the ports have heard. -/
def heards (s : State) : List (Half × Nat × Option (Nat × Int × Int)) := s.plink.ports.map heard

theorem heards_of_links {s u : State} (h : links u = links s) : heards u = heards s := by
  have hmap : ∀ v : State, heards v = (links v).map heard := fun v => by
    simp only [heards, links, List.map_map]
    rfl
  rw [hmap, hmap, h]

theorem heards_modPl (p : Nat) {f : PlPort → PlPort} (hf : ∀ q, heard (f q) = heard q) (s : State) : heards (modPl p f s) = heards s :=
  map_updAt _ _ _ _ hf

theorem heards_record (c o : Nat) (d : List (Nat × Nat)) (s : State) : heards (record c o d s) = heards s := by
  rw [heards, record_plink, heards]

theorem heards_of_plink {s u : State} (h : u.plink = s.plink) : heards u = heards s := by rw [heards, h, heards]

theorem heards_renumber (q : Int) (s : State) : heards (renumber q s) = heards s := by
  unfold renumber
  split
  · rfl
  · simp only [heards, List.map_map]
    rfl

theorem plink_sansTrig (s : State) : (sansTrig s).plink = s.plink := rfl

theorem plink_judgeStep (base : Time) (s : State) : (judgeStep base s).plink = s.plink := by
  have h := congrArg State.plink (sansTrig_judgeStep base s)
  rw [plink_sansTrig, plink_sansTrig] at h
  exact h

theorem heards_applyStep (cause who : Nat) (new : Time) (s : State) : heards (applyStep cause who new s) = heards s := by
  have hmove : (moveCounter cause who (cycleEnd s) new s).plink = (renumber ((s.audio.grid + (new - cycleEnd s)) / gridSpan) s).plink :=
    (congrArg State.plink (sansEvents_moveCounter cause who (cycleEnd s) new s) :)
  rw [applyStep, heards_of_plink (plink_judgeStep ..), heards_of_plink hmove, heards_renumber]

theorem heards_servoSample (off : Time) (s : State) : heards (servoSample off s) = heards s := by
  have hset : ∀ who new v, heards (setServo who new v) = heards v := fun who new v => heards_of_plink (plink_setServo ..)
  have hacquire : ∀ v, heards (acquireSample off v) = heards v := by
    intro v
    have hcount : ∀ a w, heards (countInRun a w) = heards w := by
      intro a w
      unfold countInRun
      split
      · split
        · exact hset ..
        · rfl
      · rfl
    unfold acquireSample
    dsimp only
    rw [hcount]
    split_ifs
    · exact heards_applyStep ..
    · rfl
    · exact heards_applyStep ..
    · rfl
  have hlocked : ∀ v, heards (lockedSample off v) = heards v := by
    intro v
    unfold lockedSample
    dsimp only
    split_ifs
    · exact hset ..
    · rfl
    · rfl
    · exact hset ..
    · rfl
    · rfl
  have hloop : ∀ v, heards (loopStep v) = heards v := fun v => rfl
  unfold servoSample
  split
  · rfl
  · dsimp only
    split
    · rw [hloop, hlocked]
      rfl
    · rw [hloop, hacquire]
      rfl
    · rw [hloop, hacquire, hset]
      rfl

theorem heards_upstreamRx (p : Nat) (t : TimeCell) (stamp : Int) (s : State) : heards (upstreamRx p t stamp s) = heards s := by
  unfold upstreamRx
  dsimp only
  split
  · rfl
  · split
    · exact heards_of_links (unroot_keeps s).1
    · split
      · have hmod : ∀ d, heards (modPl p (fun q => { q with offset := d }) s) = heards s := by
          intro d
          refine heards_modPl p ?_ s
          exact fun q => rfl
        split
        · rw [heards_servoSample, hmod]
        · exact hmod _
      · rfl

/-- A port that has heard a right time cell. -/
def cellHeard (p : Nat) (t : TimeCell) (stamp : Int) (s : State) : State :=
  modPl p (fun q => { q with
    framesOk := q.framesOk + 1, goodRun := q.goodRun + 1, peer := t.node, peerDepth := t.depth, peerFlags := t.flags
    dMean := (delayValue (s.pl p) t).elim (s.pl p).dMean fun d => (d :: (s.pl p).dMean).take 64
    lastMean := if delayValue q t = none then q.lastMean
      else ((delayValue (s.pl p) t).elim (s.pl p).dMean fun d => (d :: (s.pl p).dMean).take 64).headD 0
    lastRx := some (frameIndex (timeOf t.txTime), quarterOf (timeOf t.txTime), stamp)
    rxFrame := some (roundUp (timeOf t.txTime) frameU.toNat), rxRate := t.rate.toNat }) s

theorem heards_timeCellRx (p : Nat) (t : TimeCell) (stamp : Int) (s : State) :
    heards (timeCellRx p t stamp s) = heards (cellHeard p t stamp s) := by
  have hcell : timeCellRx p t stamp s =
      if ((cellHeard p t stamp s).pl p).st = 1 && 4 ≤ ((cellHeard p t stamp s).pl p).goodRun &&
          (delayMean ((cellHeard p t stamp s).pl p)).any (fun d => d ≤ ofNs 5000) then
        reattachNext (modPl p (fun q => { q with
          framesOk := 0, framesBad := 0, cellsDropped := 0, audioBad := 0, dMean := q.dMean.take 1
          reattach := ((cellHeard p t stamp s).pl p).role = 2 && ((cellHeard p t stamp s).pl p).first ≠ 0xFFFF })
          (plinkState p 2 1 (cellHeard p t stamp s)))
      else cellHeard p t stamp s := by
    unfold timeCellRx cellHeard
    dsimp only
    cases delayValue (s.pl p) t <;> rfl
  rw [hcell]
  split
  · rw [heards_of_links (EnumOnly.reattachNext _).ports]
    refine (heards_modPl p ?_ _).trans ?_
    · exact fun q => rfl
    · rw [plinkState, heards_record]
      refine heards_modPl p ?_ _
      exact fun q => rfl
  · rfl

/-- What a frame is counted as before its time cell. -/
def frameCounted (p : Nat) (f : PlFrame) (s : State) : State :=
  modPl p (fun q => { q with
    cellsDropped := q.cellsDropped + BitVec.ofNat 32 ((if f.dirOk then 0 else f.cells) + f.expBad)
    audioBad := q.audioBad + BitVec.ofNat 32 ((List.range 24).filter fun b => !f.audioOk.getLsbD b).length }) s

theorem frameRx_bad {p : Nat} {f : PlFrame} (s : State) (h : f.time = none) : frameRx p f s =
    audioRx p f (modPl p (fun q => { q with
      framesBad := q.framesBad + 1, goodRun := 0, lastRx := none, rxFrame := q.rxFrame.map (· + 1) }) (frameCounted p f s)) := by
  unfold frameRx
  simp only [h]
  rfl

theorem frameRx_good {p : Nat} {f : PlFrame} {t : TimeCell} (s : State) (h : f.time = some t) : frameRx p f s =
    audioRx p f (upstreamRx p t (quarterOf (s.now + ofQuarter f.tap)) (timeCellRx p t (quarterOf (s.now + ofQuarter f.tap)) (frameCounted p f s))) := by
  unfold frameRx
  simp only [h]
  rfl

theorem hears_port {s : State} {p : Nat} (h : hears s p = true) : (s.pl p).st ≠ 0 := by
  simp only [hears, Bool.and_eq_true, decide_eq_true_eq] at h
  exact h.2

theorem exec_plinkFrame {p : Fin 4} {s : State} (f : PlFrame) (h : hears s p = true) :
    exec (.plinkFrame p f) s = .next (msixScan 16 (settleClass2 (frameRx p f s))) := if_pos h

theorem plinkFrame_bad {p : Fin 4} {f : PlFrame} {s : State} (h : hears s p = true) (hs : shaped s = true) (ht : f.time = none) :
    ∃ u, exec (.plinkFrame p f) s = .next (msixScan 16 (settleClass2 u)) ∧
      (u.pl p).framesBad = (s.pl p).framesBad + 1 ∧ (u.pl p).goodRun = 0 ∧ sansEvents s u = modPl p (fun _ => u.pl p) s := by
  refine ⟨_, exec_plinkFrame f h, ?_⟩
  rw [frameRx_bad s ht]
  obtain ⟨l, hplink, hframe⟩ := audioRx_keeps p f (modPl p (fun q => { q with
      framesBad := q.framesBad + 1, goodRun := 0, lastRx := none, rxFrame := q.rxFrame.map (· + 1) }) (frameCounted p f s))
  generalize audioRx p f _ = u at hplink hframe
  rw [frameCounted, modPl_modPl, modPl_modPl] at hplink
  have hframe := hframe s
  rw [frameCounted, modPl_modPl, modPl_modPl] at hframe
  have hport : u.pl p = _ := (congrArg (fun k => nth k.ports p.val) hplink :).trans (pl_modPl_self _ (pl_lt hs p))
  exact ⟨by rw [hport], by rw [hport], hframe.trans (modPl_congr (s := s) hport.symm)⟩

theorem plinkFrame_good {p : Fin 4} {f : PlFrame} {t : TimeCell} {s : State} (h : hears s p = true) (hs : shaped s = true)
    (ht : f.time = some t) : ∃ u, exec (.plinkFrame p f) s = .next (msixScan 16 (settleClass2 u)) ∧ (u.pl p).peer = t.node ∧
      (u.pl p).goodRun = (s.pl p).goodRun + 1 ∧
      (u.pl p).lastRx = some (frameIndex (timeOf t.txTime), quarterOf (timeOf t.txTime), quarterOf (s.now + ofQuarter f.tap)) := by
  refine ⟨_, exec_plinkFrame f h, ?_⟩
  rw [frameRx_good s ht]
  generalize hv : upstreamRx p t (quarterOf (s.now + ofQuarter f.tap))
    (timeCellRx p t (quarterOf (s.now + ofQuarter f.tap)) (frameCounted p f s)) = v
  obtain ⟨l, hplink, -⟩ := audioRx_keeps p f v
  have hheards : heards (audioRx p f v) = heards (cellHeard p t (quarterOf (s.now + ofQuarter f.tap)) (frameCounted p f s)) := by
    rw [heards_of_plink hplink, ← heards_timeCellRx, ← heards_upstreamRx p t (quarterOf (s.now + ofQuarter f.tap)) (timeCellRx ..), hv]
    refine heards_modPl p ?_ v
    exact fun q => rfl
  have hport : heard ((audioRx p f v).pl p) = heard ((cellHeard p t (quarterOf (s.now + ofQuarter f.tap)) (frameCounted p f s)).pl p) :=
    nth_of_map_eq hheards p
  have hlen : p.val < (frameCounted p f s).plink.ports.length := lt_of_lt_of_eq (pl_lt hs p) (length_updAt ..).symm
  rw [cellHeard, pl_modPl_self _ hlen, frameCounted, pl_modPl_self _ (pl_lt hs p)] at hport
  simp only [heard, Prod.mk.injEq] at hport
  exact hport

end Sys2Proof.Machine
end

section
/-! Frames launched and cells received on Prieth (08). -/

namespace Sys2Proof.Machine

/-! The bytes of a frame. -/

theorem length_slice (l : List Byte) (i n : Nat) : (slice l i n).length = n := by
  simp only [slice, List.length_append, List.length_take, List.length_drop, List.length_replicate]
  omega

theorem length_expressBytes (c : Option ExpressCell) : (expressBytes c).length = 64 := by
  unfold expressBytes
  rw [length_withCrc, padded, length_slice]

theorem length_timeCellBytes (s : State) (p : Nat) (tx : Int) (n : Nat) : (timeCellBytes s p tx n).length = 64 := by
  unfold timeCellBytes
  dsimp only
  split <;> simp

theorem length_frameBytes {time exp0 dir cells audio : List Byte} (ht : time.length = 64) (he : exp0.length = 64) (hd : dir.length = 256)
    (hc : cells.length = 8192) (ha : audio.length = 24576) : (frameBytes time exp0 dir cells audio).length = 33264 := by
  have hcrc : ((List.range 24).flatMap fun b => leBits 4 (crc32c (slice audio (1024 * b) 1024))).length = 96 := by
    rw [length_flatMap_const _ _ 4 fun b => length_leBits ..]
    simp
  simp only [frameBytes, List.length_append, ht, he, hd, hc, ha, hcrc, length_leBits, length_le]

theorem length_audioBytes (q : PlPort) (b0 : Int) (n : Nat) : (audioBytes q b0 n).length = 24576 := by
  unfold audioBytes
  dsimp only
  rw [length_flatMap_const _ _ 4 fun w => by split <;> simp]
  simp

/-! The launch of a frame. -/

/-- What a map of R242 leaves of a port. -/
def unmapped (q : PlPort) : PlPort := { q with rateTx := 0, rateRx := 0, txBuf := [], tx := [], rx := [], rxFades := [], rxMap := [] }

/-- What the maps of R242 leave of a state. -/
def mapView (s : State) : State := { s with plink := { s.plink with ports := s.plink.ports.map unmapped } }

theorem mapView_modPl (p : Nat) {f : PlPort → PlPort} (hf : ∀ q, unmapped (f q) = unmapped q) (s : State) :
    mapView (modPl p f s) = mapView s :=
  congrArg (fun l => { s with plink := { s.plink with ports := l } }) (map_updAt _ _ _ _ hf)

theorem mapView_applyMap (s : State) (c : MapCfg) : mapView (applyMap s c) = mapView s := by
  unfold applyMap
  dsimp only
  split
  · refine mapView_modPl _ ?_ s
    exact fun q => rfl
  · have hgone : ∀ (l : List (Nat × Nat)) (v : State),
        mapView (l.foldl (fun s g => modPl g.1 (fun q => { q with tx := q.tx.filter fun x => x.1 ≠ g.2 }) s) v) = mapView v := by
      intro l v
      refine foldl_keeps mapView (fun v g => ?_) l v
      refine mapView_modPl _ ?_ v
      exact fun q => rfl
    split
    · refine (mapView_modPl _ ?_ _).trans ((mapView_modPl _ ?_ _).trans (hgone ..))
      · exact fun q => rfl
      · exact fun q => rfl
    · refine (mapView_modPl _ ?_ _).trans (hgone ..)
      exact fun q => rfl

/-- A port at the start of its frame: the maps that waited for it are in place. -/
def mapped (p : Nat) (s : State) : State := (s.pl p).pendingMap.foldl applyMap (modPl p (fun q => { q with pendingMap := [] }) s)

theorem mapView_mapped (p : Nat) (s : State) : mapView (mapped p s) = mapView (modPl p (fun q => { q with pendingMap := [] }) s) :=
  foldl_keeps mapView mapView_applyMap _ _

theorem frame_of_mapView {s u : State} (h : mapView u = mapView s) : u = { s with plink := u.plink } := by
  obtain ⟨⟩ := u
  obtain ⟨⟩ := s
  simp only [mapView, State.mk.injEq] at h ⊢
  simp only [h, and_self]

/-- A launch when the frame before has ended. -/
theorem launch_eq {p : Nat} {s : State} (h : (s.pl p).tailDue = false) : ∃ time e0 audio, ∃ g : PlPort → PlPort,
    time.length = 64 ∧ e0.length = 64 ∧ audio.length = 24576 ∧
    (∀ q, (g q).queue = (takeCells ((mapped p s).pl p).queue).2 ∧ (g q).pendingMap = q.pendingMap ∧ (g q).tailDue = true) ∧
    launch p s = emit (.plFrame p (sfd ++ (frameBytes time e0 (dirBytes (takeCells ((mapped p s).pl p).queue).1)
      (cellBytes (takeCells ((mapped p s).pl p).queue).1) audio).map .d)) (modPl p g (drawFree (mapped p s)).2) := by
  have htail : sendTail p s = s := if_pos (by rw [h]; rfl)
  unfold launch
  rw [htail]
  refine ⟨_, _, _, _, ?_, ?_, ?_, ?_, rfl⟩
  · exact length_timeCellBytes ..
  · exact length_expressBytes _
  · exact length_audioBytes ..
  · exact fun q => ⟨rfl, rfl, rfl⟩

theorem plinkFrameLaunch_sends {p : Fin 4} {s : State} (hruns : plinkRuns s = true) (hlane : laneUp s p = true)
    (hlog : (s.pl p).txLog.head?.any (fun x => x.1 = frameIndex (launchIndex s * frameU)) = false)
    (hgap : (s.pl p).launched.any (fun e => decide (elapsedQ s < e + 268000)) = false) (hs : shaped s = true)
    (htail : (s.pl p).tailDue = false) :
    ∃ u time e0 audio, exec (.plinkFrameLaunch p) s = .next (msixScan 16 u) ∧
      (let cells := (takeCells (s.pl p).queue).1
       let bytes := frameBytes time e0 (dirBytes cells) (cellBytes cells) audio
       u.out = s.out ++ [.plFrame p ([.k 0xBC, .k 0x3C] ++ bytes.map .d)] ∧ bytes.length = 33264 ∧ cells.length ≤ 32) ∧
      (u.pl p).queue = (takeCells (s.pl p).queue).2 ∧ (u.pl p).pendingMap = [] ∧ (u.pl p).tailDue = true ∧
      u = { s with out := u.out, plink := u.plink, free := u.free } := by
  have hexec : exec (.plinkFrameLaunch p) s = fin (launch p s) := if_neg (by rw [hruns, hlane, hlog, hgap]; decide)
  obtain ⟨time, e0, audio, g, htime, he0, haudio, hg, hlaunch⟩ := launch_eq htail
  have hview := mapView_mapped p s
  have hframe := frame_of_mapView hview
  have hport : unmapped ((mapped p s).pl p) = unmapped ((modPl p (fun q => { q with pendingMap := [] }) s).pl p) :=
    nth_of_map_eq (congrArg (fun x => x.plink.ports) hview :) p
  rw [pl_modPl_self _ (pl_lt hs p)] at hport
  have hqueue : ((mapped p s).pl p).queue = (s.pl p).queue := (congrArg PlPort.queue hport :)
  have hpending : ((mapped p s).pl p).pendingMap = [] := (congrArg PlPort.pendingMap hport :)
  have hlen : p.val < (mapped p s).plink.ports.length := by
    have h := congrArg (fun x => x.plink.ports.length) hview
    simp only [mapView, List.length_map] at h
    rw [h, modPl, length_updAt]
    exact pl_lt hs p
  rw [hqueue] at hg hlaunch
  rw [hlaunch] at hexec
  have hself : ((modPl p g (drawFree (mapped p s)).2).pl p) = g ((mapped p s).pl p) := pl_modPl_self _ hlen
  have hout : (mapped p s).out = s.out := (congrArg State.out hview :)
  refine ⟨_, time, e0, audio, hexec, ⟨congrArg (· ++ _) hout, ?_, ?_⟩, ?_, ?_, ?_, ?_⟩
  · exact length_frameBytes htime he0 (length_slice ..) (length_slice ..) haudio
  · simp only [takeCells, List.length_take]
    omega
  · exact (congrArg PlPort.queue hself).trans (hg _).1
  · exact (congrArg PlPort.pendingMap hself).trans ((hg _).2.1.trans hpending)
  · exact (congrArg PlPort.tailDue hself).trans (hg _).2.2
  · simp only [emit, modPl, drawFree]
    rw [hframe]
    rfl

/-! Alignment and cells. -/

theorem commaAlign_syncs {p : Fin 4} {s : State} (hruns : plinkRuns s = true) (hlane : laneUp s p = true) (hst : (s.pl p).st = 0) :
    ∃ u, exec (.commaAlign p) s = .next (msixScan 16 u) ∧
      sansEvents s u = modPl p (fun q => { q with st := 1, goodRun := 0, dMean := [], lastRx := none, rxFrame := none }) s := by
  refine ⟨_, if_neg (by simp only [hruns, hlane, hst]; decide), ?_⟩
  rw [plinkState, record_eq]
  simp only [modPl, updAt_updAt]
  rfl

theorem exec_commandCell (p : Fin 4) (c : CmdCell) (s : State) : exec (.commandCell p c) s = execCommandCell p c s := rfl

theorem commandCell_here {p : Fin 4} {c : CmdCell} {s : State} (hhears : hears s p = true) (hused : c.used = true)
    (hrooted : s.plink.rooted = true) (hdest : c.dest.toNat = s.plink.addr) :
    exec (.commandCell p c) s = if c.isReply then .next (msixScan 16 (remoteReply c.tenant c.bytes s))
      else .next (msixScan 16 (cellPacket c s)) := by
  rw [exec_commandCell]
  unfold execCommandCell
  dsimp only
  rw [if_neg (by rw [hhears, hused]; decide), if_pos (by rw [hrooted, decide_eq_true hdest]; rfl)]
  rfl

theorem commandCell_elsewhere {p : Fin 4} {c : CmdCell} {s : State} (hhears : hears s p = true) (hused : c.used = true)
    (hdest : ¬ (s.plink.rooted = true ∧ c.dest.toNat = s.plink.addr)) (hroute : (routePort s c.dest.toNat).isSome = true) :
    exec (.commandCell p c) s = .next (msixScan 16 (queueCell {
      isReply := c.isReply, dest := c.dest.toNat, origin := c.origin.toNat, tenant := c.tenant, bytes := c.bytes } s)) := by
  obtain ⟨r, hr⟩ := Option.isSome_iff_exists.1 hroute
  rw [exec_commandCell]
  unfold execCommandCell
  dsimp only
  rw [if_neg (by rw [hhears, hused]; decide), if_neg (by simpa using hdest)]
  simp only [hr]
  rfl

/-- Settles O36, event by event. -/
theorem linkEvents : Obligations.LinkEvents := by
  refine ⟨fun p s hruns hlane hst _ => commaAlign_syncs hruns hlane hst, fun p s hst hs => ⟨?_, ?_⟩,
    fun p f s hhears hs => ⟨fun ht => plinkFrame_bad hhears hs ht, fun t ht => plinkFrame_good hhears hs ht⟩,
    fun p s hruns hlane hlog hgap hs htail => plinkFrameLaunch_sends hruns hlane hlog hgap hs htail, fun p c s hused => ?_,
    fun p c s hhears hused => ⟨fun hrooted hdest => ⟨fun hreply => ?_, fun hreply => ?_⟩, fun hdest hroute =>
      commandCell_elsewhere hhears hused hdest hroute⟩⟩
  · obtain ⟨hdown, hrun, hother⟩ := portDown_port 3 (pl_lt hs p) hst
    exact ⟨_, if_neg hst, hdown, hrun, hother, (portDown_keeps 3 hst).2⟩
  · obtain ⟨hdown, hrun, hother⟩ := portDown_port 2 (pl_lt hs p) hst
    exact ⟨_, if_neg hst, hdown, hrun, hother, (portDown_keeps 2 hst).2⟩
  · rw [exec_commandCell]
    exact if_pos (by rw [hused, Bool.not_false, Bool.or_true])
  · rw [commandCell_here hhears hused hrooted hdest, if_pos hreply]
  · rw [commandCell_here hhears hused hrooted hdest, if_neg (by rw [hreply]; decide)]

end Sys2Proof.Machine
end

section
/-! The express cells of enumeration and fabric commit, and their limits of time (08). -/

namespace Sys2Proof.Machine

/-! ENUM. -/

/-- The node holds an address from its upstream port p, no port tried yet. -/
def addressed (p addr depth : Nat) (setSource : Bool) (epoch : Half) (limit : Nat) (s : State) : State :=
  { s with plink := { s.plink with
    rooted := true, addr, depth, epoch, fabric := none
    ports := s.plink.ports.mapIdx fun k q =>
      let q := { q with reattach := false }
      if k = p then { q with role := 1, first := 0xFFFF, last := 0xFFFF }
      else if q.role = 1 || q.role = 3 || q.st ≠ 2 then { q with role := 0, first := 0xFFFF, last := 0xFFFF }
      else q
    enumRun := some { port := 0, next := addr + 1, limit, setSource, isRoot := false, tenant := 0, blocked := 0, again := false } } }

theorem role_modPl_of {p q : Nat} {f : PlPort → PlPort} {s : State} (h : p ≠ q) (hq : (s.pl q).role = 1) : ((modPl p f s).pl q).role = 1 := by
  rw [pl_modPl_other _ _ h.symm]
  exact hq

theorem role_sendExpress {q : Nat} (p : Nat) (c : ExpressCell) {s : State} (hq : (s.pl q).role = 1) :
    ((sendExpress p c s).pl q).role = 1 := by
  have hmap : (sendExpress p c s).plink.ports.map PlPort.role = s.plink.ports.map PlPort.role := map_updAt _ _ _ _ fun _ => rfl
  have hrole : ((sendExpress p c s).pl q).role = (s.pl q).role := nth_of_map_eq hmap q
  rw [hrole, hq]

theorem role_blockPort {p q : Nat} (reason : Nat) {s : State} (hp : (s.pl p).role ≠ 1) (hq : (s.pl q).role = 1) :
    ((blockPort p reason s).pl q).role = 1 := by
  have hne : p ≠ q := fun h => hp (h ▸ hq)
  rw [blockPort, pl_record]
  exact role_modPl_of hne hq

/-- An enumeration tries no upstream port. -/
theorem role_enumGo {q : Nat} (k : Nat) {s : State} (hq : (s.pl q).role = 1) : ((enumGo k s).pl q).role = 1 := by
  induction k generalizing s with
  | zero => exact hq
  | succ k ih =>
    unfold enumGo
    split
    · exact hq
    next e he =>
      dsimp only
      have hskip : ∀ v : State, (v.pl q).role = 1 → ((({ v with plink := { v.plink with enumRun := v.plink.enumRun.map fun e =>
          { e with port := if e.again then 4 else e.port + 1 } } } : State).pl q).role = 1) := fun v hv => hv
      split
      · unfold enumFinish
        dsimp only
        have hsend : ∀ (l : List Nat) (n : Nat) (v : State), (v.pl q).role = 1 →
            ((l.foldl (fun s p => sendExpress p (.enumDone n s.plink.epoch) s) v).pl q).role = 1 := by
          intro l n
          induction l with
          | nil => exact fun v hv => hv
          | cons p l ihl => exact fun v hv => ihl _ (role_sendExpress _ _ hv)
        split
        · exact hq
        · split
          · rw [pl_record]
            have hnodes : (otherNodes e.next s).2.2.plink = s.plink := by
              unfold otherNodes
              split <;> rfl
            change ((otherNodes e.next s).2.2.pl q).role = 1
            rw [State.pl, hnodes]
            exact hq
          · apply hsend
            exact hq
      · split
        · exact ih (hskip _ hq)
        next hup =>
          have hport : (s.pl e.port).role ≠ 1 := by
            intro h
            simp [h] at hup
          split_ifs
          · exact ih (hskip _ (role_blockPort _ hport hq))
          · exact ih (hskip _ (role_blockPort _ hport hq))
          · exact role_sendExpress _ _ hq

/-- The address a node has taken. -/
structure AddressTaken (p addr depth : Nat) (epoch : Half) (u : State) : Prop where
  rooted : u.plink.rooted = true
  addr : u.plink.addr = addr
  depth : u.plink.depth = depth
  epoch : u.plink.epoch = epoch
  role : (u.pl p).role = 1

/-- The address taken, with its event and the source it may set. -/
def addressTold (p addr depth : Nat) (setSource : Bool) (epoch : Half) (limit : Nat) (s : State) : State :=
  let u := record 0x0404 engineTag [(2, nodeAddr s), (2, addr), (2, epoch.toNat)] (addressed p addr depth setSource epoch limit s)
  if setSource && u.last.src = 0 && !u.last.rcFallback then selectSource engineTag 0x20 0 u else u

theorem takeAddress_eq (p addr depth : Nat) (setSource : Bool) (epoch : Half) (limit : Nat) (s : State) :
    takeAddress p addr depth setSource epoch limit s = enumGo 6 (addressTold p addr depth setSource epoch limit s) := rfl

theorem plink_addressTold (p addr depth : Nat) (setSource : Bool) (epoch : Half) (limit : Nat) (s : State) :
    (addressTold p addr depth setSource epoch limit s).plink = (addressed p addr depth setSource epoch limit s).plink := by
  have hselect : ∀ w, (selectSource engineTag 0x20 0 w).plink = w.plink := fun w => by
    rw [selectSource, if_neg (by decide), plink_setServo]
    rfl
  unfold addressTold
  dsimp only
  split
  · rw [hselect, record_plink]
  · rw [record_plink]

theorem addressTaken_takeAddress {p : Nat} (addr depth : Nat) (setSource : Bool) (epoch : Half) (limit : Nat) {s : State}
    (hp : p < s.plink.ports.length) : AddressTaken p addr depth epoch (takeAddress p addr depth setSource epoch limit s) := by
  rw [takeAddress_eq]
  have hplink := plink_addressTold p addr depth setSource epoch limit s
  generalize addressTold p addr depth setSource epoch limit s = v at hplink
  have hrun := EnumOnly.enumGo 6 v
  have hrole : (v.pl p).role = 1 := by
    rw [State.pl, hplink, nth, List.getD_eq_getElem?_getD]
    simp [addressed, hp]
  exact ⟨hrun.rooted.trans (by rw [hplink]; rfl), hrun.addr.trans (by rw [hplink]; rfl), hrun.depth.trans (by rw [hplink]; rfl),
    hrun.epoch.trans (by rw [hplink]; rfl), role_enumGo 6 hrole⟩

theorem cellEnum_refused {p : Fin 4} {addr : BitVec 12} {depth : Byte} {src : Bool} {epoch : Half} {limit : BitVec 12} {s : State}
    (hhears : hears s p = true) (h : s.plink.root = true ∨ s.plink.rooted = true ∧ s.plink.epoch = epoch) :
    exec (.cellEnum p addr depth src epoch limit) s = .next (msixScan 16 (sendExpress p (.enumReject 1 epoch) s)) := by
  have hexec : exec (.cellEnum p addr depth src epoch limit) s = execCellEnum p addr depth src epoch limit s := rfl
  rw [hexec, execCellEnum, if_neg (by rw [hhears]; decide), if_pos (by simpa using h)]
  rfl

theorem cellEnum_taken {p : Fin 4} {addr : BitVec 12} {depth : Byte} {src : Bool} {epoch : Half} {limit : BitVec 12} {s : State}
    (hhears : hears s p = true) (hroot : s.plink.root = false) (h : ¬ (s.plink.rooted = true ∧ s.plink.epoch = epoch)) :
    exec (.cellEnum p addr depth src epoch limit) s =
      .next (msixScan 16 (takeAddress p addr.toNat depth.toNat src epoch limit.toNat s)) := by
  have hexec : exec (.cellEnum p addr depth src epoch limit) s = execCellEnum p addr depth src epoch limit s := rfl
  rw [hexec, execCellEnum, if_neg (by rw [hhears]; decide), if_neg (by simpa [hroot] using h)]
  rfl

/-! PREPARE, PREPARE_ACK, APPLY and ABORT. -/

theorem not_deaf {s : State} {p role : Nat} (hhears : hears s p = true) (hrole : (s.pl p).role = role) :
    ¬ ((!hears s p || decide ((s.pl p).role ≠ role)) = true) := by
  rw [hhears, decide_eq_false (not_not_intro hrole)]
  decide

/-- A node that has counted a PREPARE keeps what it judged, but that its counts are complete. -/
theorem settlePrepare_fabric {s : State} {f : FabricRun} (hf : s.plink.fabric = some f) :
    ∃ b, (settlePrepare s).plink.fabric = some { f with prepared := b } ∧ (settlePrepare s).plink.armed = s.plink.armed := by
  unfold settlePrepare
  simp only [hf]
  split
  · exact ⟨f.prepared, hf, rfl⟩
  · have hkept : ∀ (l : List Nat) (v : State), sansPorts (l.foldl (fun s p => sendExpress p (.prepareAck f.fid f.ready f.idle f.failed f.firstFailed) s) v) =
        sansPorts v := fun l v => foldl_keeps (f := fun s p => sendExpress p _ s) sansPorts (fun _ _ => rfl) l v
    exact ⟨true, (congrArg Plink.fabric (hkept ..) :), (congrArg Plink.armed (hkept ..) :)⟩

theorem cellPrepare_judges {p : Fin 4} {fid : Byte} {tenant : Fin 16} {group : Half} {s : State} (hhears : hears s p = true)
    (hrole : (s.pl p).role = 1) :
    ∃ u f, exec (.cellPrepare p fid tenant group) s = .next (msixScan 16 u) ∧ u.plink.fabric = some f ∧ f.fid = fid.toNat ∧
      f.by_ = 16 ∧ f.ready + f.idle + f.failed = 1 ∧ (judge tenant group.toNat s = 0 ↔ f.ready = 1) ∧
      (f.ready = 1 → u.plink.armed = some { fid := fid.toNat, tenant := tenant, group := group.toNat }) := by
  have hu := sansPorts_startPrepare fid.toNat tenant group.toNat 16 s
  have hfabric : (startPrepare fid.toNat tenant group.toNat 16 s).plink.fabric = _ := (congrArg Plink.fabric hu :)
  obtain ⟨b, hb, harmed⟩ := settlePrepare_fabric hfabric
  obtain ⟨hsum, hready⟩ := judgedRun_counts fid.toNat tenant group.toNat 16 s
  refine ⟨_, _, if_neg (not_deaf hhears hrole), hb, rfl, rfl, hsum, hready.symm, fun h => ?_⟩
  exact harmed.trans ((congrArg Plink.armed hu :).trans (if_pos (hready.1 h)))

theorem cellPrepareAck_counts {p : Fin 4} {fid : Byte} {a b c d : Half} {f : FabricRun} {s : State} (hhears : hears s p = true)
    (hrole : (s.pl p).role = 2) (hacked : (s.pl p).acked = false) (hf : s.plink.fabric = some f) (hfid : f.fid = fid.toNat)
    (hprepared : f.prepared = false) :
    exec (.cellPrepareAck p fid a b c d) s = .next (msixScan 16 (settleClass2 (settlePrepare
      (modPl p (fun q => { q with acked := true }) { s with plink := { s.plink with fabric := some { f with
        ready := f.ready + a.toNat, idle := f.idle + b.toNat, failed := f.failed + c.toNat
        firstFailed := min f.firstFailed d.toNat } } })))) := by
  have hexec : exec (.cellPrepareAck p fid a b c d) s = execCellPrepareAck p fid a b c d s := rfl
  rw [hexec]
  unfold execCellPrepareAck
  dsimp only
  rw [if_neg (by simp [hhears, hrole, hacked, hf, hfid, hprepared]), hf]
  rfl

theorem cellApply_armed {p : Fin 4} {fid : Byte} {time : Stamp} {a : Armed} {s : State} (hhears : hears s p = true)
    (hrole : (s.pl p).role = 1) (ha : armedWaiting s = some a) :
    ∃ v, v.plink.armed = some a ∧ exec (.cellApply p fid time) s =
      if a.fid = fid.toNat then
        if s.now + ofNs 20000 ≤ applyTime time then .next (msixScan 16 (commitArmed a time v))
        else .next (msixScan 16 (fabricMissed fid.toNat 1 v))
      else if s.plink.fabric.any fun f => f.fid = fid.toNat && (groupOf (s.tenant f.tenant) f.group).isSome
        then .next (msixScan 16 (fabricMissed fid.toNat 0 v)) else .next (msixScan 16 v) := by
  have hplink := sansPorts_broadcast (.apply fid.toNat time.sHi time.sLo time.ns) s
  have hwaiting := armedWaiting_broadcast (.apply fid.toNat time.sHi time.sLo time.ns) s
  have htenants : (broadcast (.apply fid.toNat time.sHi time.sLo time.ns) s).tenants = s.tenants :=
    foldl_keeps (f := fun s p => sendExpress p _ s) State.tenants (fun _ _ => rfl) _ _
  have hlast := last_broadcast (.apply fid.toNat time.sHi time.sLo time.ns) s
  have hexec : exec (.cellApply p fid time) s = execCellApply p fid time s := rfl
  rw [hexec]
  unfold execCellApply
  rw [if_neg (not_deaf hhears hrole)]
  dsimp only
  generalize broadcast (.apply fid.toNat time.sHi time.sLo time.ns) s = v at hplink hwaiting htenants hlast
  have hfabric : v.plink.fabric = s.plink.fabric := (congrArg Plink.fabric hplink :)
  have hnow : v.now = s.now := by rw [State.now, hlast, State.now]
  have htenant : ∀ t, v.tenant t = s.tenant t := fun t => by rw [State.tenant, htenants, State.tenant]
  refine ⟨v, (Option.filter_eq_some_iff.1 (hwaiting.trans ha)).1, ?_⟩
  simp only [hwaiting.trans ha, hfabric, hnow, htenant]
  rfl

theorem armed_fabricMissed (fid cause : Nat) (s : State) : (fabricMissed fid cause s).plink.armed = none := by
  rw [plink_fabricMissed]

theorem armTimeout_disarms {a : Armed} {s : State} (ha : armedWaiting s = some a) : ∃ u, exec .armTimeout s = .next (msixScan 16 u) ∧
    u.plink.armed = none ∧ sansEvents s u = { s with plink := u.plink, tenants := u.tenants } := by
  have hexec : exec .armTimeout s = execArmTimeout s := rfl
  unfold execArmTimeout at hexec
  simp only [ha] at hexec
  refine ⟨_, hexec, armed_fabricMissed .., ?_⟩
  rw [fabricMissed, sansEvents_record, record_plink, record_tenants]
  unfold disarm
  split <;> rfl

theorem remoteReplyTimeout_answers {t : Fin 16} {tag : Half} {x : Half × Half × Nat} {s : State}
    (h : (s.tenant t).remote.find? (fun x => x.2.1 = tag && x.2.2 = 0) = some x) :
    exec (.remoteReplyTimeout t tag) s = .next (msixScan 16 (post t false { status := .timeout, opcode := x.1, tag, done := nowNs s }
      (modTenant t (fun n => { n with remote := n.remote.map fun y => if y = x then (y.1, y.2.1, 2) else y }) s))) := by
  have hexec : exec (.remoteReplyTimeout t tag) s = execRemoteReplyTimeout t tag s := rfl
  rw [hexec]
  unfold execRemoteReplyTimeout
  simp only [h]
  rfl

theorem prepareTimeout_ends {f : FabricRun} {s : State} (hf : s.plink.fabric = some f) (hby : f.by_ ≠ 16) (hprepared : f.prepared = false) :
    exec .prepareTimeout s =
      .next (msixScan 16 (settleClass2 { s with plink := { s.plink with fabric := some { f with prepared := true } } })) := by
  have hexec : exec .prepareTimeout s = execPrepareTimeout s := rfl
  rw [hexec]
  unfold execPrepareTimeout
  rw [if_pos (by simp [hf, hby, hprepared]), hf]
  rfl

/-- Settles O37, cell by cell. -/
theorem fabricCells : Obligations.FabricCells := by
  refine ⟨fun p addr depth src epoch limit s hhears => ⟨fun h => cellEnum_refused hhears h, fun hroot h hs => ?_⟩,
    fun p next epoch s h => if_pos h, fun p reason epoch s h => if_pos h,
    fun p fid tenant group s hhears hrole => cellPrepare_judges hhears hrole,
    fun p fid a b c d f s hhears hrole hacked hf hfid hprepared => cellPrepareAck_counts hhears hrole hacked hf hfid hprepared,
    fun p fid time a s hhears hrole ha hfid => ⟨fun hin => ?_, fun hlate => ?_⟩,
    fun p fid time a f s hhears hrole ha hfid hf hffid hgroup => ?_, fun p fid a s hhears hrole ha hfid => ?_,
    fun f s hf hby hprepared => prepareTimeout_ends hf hby hprepared, fun a s ha => armTimeout_disarms ha,
    fun t tag x s h => remoteReplyTimeout_answers h⟩
  · obtain ⟨hrooted, haddr, hdepth, hepoch, hrole⟩ := addressTaken_takeAddress addr.toNat depth.toNat src epoch limit.toNat (pl_lt hs p)
    exact ⟨_, cellEnum_taken hhears hroot h, hrooted, haddr, hdepth, hepoch, hrole⟩
  · obtain ⟨v, -, hexec⟩ := cellApply_armed (fid := fid) (time := time) hhears hrole ha
    rw [if_pos hfid, if_pos hin] at hexec
    exact ⟨_, hexec, rfl⟩
  · obtain ⟨v, -, hexec⟩ := cellApply_armed (fid := fid) (time := time) hhears hrole ha
    rw [if_pos hfid, if_neg (not_le.2 hlate)] at hexec
    exact ⟨_, hexec, armed_fabricMissed ..⟩
  · obtain ⟨v, -, hexec⟩ := cellApply_armed (fid := fid) (time := time) hhears hrole ha
    rw [if_neg hfid, if_pos (by simp [hf, hffid, hgroup])] at hexec
    exact ⟨_, hexec, armed_fabricMissed ..⟩
  · exact ⟨_, if_neg (not_deaf hhears hrole), (abortArmed_disarms fid.toNat _).2 a ((armedWaiting_broadcast ..).trans ha) hfid⟩

end Sys2Proof.Machine
end

section
/-! Audio ports and media clock generators (09): their commands. -/

namespace Sys2Proof.Machine

/-! Ports and generators. -/

theorem shaped_audio {s : State} (h : shaped s = true) : s.audio.mcgs.length = 4 ∧ s.audio.ports.length = 8 := by
  simp only [shaped, Bool.and_eq_true, decide_eq_true_eq] at h
  simp only [h, and_self]

theorem aport_modAport_self {p : Nat} {s : State} (f : Aport → Aport) (h : p < s.audio.ports.length) :
    (modAport p f s).aport p = f (s.aport p) := nth_updAt_self _ _ _ h

theorem aport_modAport_other {p q : Nat} (f : Aport → Aport) (s : State) (h : q ≠ p) : (modAport p f s).aport q = s.aport q :=
  nth_updAt_other _ _ _ _ h.symm

theorem modAport_modAport (p : Nat) (f g : Aport → Aport) (s : State) :
    modAport p g (modAport p f s) = modAport p (fun q => g (f q)) s := by
  simp only [modAport, updAt_updAt]

theorem mcg_modMcg_self {m : Nat} {s : State} (f : Mcg → Mcg) (h : m < s.audio.mcgs.length) : (modMcg m f s).mcg m = f (s.mcg m) :=
  nth_updAt_self _ _ _ h

theorem mcg_modMcg_other {m k : Nat} (f : Mcg → Mcg) (s : State) (h : k ≠ m) : (modMcg m f s).mcg k = s.mcg k :=
  nth_updAt_other _ _ _ _ h.symm

theorem aport_record (c o : Nat) (d : List (Nat × Nat)) (s : State) (p : Nat) : (record c o d s).aport p = s.aport p := by
  rw [State.aport, record_audio]
  rfl

theorem mcg_record (c o : Nat) (d : List (Nat × Nat)) (s : State) (m : Nat) : (record c o d s).mcg m = s.mcg m := by
  rw [State.mcg, record_audio]
  rfl

/-! Commands. -/

theorem mcgConfig_configures {r : Req} {mcg mode family mult : Byte} {window : Half} {s : State}
    (hruns : runsAtOnce (.mcgConfig r mcg mode family mult window) s = true) (hs : shaped s = true) :
    ∃ u, Answers (.mcgConfig r mcg mode family mult window) s .ok [] u ∧
      u.mcg mcg.toNat = { mode := mode.toNat, family := family.toNat, mult := mult.toNat, window := window.toNat, began := s.now } ∧
      (∀ m, m ≠ mcg.toNat → u.mcg m = s.mcg m) ∧
      sansEvents s u = { s with audio := { s.audio with mcgs := u.audio.mcgs, grid := u.audio.grid } } := by
  have hunit := unit_lt_of_runs (m := mcgConfigM mcg mode family mult window) rfl rfl hruns (u := ⟨0x0A, mcg.toNat, 4⟩) (.head _)
  have hlt : mcg.toNat < s.audio.mcgs.length := by rw [(shaped_audio hs).1]; exact hunit
  refine ⟨_, runs_answers (m := mcgConfigM mcg mode family mult window) rfl hruns, ?_⟩
  simp only [mcgConfigM]
  split
  · rw [mcg_record]
    exact ⟨mcg_modMcg_self _ hlt, fun m hm => (mcg_record ..).trans (mcg_modMcg_other _ _ hm),
      by rw [sansEvents_record, record_audio]; rfl⟩
  · exact ⟨mcg_modMcg_self _ hlt, fun m hm => mcg_modMcg_other _ _ hm, rfl⟩

/-- The commands of a port reach a port that the engine has. -/
theorem aport_lt {i : Instr} {m : Meaning} {r : Req} {p : Byte} {s : State} (hr : reqOf i = some r) (hm : meaningOf i = some m)
    (hruns : runsAtOnce i s = true) (hs : shaped s = true) (hu : ⟨0x09, p.toNat, 8⟩ ∈ unitsOf i) : p.toNat < s.audio.ports.length := by
  rw [(shaped_audio hs).2]
  exact unit_lt_of_runs hr hm hruns hu

theorem aportStart_starts {r : Req} {p : Byte} {s : State} (hruns : runsAtOnce (.aportStart r p) s = true) (hs : shaped s = true) :
    ∃ u, Answers (.aportStart r p) s .ok [] u ∧ (u.aport p.toNat).startReq = true ∧ (u.aport p.toNat).stopReq = false ∧
      (u.aport p.toNat).cfg = (s.aport p.toNat).cfg ∧ (∀ q, q ≠ p.toNat → u.aport q = s.aport q) ∧ u = { s with audio := u.audio } := by
  have hlt := aport_lt (m := aportStartM p) rfl rfl hruns hs (.head _)
  refine ⟨_, runs_answers (m := aportStartM p) rfl hruns, ?_⟩
  simp only [aportStartM, aport_modAport_self _ hlt]
  exact ⟨trivial, trivial, trivial, fun q hq => aport_modAport_other _ _ hq, rfl⟩

theorem aportStop_stops {r : Req} {p : Byte} {s : State} (hruns : runsAtOnce (.aportStop r p) s = true) (hs : shaped s = true) :
    ∃ u, Answers (.aportStop r p) s .ok [] u ∧
      ((s.aport p.toNat).st = 0 → u.aport p.toNat = { s.aport p.toNat with startReq := false }) ∧
      ((s.aport p.toNat).st = 4 → (u.aport p.toNat).st = 0 ∧ (u.aport p.toNat).sdo = []) ∧
      ((s.aport p.toNat).st = 3 → u.aport p.toNat = s.aport p.toNat) ∧
      ((s.aport p.toNat).st = 2 → u.aport p.toNat = { s.aport p.toNat with stopReq := true }) ∧
      (∀ q, q ≠ p.toNat → u.aport q = s.aport q) ∧ u = { s with audio := u.audio } := by
  have hlt := aport_lt (m := aportStopM p) rfl rfl hruns hs (.head _)
  refine ⟨_, runs_answers (m := aportStopM p) rfl hruns, ?_⟩
  simp only [aportStopM, aport_modAport_self _ hlt]
  refine ⟨fun h => ?_, fun h => ?_, fun h => ?_, fun h => ?_, fun q hq => aport_modAport_other _ _ hq, rfl⟩
  · simp [requestStop, h]
  · simp [requestStop, h, portStopped]
  · simp [requestStop, h]
  · simp [requestStop, h]

theorem aportMask_masks {r : Req} {p : Byte} {tx rx : Word} {s : State} (hruns : runsAtOnce (.aportMask r p tx rx) s = true)
    (hs : shaped s = true) : ∃ u, Answers (.aportMask r p tx rx) s .ok [] u ∧
      ((s.aport p.toNat).st = 0 ∨ (s.aport p.toNat).st = 4 → u.aport p.toNat = { s.aport p.toNat with txMask := tx, rxMask := rx }) ∧
      ((s.aport p.toNat).st = 2 → u.aport p.toNat = { s.aport p.toNat with change := some (.mask tx rx false) }) ∧
      (∀ q, q ≠ p.toNat → u.aport q = s.aport q) ∧ u = { s with audio := u.audio } := by
  have hlt := aport_lt (m := aportMaskM p tx rx) rfl rfl hruns hs (.head _)
  refine ⟨_, runs_answers (m := aportMaskM p tx rx) rfl hruns, ?_⟩
  simp only [aportMaskM, aport_modAport_self _ hlt]
  refine ⟨fun h => ?_, fun h => ?_, fun q hq => aport_modAport_other _ _ hq, rfl⟩
  · rw [if_neg (by omega), if_pos (by simpa using h)]
  · rw [if_pos h]

theorem aportRate_rates {r : Req} {p mcg rate : Byte} {s : State} (hruns : runsAtOnce (.aportRate r p mcg rate) s = true)
    (hs : shaped s = true) : ∃ u, Answers (.aportRate r p mcg rate) s .ok [] u ∧
      ((s.aport p.toNat).st = 0 ∨ (s.aport p.toNat).st = 4 → (u.aport p.toNat).mcg = mcg.toNat ∧ (u.aport p.toNat).rate = rate.toNat ∧
        (u.aport p.toNat).family = (s.mcg mcg.toNat).family) ∧
      ((s.aport p.toNat).st = 2 → u.aport p.toNat =
        { s.aport p.toNat with change := some (.rate mcg.toNat rate.toNat (s.mcg mcg.toNat).family false) }) ∧
      (∀ q, q ≠ p.toNat → u.aport q = s.aport q) ∧ u = { s with audio := u.audio } := by
  have hlt := aport_lt (m := aportRateM r p mcg rate) rfl rfl hruns hs (.head _)
  refine ⟨_, runs_answers (m := aportRateM r p mcg rate) rfl hruns, ?_⟩
  simp only [aportRateM, aport_modAport_self _ hlt]
  refine ⟨fun h => ?_, fun h => ?_, fun q hq => aport_modAport_other _ _ hq, rfl⟩
  · rw [if_neg (by omega), if_pos (by simpa using h)]
    exact ⟨rfl, rfl, rfl⟩
  · rw [if_pos h]

/-- Settles O38, command by command. -/
theorem audioCommands : Obligations.AudioCommands :=
  ⟨fun _ _ _ _ _ _ _ hruns hs => mcgConfig_configures hruns hs, fun _ c _ hruns => runs_answers (m := aportConfigM c) rfl hruns,
    fun _ _ _ hruns hs => aportStart_starts hruns hs, fun _ _ _ hruns hs => aportStop_stops hruns hs,
    fun _ _ _ _ _ hruns hs => aportMask_masks hruns hs, fun _ _ _ _ _ hruns hs => aportRate_rates hruns hs⟩

end Sys2Proof.Machine
end

section
/-! The events of the audio ports and of a measuring MCG (09). -/

namespace Sys2Proof.Machine

/-! What touches one port only. -/

/-- From s to u nothing but port p changes, beside events. -/
def PortOnly (p : Nat) (s u : State) : Prop := sansEvents s u = modAport p (fun _ => u.aport p) s

theorem modAport_congr {p : Nat} {f g : Aport → Aport} {s : State} (h : f (s.aport p) = g (s.aport p)) : modAport p f s = modAport p g s := by
  rw [modAport, modAport, updAt_congr _ _ h]

theorem modAport_of_length_le {p : Nat} (f : Aport → Aport) {s : State} (h : s.audio.ports.length ≤ p) : modAport p f s = s := by
  rw [modAport, updAt, List.modify_eq_self h]

theorem modAport_aport (p : Nat) (s : State) : modAport p (fun _ => s.aport p) s = s := by
  rw [modAport, updAt_self _ _ rfl]

theorem modAport_value (p : Nat) (f : Aport → Aport) (s : State) : modAport p f s = modAport p (fun _ => (modAport p f s).aport p) s := by
  by_cases h : p < s.audio.ports.length
  · exact modAport_congr (aport_modAport_self f h).symm
  · rw [modAport_of_length_le f (not_lt.1 h), modAport_aport]

theorem PortOnly.refl (p : Nat) (s : State) : PortOnly p s s := (modAport_aport p s).symm

theorem portOnly_modAport (p : Nat) (f : Aport → Aport) (s : State) : PortOnly p s (modAport p f s) := modAport_value p f s

theorem portOnly_record (c o : Nat) (d : List (Nat × Nat)) (p : Nat) (s : State) : PortOnly p s (record c o d s) := by
  rw [PortOnly, sansEvents_record, aport_record, modAport_aport]
  rfl

theorem PortOnly.trans {p : Nat} {s u v : State} (h : PortOnly p s u) (h' : PortOnly p u v) : PortOnly p s v :=
  calc sansEvents s v = sansEvents s (sansEvents u v) := rfl
    _ = sansEvents s (modAport p (fun _ => v.aport p) u) := by rw [h']
    _ = modAport p (fun _ => v.aport p) (sansEvents s u) := rfl
    _ = modAport p (fun _ => v.aport p) s := by rw [h, modAport_modAport]

theorem PortOnly.length {p : Nat} {s u : State} (h : PortOnly p s u) : u.audio.ports.length = s.audio.ports.length :=
  (congrArg (fun x => x.audio.ports.length) h :).trans (length_updAt ..)

/-! FIFOs and slips. -/

/-- A port but for its FIFOs and what counts their slips. -/
def portOuter (q : Aport) : Aport := { q with inp := {}, outp := {}, underruns := 0, overruns := 0 }

/-- From s to u nothing changes but the FIFOs of port p with its slips, beside events. -/
structure FifoStep (p : Nat) (s u : State) : Prop where
  only : PortOnly p s u
  outer : portOuter (u.aport p) = portOuter (s.aport p)

theorem FifoStep.refl (p : Nat) (s : State) : FifoStep p s s := ⟨.refl p s, rfl⟩

theorem FifoStep.trans {p : Nat} {s u v : State} (h : FifoStep p s u) (h' : FifoStep p u v) : FifoStep p s v :=
  ⟨h.only.trans h'.only, h'.outer.trans h.outer⟩

theorem fifoStep_record (c o : Nat) (d : List (Nat × Nat)) (p : Nat) (s : State) : FifoStep p s (record c o d s) :=
  ⟨portOnly_record .., by rw [aport_record]⟩

theorem fifoStep_modAport (p : Nat) {f : Aport → Aport} (hf : ∀ q, portOuter (f q) = portOuter q) (s : State) :
    FifoStep p s (modAport p f s) := by
  refine ⟨portOnly_modAport .., ?_⟩
  by_cases h : p < s.audio.ports.length
  · rw [aport_modAport_self f h, hf]
  · rw [modAport_of_length_le f (not_lt.1 h)]

theorem portOuter_setDir (tx : Bool) (f : PortFifo → PortFifo) (q : Aport) : portOuter (setDir tx f q) = portOuter q := by
  cases tx <;> rfl

theorem fifoStep_slipUnder (p : Nat) (tx : Bool) (s : State) : FifoStep p s (slipUnder p tx s) := by
  refine (fifoStep_modAport p ?_ s).trans (fifoStep_record ..)
  exact fun q => portOuter_setDir tx _ _

theorem fifoStep_slipOver (p : Nat) (tx : Bool) (s : State) : FifoStep p s (slipOver p tx s) := by
  change FifoStep p s (if (dirOf tx (s.aport p)).overrun then s else _)
  split
  · exact .refl p s
  · refine (fifoStep_modAport p ?_ s).trans (fifoStep_record ..)
    exact fun q => portOuter_setDir tx _ _

theorem fifoStep_writeFifo (p : Nat) (tx : Bool) (depth : Nat) (frame : Word × List Word) (s : State) :
    FifoStep p s (writeFifo p tx depth frame s) := by
  unfold writeFifo
  dsimp only
  split
  · exact .refl p s
  · split
    · exact fifoStep_modAport p (fun _ => portOuter_setDir tx _ _) s
    · split
      · exact fifoStep_slipOver p tx s
      · exact fifoStep_modAport p (fun _ => portOuter_setDir tx _ _) s

theorem fifoStep_readFifo (p : Nat) (tx : Bool) (depth : Nat) (s : State) : FifoStep p s (readFifo p tx depth s).2 := by
  unfold readFifo
  dsimp only
  split
  · exact .refl p s
  · cases (dirOf tx (s.aport p)).frames with
    | nil => exact fifoStep_slipUnder p tx s
    | cons fr rest => exact fifoStep_modAport p (fun _ => portOuter_setDir tx _ _) s

theorem underruns_slipUnder {p : Nat} (tx : Bool) {s : State} (h : p < s.audio.ports.length) :
    ((slipUnder p tx s).aport p).underruns = (s.aport p).underruns + 1 := by
  rw [slipUnder, aport_record, aport_modAport_self _ h]
  cases tx <;> rfl

/-! Frames. -/

theorem length_sdoFrame (c : AportCfg) (mask : Word) (vals : List Word) : (sdoFrame c mask vals).length = c.frameBits.toNat := by
  simp [sdoFrame]

theorem nth_sdoFrame_eq_none (c : AportCfg) (mask : Word) (vals : List Word) {j : Nat} (hj : j < c.frameBits.toNat) :
    nth (sdoFrame c mask vals) j = none ↔ ∀ k i, slotAt c j = some (k, i) → mask.getLsbD k = false := by
  simp only [nth, sdoFrame, List.getD_eq_getElem?_getD, List.getElem?_map, List.getElem?_range hj, Option.map_some, Option.getD_some]
  cases slotAt c j with
  | none => simp
  | some x =>
    obtain ⟨k, i⟩ := x
    have hslot : (∀ k' i', some (k, i) = some (k', i') → mask.getLsbD k' = false) ↔ mask.getLsbD k = false :=
      ⟨fun h => h k i rfl, fun h _ _ heq => by cases heq; exact h⟩
    rw [hslot]
    cases hmask : mask.getLsbD k <;> simp [hmask]

/-- The state once the input FIFO has taken the frame that ends. -/
def frameTaken (p : Nat) (c : AportCfg) (s : State) : State :=
  (s.aport p).recv.elim s fun fr => writeFifo p false c.dIn.toNat fr s

/-- The state between the input side of a data frame and its output side. -/
def frameReceived (p : Nat) (c : AportCfg) (sdi : List Bool) (s : State) : State :=
  modAport p (fun q => { q with recv := some (q.rxMask, (maskSlots q.rxMask).map (wordIn c sdi)) })
    (frameTaken p c s)

theorem dataFrame_eq (p : Nat) (c : AportCfg) (sdi : List Bool) (s : State) : ∃ l : List (Word × Fade),
    dataFrame p c sdi s = modAport p (fun q => { q with
      frames := q.frames + 1, sdo := sdoFrame c q.txMask (l.map fun x => x.1), outp := { q.outp with fades := l.map fun x => x.2 } })
      (readFifo p true c.dOut.toNat (frameReceived p c sdi s)).2 := by
  unfold dataFrame frameReceived frameTaken
  dsimp only
  cases (s.aport p).recv <;> exact ⟨_, rfl⟩

theorem fifoStep_frameTaken (p : Nat) (c : AportCfg) (s : State) : FifoStep p s (frameTaken p c s) := by
  unfold frameTaken
  cases (s.aport p).recv with
  | none => exact .refl p s
  | some fr => exact fifoStep_writeFifo ..

/-- A data frame counts, is received under the present mask, drives the slots of its mask, and touches its port only. -/
theorem dataFrame_carries {p : Nat} (c : AportCfg) (sdi : List Bool) {s : State} (hlt : p < s.audio.ports.length) :
    PortOnly p s (dataFrame p c sdi s) ∧
    ((dataFrame p c sdi s).aport p).st = (s.aport p).st ∧ ((dataFrame p c sdi s).aport p).frames = (s.aport p).frames + 1 ∧
    ((dataFrame p c sdi s).aport p).recv = some ((s.aport p).rxMask, (maskSlots (s.aport p).rxMask).map (wordIn c sdi)) ∧
    ((dataFrame p c sdi s).aport p).frameB = (s.aport p).frameB ∧
    ∃ vals, ((dataFrame p c sdi s).aport p).sdo = sdoFrame c (s.aport p).txMask vals := by
  obtain ⟨l, hl⟩ := dataFrame_eq p c sdi s
  rw [hl]
  clear hl
  have hin := fifoStep_frameTaken p c s
  unfold frameReceived
  generalize frameTaken p c s = x at hin ⊢
  have hmid := portOnly_modAport p (fun q => { q with recv := some (q.rxMask, (maskSlots q.rxMask).map (wordIn c sdi)) }) x
  have hrec := aport_modAport_self (fun q => { q with recv := some (q.rxMask, (maskSlots q.rxMask).map (wordIn c sdi)) })
    (hin.only.length ▸ hlt)
  generalize modAport p (fun q => { q with recv := some (q.rxMask, (maskSlots q.rxMask).map (wordIn c sdi)) }) x = w at hmid hrec ⊢
  have hout := fifoStep_readFifo p true c.dOut.toNat w
  generalize (readFifo p true c.dOut.toNat w).2 = v at hout ⊢
  have hall := (hin.only.trans hmid).trans hout.only
  rw [aport_modAport_self _ (hall.length ▸ hlt)]
  have hkept : ∀ {α : Type} (μ : Aport → α), (∀ q, μ q = μ (portOuter q)) → (∀ q y, μ { q with recv := y } = μ q) →
      μ (v.aport p) = μ (s.aport p) := fun μ houter hrecv => by
    rw [houter, hout.outer, ← houter, hrec, hrecv, houter, hin.outer, ← houter]
  have hrecv : (v.aport p).recv = (w.aport p).recv := (congrArg Aport.recv hout.outer :)
  have hrx : (x.aport p).rxMask = (s.aport p).rxMask := (congrArg Aport.rxMask hin.outer :)
  refine ⟨hall.trans (portOnly_modAport ..), ?_⟩
  dsimp only
  rw [hkept Aport.st (fun _ => rfl) fun _ _ => rfl, hkept Aport.frames (fun _ => rfl) fun _ _ => rfl,
    hkept Aport.frameB (fun _ => rfl) fun _ _ => rfl, hkept Aport.txMask (fun _ => rfl) fun _ _ => rfl, hrecv, hrec]
  dsimp only
  rw [hrx]
  exact ⟨rfl, rfl, rfl, rfl, _, rfl⟩

theorem exec_portFrameStart {p : Fin 8} {c : AportCfg} {s : State} (sdi : List Bool) (hc : (s.aport p).cfg = some c)
    (hok : frameOk s p c = true) (hdue : frameDue s (s.aport p) = true) :
    ∃ b : Option Int, (onGrid s (s.aport p) = true → b = some (portBoundary s (s.aport p))) ∧
      ((openFrame c (s.aport p)).st = 1 → exec (.portFrameStart p sdi) s =
        fin (modAport p (silentFrame c) (modAport p (fun _ => { openFrame c (s.aport p) with frameB := b }) s))) ∧
      ((openFrame c (s.aport p)).st = 2 → exec (.portFrameStart p sdi) s =
        fin (dataFrame p c sdi (modAport p (fun _ => { openFrame c (s.aport p) with frameB := b }) s))) := by
  have hexec : exec (.portFrameStart p sdi) s = execPortFrameStart p sdi s := rfl
  unfold execPortFrameStart at hexec
  simp only [hc] at hexec
  rw [if_neg (by rw [hok, hdue]; decide)] at hexec
  refine ⟨if onGrid s (s.aport p) then some (portBoundary s (s.aport p)) else none, fun h => if_pos h, fun h => hexec.trans ?_,
    fun h => hexec.trans ?_⟩
  · split
    case h_1 => rfl
    case h_5 hne _ _ _ => exact absurd h hne
    all_goals omega
  · split
    case h_2 => rfl
    case h_5 _ hne _ _ => exact absurd h hne
    all_goals omega

theorem portFrameStart_prerolls {p : Fin 8} {c : AportCfg} {s : State} (sdi : List Bool) (hc : (s.aport p).cfg = some c)
    (hok : frameOk s p c = true) (hdue : frameDue s (s.aport p) = true) (hlt : p.val < s.audio.ports.length)
    (hst : (s.aport p).st = 0 ∨ (s.aport p).st = 4) (hstart : (s.aport p).startReq = true) (hstop : (s.aport p).stopReq = false) :
    ∃ u, exec (.portFrameStart p sdi) s = .next (msixScan 16 u) ∧ (u.aport p).st = 1 ∧ (u.aport p).frames = (s.aport p).frames + 1 ∧
      (u.aport p).left = prerollLen c - 1 ∧ (u.aport p).clocks = true ∧ u = modAport p (fun _ => u.aport p) s := by
  have hopen : openFrame c (s.aport p) = beginPreroll c (s.aport p) := if_pos (by simp [hst, hstart, hstop])
  obtain ⟨b, -, hpre, -⟩ := exec_portFrameStart sdi hc hok hdue
  refine ⟨_, hpre (by rw [hopen]; rfl), ?_⟩
  rw [modAport_modAport, hopen]
  refine ⟨?_, ?_, ?_, ?_, modAport_value ..⟩ <;> rw [aport_modAport_self _ hlt] <;> rfl

theorem portFrameStart_carries {p : Fin 8} {c : AportCfg} {s : State} (sdi : List Bool) (hc : (s.aport p).cfg = some c)
    (hok : frameOk s p c = true) (hdue : frameDue s (s.aport p) = true) (hlt : p.val < s.audio.ports.length)
    (hst : (s.aport p).st = 2) (hstop : (s.aport p).stopReq = false) (hchange : (s.aport p).change = none) :
    ∃ u, exec (.portFrameStart p sdi) s = .next (msixScan 16 u) ∧ (u.aport p).st = 2 ∧ (u.aport p).frames = (s.aport p).frames + 1 ∧
      (u.aport p).recv = some ((s.aport p).rxMask, (maskSlots (s.aport p).rxMask).map (wordIn c sdi)) ∧
      (u.aport p).sdo.length = c.frameBits.toNat ∧
      (∀ j, j < c.frameBits.toNat → (nth (u.aport p).sdo j = none ↔
        ∀ k i, slotAt c j = some (k, i) → (s.aport p).txMask.getLsbD k = false)) ∧
      (onGrid s (s.aport p) = true → (u.aport p).frameB = some (portBoundary s (s.aport p))) ∧
      sansEvents s u = modAport p (fun _ => u.aport p) s := by
  have hopen : openFrame c (s.aport p) = s.aport p := by
    simp only [openFrame, actAtFrame, actChange, hst, hstop, hchange]
    rfl
  obtain ⟨b, hb, -, hdata⟩ := exec_portFrameStart sdi hc hok hdue
  rw [hopen] at hdata
  have hval : (modAport p (fun _ => { s.aport p with frameB := b }) s).aport p = _ := aport_modAport_self _ hlt
  have hlen : p.val < (modAport p (fun _ => { s.aport p with frameB := b }) s).audio.ports.length := by
    rw [(portOnly_modAport ..).length]
    exact hlt
  obtain ⟨honly, hst', hframes, hrecv, hframeB, vals, hsdo⟩ := dataFrame_carries c sdi hlen
  rw [hval] at hst' hframes hrecv hframeB hsdo
  refine ⟨_, hdata hst, hst'.trans hst, hframes, hrecv, by rw [hsdo, length_sdoFrame], fun j hj => ?_,
    fun hgrid => hframeB.trans (hb hgrid), (portOnly_modAport ..).trans honly⟩
  rw [hsdo, nth_sdoFrame_eq_none _ _ _ hj]

theorem prerollEnd_runs {p : Fin 8} {s : State} (hst : (s.aport p).st = 1) (hleft : (s.aport p).left = 0) :
    exec (.prerollEnd p) s = .next (modAport p (fun q => { q with st := 2 }) s) :=
  if_pos (by simp [hst, hleft])

theorem postrollEnd_stops {p : Fin 8} {s : State} (hst : (s.aport p).st = 3) (hstop : (s.aport p).stopping = false)
    (hleft : (s.aport p).left = 0) : exec (.postrollEnd p) s = .next (modAport p portStopped s) :=
  if_pos (by simp [hst, hstop, hleft])

/-! Slave ports. -/

theorem goodRun_measureDrift (t : Time) (q : Aport) : (measureDrift t q).goodRun = q.goodRun := by
  unfold measureDrift
  cases q.meas with
  | none => rfl
  | some m => dsimp only; split <;> rfl

/-- The frame that brings the fourth good one gives lock. -/
theorem goodFrame_locks {t0 t : Time} {q : Aport} (hperiod : periodOk q t0 t = true) (hrun : 3 ≤ q.goodRun) :
    (goodFrame t0 t q).locked = true ∧ (goodFrame t0 t q).goodRun = 4 := by
  have hfour : min 4 (q.goodRun + 1) = 4 := by omega
  have hrun' := goodRun_measureDrift t { q with goodRun := min 4 (q.goodRun + 1) }
  dsimp only at hrun'
  unfold goodFrame
  rw [if_pos hperiod]
  dsimp only
  rw [if_pos (by rw [hrun', hfour])]
  exact ⟨rfl, hrun'.trans hfour⟩

/-- A frame error drops lock, and counts in both directions of a port whose FIFOs are in use. -/
theorem frameError_drops {p : Nat} (bits : Nat) {s : State} (hlt : p < s.audio.ports.length) :
    PortOnly p s (frameError p bits s) ∧ ((frameError p bits s).aport p).locked = false ∧ ((frameError p bits s).aport p).goodRun = 0 ∧
      (carries (s.aport p) = true → ((frameError p bits s).aport p).underruns = (s.aport p).underruns + 2) := by
  unfold frameError
  dsimp only
  have hdrop := portOnly_modAport p (fun q => { q with locked := false, goodRun := 0, meas := none, recv := none }) s
  have hval : (modAport p (fun q => { q with locked := false, goodRun := 0, meas := none, recv := none }) s).aport p = _ :=
    aport_modAport_self _ hlt
  have hlen := hdrop.length
  generalize modAport p (fun q => { q with locked := false, goodRun := 0, meas := none, recv := none }) s = v at hdrop hval hlen
  rw [aport_record]
  by_cases hcarry : carries (v.aport p) = true
  · rw [if_pos hcarry]
    have htx := fifoStep_slipUnder p true v
    have hrx := fifoStep_slipUnder p false (slipUnder p true v)
    have houter := hrx.outer.trans htx.outer
    refine ⟨((hdrop.trans htx.only).trans hrx.only).trans (portOnly_record ..), (congrArg Aport.locked houter :).trans (by rw [hval]; rfl),
      (congrArg Aport.goodRun houter :).trans (by rw [hval]; rfl), fun _ => ?_⟩
    rw [underruns_slipUnder _ (by rw [htx.only.length, hlen]; exact hlt), underruns_slipUnder _ (hlen ▸ hlt), hval]
    exact add_assoc _ 1 1
  · rw [if_neg hcarry]
    refine ⟨hdrop.trans (portOnly_record ..), by rw [hval], by rw [hval], fun h => absurd ?_ hcarry⟩
    rw [hval]
    exact h

/-- SLAVE_FRAME_SYNC of a slave port that runs, by what its frame was like. -/
theorem exec_slaveFrameSync {p : Fin 8} {tap : Fin 8} {c : AportCfg} {s : State} (bits : Nat) (hc : (s.aport p).cfg = some c)
    (hslave : slaveRuns (s.aport p) = true) (hup : domainUp s (8 + p) = true) :
    ((s.aport p).lastSync = none →
      exec (.slaveFrameSync p bits tap) s = .next (modAport p (fun q => { q with lastSync := edgeStamp s tap }) s)) ∧
    (∀ t0 t, (s.aport p).lastSync = some t0 → edgeStamp s tap = some t → bits = c.frameBits.toNat → exec (.slaveFrameSync p bits tap) s =
      fin (modAport p (fun q => { q with lastSync := edgeStamp s tap }) (modAport p (goodFrame t0 t) s))) ∧
    (∀ t0, (s.aport p).lastSync = some t0 → bits ≠ c.frameBits.toNat → exec (.slaveFrameSync p bits tap) s =
      fin (modAport p (fun q => { q with lastSync := edgeStamp s tap }) (frameError p bits s))) := by
  have hexec : exec (.slaveFrameSync p bits tap) s = execSlaveFrameSync p bits tap s := rfl
  unfold execSlaveFrameSync at hexec
  simp only [hc] at hexec
  rw [if_neg (by rw [hslave, hup]; decide)] at hexec
  refine ⟨fun hlast => ?_, fun t0 t hlast hstamp hbits => ?_, fun t0 hlast hbits => ?_⟩
  · simp only [hlast] at hexec
    exact hexec
  · simp only [hlast, hstamp, if_pos hbits] at hexec
    rw [hexec, hstamp]
  · simp only [hlast, if_neg hbits] at hexec
    cases hstamp : edgeStamp s tap <;> simpa only [hstamp] using hexec

theorem slaveFrameSync_locks {p : Fin 8} {tap : Fin 8} {c : AportCfg} {bits : Nat} {t0 t : Time} {s : State} (hc : (s.aport p).cfg = some c)
    (hslave : slaveRuns (s.aport p) = true) (hup : domainUp s (8 + p) = true) (hlt : p.val < s.audio.ports.length)
    (hlast : (s.aport p).lastSync = some t0) (hstamp : edgeStamp s tap = some t) (hbits : bits = c.frameBits.toNat)
    (hperiod : periodOk (s.aport p) t0 t = true) (hrun : 3 ≤ (s.aport p).goodRun) :
    ∃ u, exec (.slaveFrameSync p bits tap) s = .next (msixScan 16 u) ∧ (u.aport p).locked = true ∧ (u.aport p).goodRun = 4 ∧
      (u.aport p).lastSync = some t ∧ u = modAport p (fun _ => u.aport p) s := by
  obtain ⟨hlocked, hgood⟩ := goodFrame_locks hperiod hrun
  refine ⟨_, (exec_slaveFrameSync bits hc hslave hup).2.1 t0 t hlast hstamp hbits, ?_⟩
  rw [modAport_modAport, aport_modAport_self _ hlt]
  exact ⟨hlocked, hgood, hstamp, modAport_congr rfl⟩

theorem slaveFrameSync_drops {p : Fin 8} {tap : Fin 8} {c : AportCfg} {bits : Nat} {t0 : Time} {s : State} (hc : (s.aport p).cfg = some c)
    (hslave : slaveRuns (s.aport p) = true) (hup : domainUp s (8 + p) = true) (hlt : p.val < s.audio.ports.length)
    (hlast : (s.aport p).lastSync = some t0) (hbits : bits ≠ c.frameBits.toNat) :
    ∃ u, exec (.slaveFrameSync p bits tap) s = .next (msixScan 16 u) ∧ (u.aport p).locked = false ∧ (u.aport p).goodRun = 0 ∧
      sansEvents s u = modAport p (fun _ => u.aport p) s ∧
      (carries (s.aport p) = true → (u.aport p).underruns = (s.aport p).underruns + 2) := by
  obtain ⟨honly, hlocked, hgood, hunder⟩ := frameError_drops bits hlt
  refine ⟨_, (exec_slaveFrameSync bits hc hslave hup).2.2 t0 hlast hbits, ?_⟩
  have hval : (modAport p (fun q => { q with lastSync := edgeStamp s tap }) (frameError p bits s)).aport p = _ :=
    aport_modAport_self _ (by rw [honly.length]; exact hlt)
  exact ⟨(congrArg Aport.locked hval).trans hlocked, (congrArg Aport.goodRun hval).trans hgood, honly.trans (portOnly_modAport p _ _),
    fun hcarry => (congrArg Aport.underruns hval).trans (hunder hcarry)⟩

theorem slaveFrameTimeout_drops {p : Fin 8} {c : AportCfg} {s : State} (hc : (s.aport p).cfg = some c)
    (hslave : slaveRuns (s.aport p) = true) (hup : domainUp s (8 + p) = true) (hlt : p.val < s.audio.ports.length) :
    ∃ u, exec (.slaveFrameTimeout p) s = .next (msixScan 16 u) ∧ (u.aport p).locked = false ∧ (u.aport p).lastSync = none ∧
      sansEvents s u = modAport p (fun _ => u.aport p) s := by
  have hexec : exec (.slaveFrameTimeout p) s = execSlaveFrameTimeout p s := rfl
  unfold execSlaveFrameTimeout at hexec
  simp only [hc] at hexec
  rw [if_pos (by rw [hslave, hup]; rfl)] at hexec
  obtain ⟨honly, hlocked, -⟩ := frameError_drops (2 * c.frameBits.toNat) hlt
  refine ⟨_, hexec, ?_⟩
  have hval : (modAport p (fun q => { q with lastSync := none }) (frameError p (2 * c.frameBits.toNat) s)).aport p = _ :=
    aport_modAport_self _ (by rw [honly.length]; exact hlt)
  exact ⟨(congrArg Aport.locked hval).trans hlocked, congrArg Aport.lastSync hval, honly.trans (portOnly_modAport p _ _)⟩

/-! Fades, changes of rate, and windows. -/

theorem fadeComplete_postrolls {p : Fin 8} (tx : Bool) {c : AportCfg} {s : State} (hc : (s.aport p).cfg = some c) (hst : (s.aport p).st = 3)
    (hstop : (s.aport p).stopping = true) (hchange : (s.aport p).change = none) (hin : (s.aport p).inp.overrun = false)
    (hout : (s.aport p).outp.overrun = false) (hinp : fadesEnded (s.aport p).inp = true) (houtp : fadesEnded (s.aport p).outp = true)
    (hentering : s.pwr.entering = .none) :
    exec (.fadeComplete p tx) s =
      .next (msixScan 16 (modAport p (fun q => { q with stopping := false, left := postrollLen c, inp := emptyFifo, recv := none }) s)) := by
  have hmask : applyMask p tx s = s := by
    simp only [applyMask, hchange]
  have hover : endOverrun p tx s = s := by
    unfold endOverrun
    simp only [hc]
    refine if_neg ?_
    cases tx <;> simp [hin, hout]
  have hpost : startPostroll p s = modAport p (fun q => { q with stopping := false, left := postrollLen c, inp := emptyFifo, recv := none }) s := by
    unfold startPostroll
    simp only [hc]
    exact if_pos (by simp [hst, hstop, portFaded, hinp, houtp])
  have hover' : fadesOver (modAport p (fun q => { q with stopping := false, left := postrollLen c, inp := emptyFifo, recv := none }) s) =
      modAport p (fun q => { q with stopping := false, left := postrollLen c, inp := emptyFifo, recv := none }) s := by
    have hkeep : (modAport p (fun q => { q with stopping := false, left := postrollLen c, inp := emptyFifo, recv := none }) s).pwr.entering
        = .none := hentering
    unfold fadesOver
    split
    · rfl
    · rw [hkeep]
  have hexec : exec (.fadeComplete p tx) s = fin (fadesOver (startPostroll p (endOverrun p tx (applyMask p tx s)))) := rfl
  rw [hexec, hmask, hover, hpost, hover']
  rfl

/-- The port after APORT_RATE_SWITCH. -/
def rateSwitched (c : AportCfg) (m r fam : Nat) (q : Aport) : Aport :=
  let q := { q with mcg := m, rate := r, family := fam, change := none, outp := emptyFifo, recv := none, frameB := none }
  if isMaster c then beginPreroll c q
  else { q with st := 4, startReq := true, inp := emptyFifo, locked := false, goodRun := 0, meas := none }

theorem rateSwitched_takes (c : AportCfg) (m r fam : Nat) (q : Aport) :
    (rateSwitched c m r fam q).mcg = m ∧ (rateSwitched c m r fam q).rate = r ∧ (rateSwitched c m r fam q).family = fam ∧
      (rateSwitched c m r fam q).change = none ∧ (rateSwitched c m r fam q).st = (if isMaster c then 1 else 4) ∧
      (rateSwitched c m r fam q).outp = emptyFifo ∧ (rateSwitched c m r fam q).inp = emptyFifo := by
  unfold rateSwitched
  dsimp only
  split <;> exact ⟨rfl, rfl, rfl, rfl, rfl, rfl, rfl⟩

theorem aportRateSwitch_switches {p : Fin 8} {c : AportCfg} {m r fam : Nat} {s : State} (hc : (s.aport p).cfg = some c)
    (hchange : (s.aport p).change = some (.rate m r fam true)) (houtp : fadesEnded (s.aport p).outp = true)
    (hinp : fadesEnded (s.aport p).inp = true)
    (hcommon : commonBoundary (portFs (s.aport p)) (fsOf fam r) (boundaryUpTo s (portFs (s.aport p)) s.now) = true)
    (hlt : p.val < s.audio.ports.length) :
    ∃ u, exec (.aportRateSwitch p) s = .next (msixScan 16 u) ∧ (u.aport p).mcg = m ∧ (u.aport p).rate = r ∧ (u.aport p).family = fam ∧
      (u.aport p).change = none ∧ (u.aport p).st = (if isMaster c then 1 else 4) ∧ (u.aport p).outp = emptyFifo ∧
      (u.aport p).inp = emptyFifo ∧ sansEvents s u = modAport p (fun _ => u.aport p) s := by
  have hexec : exec (.aportRateSwitch p) s = execAportRateSwitch p s := rfl
  unfold execAportRateSwitch at hexec
  simp only [hc, hchange] at hexec
  rw [if_pos (by rw [hcommon]; simp [portFaded, houtp, hinp])] at hexec
  obtain ⟨hm, hr, hfam, hch, hst, ho, hi⟩ := rateSwitched_takes c m r fam (s.aport p)
  have hall : ∀ o d, (modAport p (rateSwitched c m r fam) (record 0x0504 o d s)).aport p = rateSwitched c m r fam (s.aport p) := by
    intro o d
    rw [aport_modAport_self _ (by rw [record_audio]; exact hlt), aport_record]
  refine ⟨modAport p (rateSwitched c m r fam) _, hexec, ?_⟩
  have honly := fun o d => (portOnly_record 0x0504 o d p s).trans (portOnly_modAport p (rateSwitched c m r fam) _)
  refine ⟨?_, ?_, ?_, ?_, ?_, ?_, ?_, honly _ _⟩ <;> rw [hall] <;> assumption

theorem mcgWindowEnd_measures {m : Fin 4} {first last : Int} (edges : Nat) {s : State} (hmode : (s.mcg m).mode = 2)
    (hup : domainUp s (4 + m) = true) (htime : timeUnitUp s fenceMcg = true) (hend : windowEnd (s.mcg m) ≤ s.now)
    (hfirst : (s.mcg m).began ≤ ofQuarter first) (hspan : first < last) (hlast : ofQuarter last ≤ windowEnd (s.mcg m)) :
    exec (.mcgWindowEnd m edges { first, last }) s = .next (modMcg m (fun g => { g with
      clockOk := true, began := windowEnd g, phase := phaseOf s (fsOf g.family 0) (ofQuarter last)
      ppb := freqPpb (fsOf g.family 0) (ofQuarter first) (ofQuarter last) edges }) s) := by
  have hquarters : ofQuarter first < ofQuarter last := by
    unfold ofQuarter
    exact Int.mul_lt_mul_of_pos_right hspan (by decide)
  have hexec : exec (.mcgWindowEnd m edges { first, last }) s = execMcgWindowEnd m edges { first, last } s := rfl
  rw [hexec]
  unfold execMcgWindowEnd
  dsimp only
  rw [if_pos (by simp [hmode, hup, htime, hend, hfirst, hquarters, hlast])]
  rw [modMcg, modMcg, updAt_congr]
  rfl

/-- Settles O39, event by event. -/
theorem audioEvents : Obligations.AudioEvents := by
  have hlt : ∀ (p : Fin 8) (s : State), shaped s = true → p.val < s.audio.ports.length := fun p s hs => by
    rw [(shaped_audio hs).2]
    exact p.isLt
  exact ⟨fun p sdi c s hc hok hdue hs => ⟨portFrameStart_prerolls sdi hc hok hdue (hlt p s hs),
      portFrameStart_carries sdi hc hok hdue (hlt p s hs)⟩,
    fun p s hst hleft => prerollEnd_runs hst hleft, fun p s hst hstop hleft => postrollEnd_stops hst hstop hleft,
    fun p bits tap c t0 s hc hslave hup hs => ⟨(exec_slaveFrameSync bits hc hslave hup).1,
      fun t hlast hstamp hbits hperiod hrun =>
        slaveFrameSync_locks hc hslave hup (hlt p s hs) hlast hstamp hbits hperiod hrun,
      fun hlast hbits => slaveFrameSync_drops hc hslave hup (hlt p s hs) hlast hbits,
      slaveFrameTimeout_drops hc hslave hup (hlt p s hs)⟩,
    fun p tx c s hc hst hstop hchange hin hout hinp houtp hentering =>
      fadeComplete_postrolls tx hc hst hstop hchange hin hout hinp houtp hentering,
    fun p c m r fam s hc hchange houtp hinp hcommon hs => aportRateSwitch_switches hc hchange houtp hinp hcommon (hlt p s hs),
    fun m first last edges s hmode hup htime hend hfirst hspan hlast =>
      mcgWindowEnd_measures edges hmode hup htime hend hfirst hspan hlast⟩

end Sys2Proof.Machine
end

section
/-! The commands of the Mirror, scenes, and the sample boundaries of Prism (10). -/

namespace Sys2Proof.Machine

/-! What a sample boundary of Prism leaves (R271). -/

/-- A state without what carries audio: ports, streams, Prieth, Prism, cores, and without its recorded events. -/
def sansAudio (s : State) : State :=
  sansEvents State.reset { s with audio := State.reset.audio, plink := State.reset.plink, prism := State.reset.prism, lens := [], eth := { s.eth with talkers := [], listeners := [] } }

theorem sansAudio_record (c o : Nat) (d : List (Nat × Nat)) (s : State) : sansAudio (record c o d s) = sansAudio s := by
  rw [record_eq]
  rfl

theorem sansAudio_modPrism (f : Prism → Prism) (s : State) : sansAudio (modPrism f s) = sansAudio s := rfl

theorem sansAudio_modPl (p : Nat) (f : PlPort → PlPort) (s : State) : sansAudio (modPl p f s) = sansAudio s := rfl

theorem sansAudio_modAport (p : Nat) (f : Aport → Aport) (s : State) : sansAudio (modAport p f s) = sansAudio s := rfl

theorem sansAudio_modLens (n : Nat) (f : LensCore → LensCore) (s : State) : sansAudio (modLens n f s) = sansAudio s := rfl

theorem sansAudio_modBus (b : Nat) (f : Bus → Bus) (s : State) : sansAudio (modBus b f s) = sansAudio s := rfl

theorem sansAudio_modStream (talker : Bool) (k : Nat) (f : Stream → Stream) (s : State) : sansAudio (modStream talker k f s) = sansAudio s := by
  cases talker <;> rfl

theorem PortOnly.sansAudio {p : Nat} {s u : State} (h : PortOnly p s u) : sansAudio u = sansAudio s :=
  (congrArg Machine.sansAudio h :)

theorem sansAudio_giveOutput (p : Nat) (frame : List Word) (s : State) : sansAudio (giveOutput p frame s) = sansAudio s := by
  unfold giveOutput
  cases (s.aport p).cfg with
  | none => rfl
  | some c => exact (fifoStep_writeFifo ..).only.sansAudio

theorem sansAudio_takeInput (p : Nat) (s : State) : sansAudio (takeInput p s).2 = sansAudio s := by
  unfold takeInput
  dsimp only
  cases (s.aport p).cfg with
  | none => rfl
  | some c =>
    dsimp only
    split
    · rfl
    · exact (sansAudio_modAport ..).trans (fifoStep_readFifo ..).only.sansAudio

theorem sansAudio_gatherPorts (n fs : Nat) (s : State) : sansAudio (gatherPorts n fs s).2 = sansAudio s := by
  induction n with
  | zero => rfl
  | succ p ih =>
    unfold gatherPorts
    dsimp only
    split
    · exact (sansAudio_takeInput ..).trans ih
    · exact ih

theorem sansAudio_listenerAt (fs : Nat) (b : Int) (acc : List (Nat × Int) × State) (k : Nat) :
    sansAudio (listenerAt fs b acc k).2 = sansAudio acc.2 := by
  unfold listenerAt
  dsimp only
  split
  · split
    · rfl
    · refine (foldl_keeps (fun a => sansAudio a.2) (f := listenerChannel _ _) (fun a i => ?_) _ _).trans ?_
      · exact sansAudio_modPrism ..
      · exact sansAudio_modStream ..
  · rfl

theorem sansAudio_linkSlot (p : Nat) (b : Int) (acc : List (Nat × Int) × State) (slot : Nat) :
    sansAudio (linkSlot p b acc slot).2 = sansAudio acc.2 := by
  unfold linkSlot
  dsimp only
  refine (foldl_keeps (fun a => sansAudio a.2) (f := feedLink p b _) (fun a m => ?_) _ _).trans ?_
  · cases m <;> rfl
  · exact sansAudio_modPl ..

theorem sansAudio_linkAt (fs : Nat) (b : Int) (acc : List (Nat × Int) × State) (p : Nat) :
    sansAudio (linkAt fs b acc p).2 = sansAudio acc.2 := by
  unfold linkAt
  split
  · exact foldl_keeps (fun a => sansAudio a.2) (f := linkSlot p b) (fun a m => sansAudio_linkSlot ..) _ _
  · rfl

theorem sansAudio_forwardLinks (fs : Nat) (b : Int) (s : State) : sansAudio (forwardLinks fs b s) = sansAudio s := by
  unfold forwardLinks
  split
  · rw [foldl_keeps (fun a => sansAudio a.2) (f := linkAt fs b) fun a m => sansAudio_linkAt ..]
  · rfl

theorem sansAudio_slotOutput (n k : Nat) (t : Int) (s : State) : sansAudio (slotOutput n k t s).2 = sansAudio s := by
  unfold slotOutput
  dsimp only
  split
  · rfl
  · exact sansAudio_modLens ..

theorem sansAudio_lensSlotAt (n : Nat) (b : Int) (acc : List (Nat × Int) × State) (k : Nat) :
    sansAudio (lensSlotAt n b acc k).2 = sansAudio acc.2 := by
  unfold lensSlotAt
  split
  · split
    · exact sansAudio_slotOutput ..
    · rfl
  · rfl

theorem sansAudio_lensAt (fs : Nat) (b : Int) (acc : List (Nat × Int) × State) (n : Nat) :
    sansAudio (lensAt fs b acc n).2 = sansAudio acc.2 := by
  unfold lensAt
  split
  · exact foldl_keeps (fun a => sansAudio a.2) (f := lensSlotAt n b) (fun a m => sansAudio_lensSlotAt ..) _ _
  · rfl

theorem sansAudio_gather (fs : Nat) (b : Int) (s : State) : sansAudio (gather fs b s).2 = sansAudio s := by
  unfold gather
  dsimp only
  rw [foldl_keeps (fun a => sansAudio a.2) (f := lensAt fs b) fun a m => sansAudio_lensAt ..,
    foldl_keeps (fun a => sansAudio a.2) (f := linkAt fs b) fun a m => sansAudio_linkAt ..,
    foldl_keeps (fun a => sansAudio a.2) (f := listenerAt fs b) fun a m => sansAudio_listenerAt .., sansAudio_gatherPorts]

theorem sansAudio_filterStage (fs : Nat) (acc : List (Nat × Int) × State) (x : Nat × Int) :
    sansAudio (filterStage fs acc x).2 = sansAudio acc.2 := by
  unfold filterStage
  split
  · rfl
  · exact sansAudio_modPrism ..

theorem sansAudio_xpStage (fs : Nat) (vals : List (Nat × Int)) (acc : List (Nat × Int) × List Xp × List Nat × State) (x : Xp) :
    sansAudio (xpStage fs vals acc x).2.2.2 = sansAudio acc.2.2.2 := by
  obtain ⟨sums, keep, freed, s⟩ := acc
  unfold xpStage
  dsimp only
  split
  · rfl
  · split
    · dsimp only
      split
      · rfl
      · exact sansAudio_record ..
    · split <;> rfl

theorem sansAudio_routeStage (fs : Nat) (vals : List (Nat × Int)) (acc : (List SinkForm × List (Nat × Int)) × List Route × List Nat × State)
    (x : Route) : sansAudio (routeStage fs vals acc x).2.2.2 = sansAudio acc.2.2.2 := by
  obtain ⟨outs, keep, freed, s⟩ := acc
  unfold routeStage
  dsimp only
  split
  · rfl
  · cases x.source
    all_goals
      dsimp only
      split
      · dsimp only
        split
        · rfl
        · exact sansAudio_record ..
      · split <;> rfl

theorem sansAudio_tellFreed (freed : List Nat) (s : State) : sansAudio (tellFreed freed s) = sansAudio s :=
  foldl_keeps sansAudio (fun _ _ => sansAudio_record ..) _ _

theorem sansAudio_routeAll (fs : Nat) (vals : List (Nat × Int)) (s : State) : sansAudio (routeAll fs vals s).2 = sansAudio s := by
  unfold routeAll
  dsimp only
  rw [sansAudio_tellFreed, sansAudio_modPrism,
    foldl_keeps (fun a => sansAudio a.2.2.2) (f := routeStage fs vals) fun a x => sansAudio_routeStage ..,
    foldl_keeps (fun a => sansAudio a.2.2.2) (f := xpStage fs vals) fun a x => sansAudio_xpStage ..]

theorem sansAudio_setRange (b r : Nat) (s : State) : sansAudio (setRange b r s) = sansAudio s := by
  unfold setRange
  dsimp only
  split
  · rfl
  · exact (sansAudio_record ..).trans (sansAudio_modBus ..)

theorem sansAudio_busStage (sums : List (Nat × Int)) (s : State) (b : Nat) : sansAudio (busStage sums s b) = sansAudio s := by
  unfold busStage
  dsimp only
  split
  · exact sansAudio_modBus ..
  · split
    · exact (sansAudio_setRange ..).trans (sansAudio_modBus ..)
    · exact (sansAudio_modBus ..).trans (sansAudio_modBus ..)

theorem sansAudio_sinkStage (acc : List (Nat × Word) × State) (x : Nat × Int) : sansAudio (sinkStage acc x).2 = sansAudio acc.2 := by
  unfold sinkStage
  dsimp only
  split
  · rfl
  · exact sansAudio_record ..

theorem sansAudio_mixStage (fs pipe : Nat) (s : State) : sansAudio (mixStage fs pipe s) = sansAudio s := by
  unfold mixStage
  split
  · next e f l heq =>
    dsimp only
    rw [sansAudio_modPrism, foldl_keeps (fun a => sansAudio a.2) (f := sinkStage) sansAudio_sinkStage,
      foldl_keeps sansAudio (f := busStage e.2) fun v b => sansAudio_busStage ..]
  · rfl

theorem sansAudio_fadeSink (acc : List (Nat × Word) × State) (x : Nat × Word) : sansAudio (fadeSink acc x).2 = sansAudio acc.2 := by
  unfold fadeSink
  split <;> rfl

theorem sansAudio_deliverTalker (fs : Nat) (b : Int) (l : List (Nat × Word)) (s : State) (k : Nat) :
    sansAudio (deliverTalker fs b l s k) = sansAudio s := by
  unfold deliverTalker
  dsimp only
  split
  · split
    · exact sansAudio_modStream ..
    · rfl
  · rfl

theorem sansAudio_deliverAll (fs : Nat) (b : Int) (l : List (Nat × Word)) (s : State) : sansAudio (deliverAll fs b l s) = sansAudio s := by
  unfold deliverAll
  dsimp only
  rw [foldl_keeps sansAudio (f := deliverLens fs l) fun v n => ?_, foldl_keeps sansAudio (f := deliverLink fs b l) fun v p => ?_,
    foldl_keeps sansAudio (f := deliverTalker fs b l) fun v k => sansAudio_deliverTalker .., foldl_keeps sansAudio (f := deliverPort fs l) fun v p => ?_]
  · unfold deliverPort
    split
    · exact sansAudio_giveOutput ..
    · rfl
  · unfold deliverLink
    split
    · rfl
    · exact sansAudio_modPl ..
  · unfold deliverLens
    split
    · rfl
    · exact sansAudio_modLens ..

/-- A sample boundary of Prism touches only what carries audio. -/
theorem sansAudio_prismBoundary (fs pipe : Nat) (s : State) : sansAudio (prismBoundary fs pipe s) = sansAudio s := by
  unfold prismBoundary
  dsimp only
  split
  · rw [sansAudio_deliverAll, sansAudio_modPrism, sansAudio_forwardLinks, sansAudio_gatherPorts]
  · rw [sansAudio_modPrism, sansAudio_routeAll,
      foldl_keeps (fun a => sansAudio a.2) (f := filterStage fs) (sansAudio_filterStage fs), sansAudio_gather, sansAudio_mixStage,
      sansAudio_deliverAll, foldl_keeps sansAudio (f := deliverBus) (fun v b => sansAudio_modBus ..),
      foldl_keeps (fun a => sansAudio a.2) (f := fadeSink) sansAudio_fadeSink]

theorem prismSample_keeps {family : Bool} {rate : Fin 3} {s : State} (hruns : prismRuns s = true) :
    ∃ u, exec (.prismSample family rate) s = .next (msixScan 16 u) ∧ u.last = s.last ∧ u.tenants = s.tenants ∧ u.owners = s.owners ∧
      u.store = s.store ∧ u.pwr = s.pwr ∧ u.eth.ports = s.eth.ports ∧ u.trig = s.trig := by
  have h := sansAudio_prismBoundary (fsOf (bit family) rate.val) (3 * bit family + rate.val) s
  refine ⟨_, if_pos hruns, ?_⟩
  generalize prismBoundary (fsOf (bit family) rate.val) (3 * bit family + rate.val) s = u at h
  exact ⟨(congrArg (fun x => x.last) h :), (congrArg (fun x => x.tenants) h :), (congrArg (fun x => x.owners) h :),
    (congrArg (fun x => x.store) h :), (congrArg (fun x => x.pwr) h :), (congrArg (fun x => x.eth.ports) h :),
    (congrArg (fun x => x.trig) h :)⟩

/-! Scenes and the loader. -/

theorem find?_putScene (x : Scene) (l : List Scene) : (putScene x l).find? (fun y => y.scene = x.scene) = some x := by
  have hbelow : (l.filter fun y => y.scene < x.scene).find? (fun y => y.scene = x.scene) = none := by
    simp only [List.find?_eq_none, List.mem_filter, decide_eq_true_eq]
    omega
  simp [putScene, List.find?_append, hbelow]

/-- The entry of a scene stored. -/
def storedScene (t : Nat) (scene : Byte) (page : Half) (offset : Word) (s : State) : Scene :=
  { scene := scene.toNat, page := page.toNat, offset := offset.toNat, entries := (sceneEntries s t).length
    bytes := (sceneImage s t scene.toNat).1.length }

theorem storePoke_tenants (off : Nat) (l : List Byte) (s : State) : (storePoke off l s).tenants = s.tenants := by
  rw [storePoke, storeWrite_eq]

theorem sceneStore_stores {t : Fin 16} {ok : Bool} {rb : BitVec 256} {r : Req} {scene : Byte} {page : Half} {offset : Word} {s : State}
    (hends : endsWell t (.sceneStore r scene page offset) s = true) (hcount : (sceneEntries s t).length ≤ 4096)
    (hroom : offset.toNat + 64 + 8 * (sceneEntries s t).length ≤ 65536) (hlt : t.val < s.tenants.length) :
    ∃ u, EndsAs t ok rb (.sceneStore r scene page offset) s .ok
        (le 2 (sceneEntries s t).length ++ le 2 0 ++ leBits 4 (sceneImage s t scene.toNat).2) u ∧
      sceneOf u t scene.toNat = some { scene := scene.toNat, page := page.toNat, offset := offset.toNat
                                       entries := (sceneEntries s t).length, bytes := (sceneImage s t scene.toNat).1.length } ∧
      u = modTenant t (fun n => { n with scenes := (u.tenant t).scenes })
        (storePoke (page.toNat * pageSize + offset.toNat) (sceneImage s t scene.toNat).1 s) := by
  have htenant : r.tenant = t := by
    have h := hends
    simp only [endsWell, Bool.and_eq_true, reqOf, decide_eq_true_eq] at h
    exact h.1.1.2
  have heff : (sceneStoreM r scene page offset).effect (doneBytes ok rb) s =
      (modTenant t (fun q => { q with scenes := putScene (storedScene t scene page offset s) q.scenes })
          (storePoke (page.toNat * pageSize + offset.toNat) (sceneImage s t scene.toNat).1 s), .ok,
        le 2 (sceneEntries s t).length ++ le 2 0 ++ leBits 4 (sceneImage s t scene.toNat).2) := by
    simp only [sceneStoreM, htenant, if_neg (not_lt.2 hcount), if_neg (not_lt.2 hroom)]
    rfl
  have hends' := endsAs_effect (m := sceneStoreM r scene page offset) ok rb rfl hends
  rw [heff] at hends'
  have hlen : t.val < (storePoke (page.toNat * pageSize + offset.toNat) (sceneImage s t scene.toNat).1 s).tenants.length := by
    rw [storePoke_tenants]
    exact hlt
  refine ⟨_, hends', ?_⟩
  clear hends hends' heff
  generalize storePoke (page.toNat * pageSize + offset.toNat) (sceneImage s t scene.toNat).1 s = v at hlen ⊢
  have hval := tenant_modTenant_self (fun q : Tenant => { q with scenes := putScene (storedScene t scene page offset s) q.scenes }) hlen
  refine ⟨?_, ?_⟩
  · rw [sceneOf, hval]
    exact find?_putScene (storedScene t scene page offset s) _
  · rw [hval, modTenant, modTenant, updAt_congr]
    rfl

theorem markLoaded_first {p : Pending} {l1 : List Pending} (l2 : List Pending) (hswap : atSwap p.cmd = true) (hloaded : p.loaded = false)
    (hfirst : l1.all (fun q => !atSwap q.cmd || q.loaded) = true) : markLoaded (l1 ++ p :: l2) = l1 ++ { p with loaded := true } :: l2 := by
  induction l1 with
  | nil => exact if_pos (by rw [hswap, hloaded]; rfl)
  | cons q l ih =>
    simp only [List.all_cons, Bool.and_eq_true, Bool.or_eq_true, Bool.not_eq_true'] at hfirst
    obtain ⟨hq, hl⟩ := hfirst
    have hskip : ¬ (atSwap q.cmd && !q.loaded) = true := by
      rcases hq with hq | hq <;> simp [hq]
    rw [List.cons_append, markLoaded, if_neg hskip, ih hl]
    rfl

theorem mirrorLoaderFilled_fills {t : Fin 16} {p : Pending} {l1 l2 : List Pending} {s : State} (hpend : (s.tenant t).pend = l1 ++ p :: l2)
    (hswap : atSwap p.cmd = true) (hloaded : p.loaded = false) (hfirst : l1.all (fun q => !atSwap q.cmd || q.loaded) = true) :
    exec (.mirrorLoaderFilled t) s = .next (modTenant t (fun n => { n with pend := l1 ++ { p with loaded := true } :: l2 }) s) := by
  refine congrArg (fun l => Host.Outcome.next { s with tenants := l }) (updAt_congr _ _ ?_)
  change { s.tenant t with pend := markLoaded (s.tenant t).pend } = _
  rw [hpend, markLoaded_first l2 hswap hloaded hfirst]
  rfl

/-- Settles O41, command by command. -/
theorem mirrorCommands : Obligations.MirrorCommands :=
  ⟨fun _ src bus gain _ hruns => runs_answers (m := prismDirectGainM src bus gain) rfl hruns,
    fun r scene _ hruns => runs_answers (m := sceneDeleteM r scene) rfl hruns,
    fun r family rate block len _ hruns => runs_answers (m := mirrorConfigM r family rate block len) rfl hruns,
    fun _ _ _ _ _ _ _ _ hends hcount hroom hlt => sceneStore_stores hends hcount hroom hlt,
    fun _ _ _ _ _ _ hpend hswap hloaded hfirst => mirrorLoaderFilled_fills hpend hswap hloaded hfirst,
    fun _ _ _ hruns => prismSample_keeps hruns⟩

end Sys2Proof.Machine
end

section
/-! What the groupable commands do to Prism and to the cores (10, 11). -/

namespace Sys2Proof.Machine

/-! Their frame. -/

theorem sansAudio_setXp (t : Nat) (s : State) (i : XpItem) : sansAudio (setXp t s i) = sansAudio s := by
  unfold setXp
  dsimp only
  split <;> rfl

theorem sansAudio_changeClass (src cls wind : Nat) (s : State) : sansAudio (changeClass src cls wind s) = sansAudio s := by
  unfold changeClass
  dsimp only
  split
  · rfl
  · split
    · rfl
    · split <;> rfl

theorem sansAudio_setRoute (t sink : Nat) (source : Option Nat) (cut : Bool) (s : State) :
    sansAudio (setRoute t sink source cut s) = sansAudio s := rfl

theorem sansAudio_configBus (b family rate mode range : Nat) (s : State) : sansAudio (configBus b family rate mode range s) = sansAudio s := by
  unfold configBus
  dsimp only
  rw [sansAudio_modBus]
  split
  · rfl
  · exact sansAudio_setRange ..

theorem sansAudio_setParam (n slot word : Nat) (v : Word) (s : State) : sansAudio (setParam n slot word v s) = sansAudio s := rfl

theorem sansAudio_applyEntry (t : Nat) (s : State) (e : List Byte) : sansAudio (applyEntry t s e) = sansAudio s := by
  unfold applyEntry
  split
  · rfl
  · split
    · exact sansAudio_changeClass ..
    · exact sansAudio_setXp ..
    · exact sansAudio_setRoute ..
    · exact sansAudio_configBus ..
    · exact sansAudio_setParam ..
    · rfl

/-- What a recall does before it applies the scene's entries: what the scene lacks ramps out, takes no source, takes class data. -/
def recallClears (t : Nat) (es : List (List Byte)) (s : State) : State :=
  let has := fun (ty : Nat) (f : List Byte → Bool) => es.any fun e => peekLe e 0 1 = ty && f e
  let s := s.prism.xps.foldl (fun s x =>
    if ownerOf s 3 x.bus = t && !has 2 (fun e => peekLe e 1 1 = x.bus && peekLe e 2 2 = x.source) then clearXp t x.source x.bus s
    else s) s
  let s := s.prism.routes.foldl (fun s x =>
    if ownerOf s 2 x.sink = t && !has 3 (fun e => peekLe e 2 2 = x.sink) then setRoute t x.sink none false s else s) s
  s.prism.classes.foldl (fun s x =>
    if ownerOf s 1 x.1 = t && !has 1 (fun e => peekLe e 2 2 = x.1) then changeClass x.1 0 0 s else s) s

theorem recallScene_eq (t scene : Nat) (es : List (List Byte)) (s : State) :
    ∃ d, recallScene t scene es s = record 0x0704 t d (es.foldl (applyEntry t) (recallClears t es s)) := ⟨_, rfl⟩

theorem foldl_ite_keeps {α β γ : Type} (μ : β → γ) (c : β → α → Bool) (g : β → α → β) (h : ∀ s x, μ (g s x) = μ s) (l : List α) (s : β) :
    μ (l.foldl (fun s x => if c s x then g s x else s) s) = μ s := by
  refine foldl_keeps μ (fun v x => ?_) l s
  split
  · exact h v x
  · rfl

/-- A mask that no crosspoint, route or class touches stands the first part of a recall. -/
theorem recallClears_keeps {γ : Type} (μ : State → γ) (hxp : ∀ t a b s, μ (clearXp t a b s) = μ s)
    (hroute : ∀ t a o c s, μ (setRoute t a o c s) = μ s) (hclass : ∀ a b c s, μ (changeClass a b c s) = μ s) (t : Nat)
    (es : List (List Byte)) (s : State) : μ (recallClears t es s) = μ s := by
  unfold recallClears
  dsimp only
  refine (foldl_ite_keeps μ _ (fun s (x : Nat × SourceClass) => changeClass x.1 0 0 s) (fun v x => hclass ..) _ _).trans ?_
  refine (foldl_ite_keeps μ _ (fun s (x : Route) => setRoute t x.sink none false s) (fun v x => hroute ..) _ _).trans ?_
  exact foldl_ite_keeps μ _ (fun s (x : Xp) => clearXp t x.source x.bus s) (fun v x => hxp ..) _ _

theorem sansAudio_recallScene (t scene : Nat) (es : List (List Byte)) (s : State) : sansAudio (recallScene t scene es s) = sansAudio s := by
  obtain ⟨d, hd⟩ := recallScene_eq t scene es s
  rw [hd, sansAudio_record, foldl_keeps sansAudio (f := applyEntry t) (sansAudio_applyEntry t)]
  exact recallClears_keeps sansAudio (fun _ _ _ _ => rfl) (fun _ _ _ _ _ => rfl) sansAudio_changeClass t es s

/-- The effect of a groupable command touches only what carries audio. -/
theorem sansAudio_groupable {i : Instr} {m : Meaning} (b : List Byte) (s : State) (hgroup : (opInfo i).groupable = true)
    (hm : meaningOf i = some m) : sansAudio (m.effect b s).1 = sansAudio s := by
  cases i
  case plinkAudioMap => cases hm; rfl
  case aportMask => cases hm; rfl
  case prismInputClass => cases hm; exact sansAudio_changeClass ..
  case prismXpSet => cases hm; exact foldl_keeps sansAudio (sansAudio_setXp _) _ _
  case prismXpClear r l =>
    cases hm
    exact foldl_keeps sansAudio (f := fun s (i : XpKey) => clearXp r.tenant.val i.source.toNat i.bus.toNat s) (fun _ _ => rfl) _ _
  case prismRoute => cases hm; rfl
  case prismBusConfig => cases hm; exact sansAudio_configBus ..
  case prismBusRange => cases hm; exact sansAudio_setRange ..
  case sceneRecall => cases hm; exact sansAudio_recallScene ..
  case lensParam r l =>
    cases hm
    exact foldl_keeps sansAudio (f := fun s (i : LensItem) => setParam i.core.toNat i.slot.toNat i.word.toNat i.value s) (fun _ _ => rfl) _ _
  all_goals exact Bool.noConfusion hgroup

/-! Crosspoints. -/

/-- The crosspoint from a source to a bus has this gain, and is neither cleared nor revoked. -/
def XpSet (src bus : Nat) (code : Int) (m : Prism) : Prop :=
  ∃ x ∈ m.xps, x.source = src ∧ x.bus = bus ∧ x.code = code ∧ x.clearing = false ∧ x.dying = none

theorem xpSet_setXp (t : Nat) (s : State) (i : XpItem) : XpSet i.source.toNat i.bus.toNat i.gain.toInt (setXp t s i).prism := by
  unfold setXp
  dsimp only
  split
  · next hcounted =>
    obtain ⟨x, hx, hkey⟩ := List.any_eq_true.1 hcounted
    simp only [Bool.and_eq_true, decide_eq_true_eq] at hkey
    refine ⟨_, List.mem_map_of_mem hx, ?_⟩
    rw [if_pos (by simp [hkey])]
    split
    · next hsame =>
      simp only [Bool.and_eq_true, decide_eq_true_eq, Bool.not_eq_true', Option.isNone_iff_eq_none] at hsame
      exact ⟨hkey.1, hkey.2, hsame.1.1, hsame.1.2, hsame.2⟩
    · exact ⟨hkey.1, hkey.2, rfl, rfl, rfl⟩
  · exact ⟨_, List.mem_append_right _ (List.mem_singleton_self _), rfl, rfl, rfl, rfl, rfl⟩

theorem xpSet_setXp_other {src bus : Nat} {code : Int} (t : Nat) {s : State} {i : XpItem} (hne : ¬ (i.source.toNat = src ∧ i.bus.toNat = bus))
    (h : XpSet src bus code s.prism) : XpSet src bus code (setXp t s i).prism := by
  obtain ⟨x, hx, hsrc, hbus, hrest⟩ := h
  unfold setXp
  dsimp only
  split
  · refine ⟨_, List.mem_map_of_mem hx, ?_⟩
    rw [if_neg (by simp only [Bool.and_eq_true, decide_eq_true_eq]; omega)]
    exact ⟨hsrc, hbus, hrest⟩
  · exact ⟨x, List.mem_append_left _ hx, hsrc, hbus, hrest⟩

theorem xpSet_foldl {t : Nat} {l1 l2 : List XpItem} {i : XpItem} (s : State) (hlast : ∀ j ∈ l2, ¬ (j.source = i.source ∧ j.bus = i.bus)) :
    XpSet i.source.toNat i.bus.toNat i.gain.toInt ((l1 ++ i :: l2).foldl (setXp t) s).prism := by
  rw [List.foldl_append, List.foldl_cons]
  have hset := xpSet_setXp t (l1.foldl (setXp t) s) i
  generalize setXp t (l1.foldl (setXp t) s) i = v at hset
  induction l2 generalizing v with
  | nil => exact hset
  | cons j l ih =>
    refine ih (fun k hk => hlast k (List.mem_cons_of_mem _ hk)) _ (xpSet_setXp_other t (fun hsame => ?_) hset)
    exact hlast j List.mem_cons_self ⟨BitVec.eq_of_toNat_eq hsame.1, BitVec.eq_of_toNat_eq hsame.2⟩

/-- Every crosspoint from a source to a bus is being cleared. -/
def XpCleared (src bus : Nat) (m : Prism) : Prop := ∀ x ∈ m.xps, x.source = src → x.bus = bus → x.clearing = true

theorem xpCleared_clearXp (t src bus : Nat) (s : State) : XpCleared src bus (clearXp t src bus s).prism := by
  intro y hy hsrc hbus
  obtain ⟨x, -, rfl⟩ := List.mem_map.1 hy
  by_cases hclear : (x.source = src && x.bus = bus && !x.clearing) = true
  · rw [if_pos hclear]
    rfl
  · rw [if_neg hclear] at hsrc hbus ⊢
    simpa [hsrc, hbus] using hclear

theorem xpCleared_clearXp_other {src bus : Nat} (t a b : Nat) {s : State} (h : XpCleared src bus s.prism) :
    XpCleared src bus (clearXp t a b s).prism := by
  intro y hy hsrc hbus
  obtain ⟨x, hx, rfl⟩ := List.mem_map.1 hy
  by_cases hclear : (x.source = a && x.bus = b && !x.clearing) = true
  · rw [if_pos hclear]
    rfl
  · rw [if_neg hclear] at hsrc hbus ⊢
    exact h x hx hsrc hbus

theorem xpCleared_foldl {t : Nat} {l : List XpKey} {i : XpKey} (s : State) (hi : i ∈ l) :
    XpCleared i.source.toNat i.bus.toNat (l.foldl (fun s i => clearXp t i.source.toNat i.bus.toNat s) s).prism := by
  obtain ⟨l1, l2, rfl⟩ := List.append_of_mem hi
  rw [List.foldl_append, List.foldl_cons]
  have hset := xpCleared_clearXp t i.source.toNat i.bus.toNat (l1.foldl (fun s i => clearXp t i.source.toNat i.bus.toNat s) s)
  generalize clearXp t i.source.toNat i.bus.toNat (l1.foldl (fun s i => clearXp t i.source.toNat i.bus.toNat s) s) = v at hset
  clear hi
  induction l2 generalizing v with
  | nil => exact hset
  | cons j l ih => exact ih _ (xpCleared_clearXp_other _ _ _ hset)

theorem xpLive_of_cleared {src bus : Nat} {s : State} (h : XpCleared src bus s.prism) : xpLive s src bus = false := by
  simp only [xpLive, List.any_eq_false, Bool.and_eq_true, decide_eq_true_eq, Bool.not_eq_true']
  intro x hx hlive
  have := h x hx hlive.1.1.1 hlive.1.1.2
  simp [this] at hlive

/-! Routes. -/

/-- The route that a sink gets. -/
def freshRoute (t sink : Nat) (source : Option Nat) (cut : Bool) (s : State) : Route :=
  (s.prism.routes.find? fun x => x.sink = sink).elim
    { sink, source, cut, ramp := if cut then none else some (0, rampLen s t), owner := t } fun x =>
    if x.source = source && x.dying.isNone then { x with cut, owner := t }
    else { sink, source, cut, old := x.source, ramp := if cut then none else some (0, rampLen s t), owner := t }

theorem freshRoute_routes (t sink : Nat) (source : Option Nat) (cut : Bool) (s : State) :
    (freshRoute t sink source cut s).sink = sink ∧ (freshRoute t sink source cut s).source = source ∧
      (freshRoute t sink source cut s).dying = none := by
  unfold freshRoute
  cases hold : s.prism.routes.find? fun x => x.sink = sink with
  | none => exact ⟨rfl, rfl, rfl⟩
  | some x =>
    rw [Option.elim_some]
    split
    · next hsame =>
      simp only [Bool.and_eq_true, decide_eq_true_eq, Option.isNone_iff_eq_none] at hsame
      exact ⟨by simpa using List.find?_some hold, hsame.1, hsame.2⟩
    · exact ⟨rfl, rfl, rfl⟩

theorem routes_setRoute (t sink : Nat) (source : Option Nat) (cut : Bool) (s : State) :
    ∃ gone : Bool, (source.isSome = true → gone = false) ∧ (setRoute t sink source cut s).prism.routes =
      if gone then s.prism.routes.filter fun x => x.sink ≠ sink
      else (s.prism.routes.filter fun x => x.sink ≠ sink) ++ [freshRoute t sink source cut s] := by
  have hsource := (freshRoute_routes t sink source cut s).2.1
  refine ⟨(freshRoute t sink source cut s).source.isNone &&
    ((freshRoute t sink source cut s).ramp.isNone || (s.prism.routes.find? fun x => x.sink = sink).isNone), fun hsome => ?_, ?_⟩
  · rw [hsource, Option.isNone_eq_false_iff.2 hsome, Bool.false_and]
  · unfold setRoute freshRoute
    dsimp only [modPrism]
    cases s.prism.routes.find? fun x => x.sink = sink <;> rfl

theorem setRoute_source (t sink src : Nat) (cut : Bool) (s : State) :
    ∃ x ∈ (setRoute t sink (some src) cut s).prism.routes, x.sink = sink ∧ x.source = some src ∧ x.dying = none := by
  obtain ⟨gone, hgone, hroutes⟩ := routes_setRoute t sink (some src) cut s
  rw [hroutes, hgone rfl]
  exact ⟨_, List.mem_append_right _ (List.mem_singleton_self _), freshRoute_routes t sink (some src) cut s⟩

theorem setRoute_none {t sink : Nat} {cut : Bool} {s : State} {y : Route} (hy : y ∈ (setRoute t sink none cut s).prism.routes)
    (hsink : y.sink = sink) : y.source = none := by
  obtain ⟨gone, -, hroutes⟩ := routes_setRoute t sink none cut s
  have hrest : y ∉ s.prism.routes.filter fun x => x.sink ≠ sink := by simp [hsink]
  rw [hroutes] at hy
  split at hy
  · exact absurd hy hrest
  · rw [List.mem_singleton.1 ((List.mem_append.1 hy).resolve_left hrest)]
    exact (freshRoute_routes t sink none cut s).2.1

/-! Classes. -/

/-- The class and the wind setting that a source has, or changes to. -/
def classPair (m : Prism) (src : Nat) : Nat × Nat :=
  ((assoc m.classes src).getD {}).change.getD (((assoc m.classes src).getD {}).cls, ((assoc m.classes src).getD {}).wind)

theorem classPair_changeClass (src cls wind : Nat) (s : State) : classPair (changeClass src cls wind s).prism src = (cls, wind) := by
  unfold changeClass
  dsimp only
  split
  · next h => exact h
  · split <;> simp [classPair, modPrism, assoc_assocSet_same]

/-! Buses. -/

theorem length_buses_setRange (b r : Nat) (s : State) : (setRange b r s).prism.buses.length = s.prism.buses.length := by
  unfold setRange
  dsimp only
  split
  · rfl
  · rw [record_prism, length_buses_modBus]

theorem configBus_configures {b family rate mode range : Nat} {s : State} (hb : b < s.prism.buses.length) :
    ((configBus b family rate mode range s).bus b).family = family ∧ ((configBus b family rate mode range s).bus b).rate = rate ∧
      ((configBus b family rate mode range s).bus b).auto = decide (mode = 1) ∧ ((configBus b family rate mode range s).bus b).steps = 0 ∧
      ((configBus b family rate mode range s).bus b).range = (if mode = 1 then (s.bus b).range else range) := by
  unfold configBus
  dsimp only
  split
  · rw [bus_modBus_self _ hb]
    exact ⟨rfl, rfl, rfl, rfl, rfl⟩
  · by_cases hrange : (s.bus b).range = range
    · rw [setRange, if_pos hrange, bus_modBus_self _ hb]
      exact ⟨rfl, rfl, rfl, rfl, hrange⟩
    · rw [bus_modBus_self _ (by rw [length_buses_setRange]; exact hb), bus_setRange_self hb hrange]
      exact ⟨rfl, rfl, rfl, rfl, rfl⟩

theorem bus_configBus_other {b k : Nat} (family rate mode range : Nat) (s : State) (h : k ≠ b) :
    (configBus b family rate mode range s).bus k = s.bus k := by
  unfold configBus
  dsimp only
  rw [bus_modBus_other _ _ h]
  split
  · rfl
  · exact bus_setRange_other _ _ h

theorem range_setRange {b r : Nat} {s : State} (hb : b < s.prism.buses.length) : ((setRange b r s).bus b).range = r := by
  by_cases hrange : (s.bus b).range = r
  · rw [setRange, if_pos hrange, hrange]
  · rw [bus_setRange_self hb hrange]
    rfl

/-! Recalls. -/

theorem buses_changeClass (src cls wind : Nat) (s : State) : (changeClass src cls wind s).prism.buses = s.prism.buses := by
  unfold changeClass
  dsimp only
  split
  · rfl
  · split
    · rfl
    · split <;> rfl

theorem buses_setXp (t : Nat) (s : State) (i : XpItem) : (setXp t s i).prism.buses = s.prism.buses := by
  unfold setXp
  dsimp only
  split <;> rfl

theorem length_buses_configBus (b family rate mode range : Nat) (s : State) :
    (configBus b family rate mode range s).prism.buses.length = s.prism.buses.length := by
  unfold configBus
  dsimp only
  rw [length_buses_modBus]
  split
  · rfl
  · exact length_buses_setRange ..

/-- An entry that names no bus configuration leaves the buses. -/
theorem buses_applyEntry (t : Nat) {e : List Byte} (s : State) (h : peekLe e 0 1 ≠ 4) : (applyEntry t s e).prism.buses = s.prism.buses := by
  unfold applyEntry
  split
  · rfl
  · split
    · exact buses_changeClass ..
    · exact buses_setXp ..
    · rfl
    · next hkind => exact absurd hkind h
    · rfl
    · rfl

/-- An entry that configures a bus of the tenant does so. -/
theorem applyEntry_bus {t : Nat} {e : List Byte} {s : State} (h : peekLe e 0 1 = 4) (howner : ownerOf s 3 (peekLe e 1 1) = t) :
    applyEntry t s e = configBus (peekLe e 1 1) (peekLe e 2 1) (peekLe e 3 1) (peekLe e 4 1) (peekLe e 5 1) s := by
  have hunits : entryUnits e = [(3, peekLe e 1 1)] := by simp only [entryUnits, h]
  unfold applyEntry
  rw [hunits, if_neg (by simp [howner])]
  simp only [h]

/-- An entry reaches no bus but the one it names. -/
theorem bus_applyEntry_other (t : Nat) {e : List Byte} {k : Nat} (s : State) (h : peekLe e 0 1 = 4 → k ≠ peekLe e 1 1) :
    (applyEntry t s e).bus k = s.bus k := by
  by_cases hkind : peekLe e 0 1 = 4
  · unfold applyEntry
    split
    · rfl
    · simp only [hkind]
      exact bus_configBus_other _ _ _ _ _ (h hkind)
  · exact congrArg (nth · k) (buses_applyEntry t s hkind)

theorem length_buses_applyEntry (t : Nat) (s : State) (e : List Byte) : (applyEntry t s e).prism.buses.length = s.prism.buses.length := by
  by_cases hkind : peekLe e 0 1 = 4
  · unfold applyEntry
    split
    · rfl
    · simp only [hkind]
      exact length_buses_configBus ..
  · rw [buses_applyEntry t s hkind]

theorem ownerOf_of_owners {s u : State} (h : u.owners = s.owners) {ty : Nat} (hty : ty ≠ 5) (k : Nat) : ownerOf u ty k = ownerOf s ty k := by
  rw [ownerOf, ownerOf, if_neg hty, if_neg hty, h]

theorem owners_applyEntry (t : Nat) (s : State) (e : List Byte) : (applyEntry t s e).owners = s.owners :=
  (congrArg (fun x => x.owners) (sansAudio_applyEntry t s e) :)

/-- A bus has the family and the rate of an entry. -/
def BusTakes (e : List Byte) (s : State) : Prop :=
  (s.bus (peekLe e 1 1)).family = peekLe e 2 1 ∧ (s.bus (peekLe e 1 1)).rate = peekLe e 3 1

/-- The one entry of a list that configures a bus of the tenant decides its family and rate. -/
theorem busTakes_foldl {t : Nat} {l : List (List Byte)} {e : List Byte} {s : State} (he : e ∈ l) (hkind : peekLe e 0 1 = 4)
    (hone : ∀ f ∈ l, peekLe f 0 1 = 4 → peekLe f 1 1 = peekLe e 1 1 → f = e) (howner : ownerOf s 3 (peekLe e 1 1) = t)
    (hb : peekLe e 1 1 < s.prism.buses.length) : BusTakes e (l.foldl (applyEntry t) s) := by
  have hset : ∀ v : State, v.owners = s.owners → v.prism.buses.length = s.prism.buses.length → BusTakes e (applyEntry t v e) := by
    intro v hv hlen
    rw [applyEntry_bus hkind ((ownerOf_of_owners hv (by decide) _).trans howner)]
    obtain ⟨hfam, hrate, -⟩ := configBus_configures (family := peekLe e 2 1) (rate := peekLe e 3 1) (mode := peekLe e 4 1)
      (range := peekLe e 5 1) (hlen ▸ hb : peekLe e 1 1 < v.prism.buses.length)
    exact ⟨hfam, hrate⟩
  have hgo : ∀ (l : List (List Byte)) (v : State), (∀ f ∈ l, peekLe f 0 1 = 4 → peekLe f 1 1 = peekLe e 1 1 → f = e) →
      v.owners = s.owners → v.prism.buses.length = s.prism.buses.length → (e ∈ l ∨ BusTakes e v) → BusTakes e (l.foldl (applyEntry t) v) := by
    intro l
    induction l with
    | nil => exact fun v _ _ _ h => h.resolve_left (List.not_mem_nil)
    | cons f l ih =>
      intro v hone hv hlen h
      refine ih _ (fun g hg => hone g (List.mem_cons_of_mem _ hg)) ((owners_applyEntry ..).trans hv) ((length_buses_applyEntry ..).trans hlen) ?_
      by_cases hf : f = e
      · exact .inr (hf ▸ hset v hv hlen)
      · refine h.imp (fun hmem => (List.mem_cons.1 hmem).resolve_left (Ne.symm hf)) fun htakes => ?_
        have hbus := bus_applyEntry_other (k := peekLe e 1 1) t v fun hk heq => hf (hone f List.mem_cons_self hk heq.symm)
        rw [BusTakes, hbus]
        exact htakes
  exact hgo l s hone rfl rfl (.inl he)

/-! Parameters. -/

/-- The shadow bank of a slot holds a value of a word. -/
def Shadowed (n k w : Nat) (h : Kernel) (v : Word) (s : State) : Prop :=
  (nth (s.core n).slots k).kernel = some h ∧ localGet (s.core n).xm (shadowBase (nth (s.core n).slots k) h + w) = v

/-- What PRISM's parameter path does to a core: it keeps its slots, but for what they have staged. -/
theorem core_setParam (n n' k' w : Nat) (v : Word) (s : State) : ((setParam n' k' w v s).core n = s.core n) ∨
    ∃ xm, (setParam n' k' w v s).core n =
      { s.core n with xm, slots := updAt (s.core n).slots k' fun q => { q with staged := q.staged ++ [(w, v)] } } := by
  by_cases hn : n = n'
  · subst hn
    by_cases hlt : n < s.lens.length
    · rw [setParam, core_modLens_self _ hlt]
      dsimp only
      split
      · split
        · exact .inl rfl
        · exact .inr ⟨_, rfl⟩
      · exact .inl rfl
    · refine .inl ?_
      rw [State.core, setParam, modLens, updAt, List.modify_eq_self (not_lt.1 hlt)]
      rfl
  · exact .inl (core_modLens_other _ _ hn)

theorem kernel_setParam {n k : Nat} (n' k' w : Nat) (v : Word) {s : State} {h : Kernel}
    (hkernel : (nth (s.core n).slots k).kernel = some h) : (nth ((setParam n' k' w v s).core n).slots k).kernel = some h := by
  rcases core_setParam n n' k' w v s with hcore | ⟨xm, hcore⟩
  · rw [hcore]
    exact hkernel
  · rw [hcore]
    exact (nth_of_map_eq (map_updAt (s.core n).slots k' (fun q => { q with staged := q.staged ++ [(w, v)] }) LensSlot.kernel
      fun _ => rfl) k).trans hkernel

theorem length_slots_setParam (n n' k' w : Nat) (v : Word) (s : State) :
    ((setParam n' k' w v s).core n).slots.length = (s.core n).slots.length := by
  rcases core_setParam n n' k' w v s with hcore | ⟨xm, hcore⟩
  · rw [hcore]
  · rw [hcore]
    exact length_updAt ..

theorem length_lens_setParam (n k w : Nat) (v : Word) (s : State) : (setParam n k w v s).lens.length = s.lens.length :=
  length_updAt ..

theorem shadowed_setParam {n k w : Nat} {v : Word} {s : State} {h : Kernel} (hn : n < s.lens.length) (hk : k < (s.core n).slots.length)
    (hkernel : (nth (s.core n).slots k).kernel = some h) (hw : w < h.params) : Shadowed n k w h v (setParam n k w v s) := by
  have hcore : (setParam n k w v s).core n = { s.core n with
      xm := localPut (s.core n).xm (shadowBase (nth (s.core n).slots k) h + w) v
      slots := updAt (s.core n).slots k fun q => { q with staged := q.staged ++ [(w, v)] } } := by
    rw [setParam, core_modLens_self _ hn]
    simp only [hkernel]
    rw [if_neg (not_le.2 hw)]
  refine ⟨kernel_setParam n k w v hkernel, ?_⟩
  rw [hcore]
  dsimp only
  rw [nth_updAt_self _ _ _ hk]
  exact (localGet_localPut ..).trans (if_pos rfl)

/-- The parameters of a list, put one after another. -/
def putParams (l : List LensItem) (s : State) : State :=
  l.foldl (fun s i => setParam i.core.toNat i.slot.toNat i.word.toNat i.value s) s

theorem length_lens_putParams (l : List LensItem) (s : State) : (putParams l s).lens.length = s.lens.length :=
  foldl_keeps (fun v : State => v.lens.length) (fun _ _ => length_lens_setParam ..) l s

theorem length_slots_putParams (n : Nat) (l : List LensItem) (s : State) : ((putParams l s).core n).slots.length = (s.core n).slots.length :=
  foldl_keeps (fun v : State => (v.core n).slots.length) (fun _ _ => length_slots_setParam ..) l s

theorem kernel_putParams {n k : Nat} (l : List LensItem) {s : State} {h : Kernel} (hkernel : (nth (s.core n).slots k).kernel = some h) :
    (nth ((putParams l s).core n).slots k).kernel = some h := by
  induction l generalizing s with
  | nil => exact hkernel
  | cons j l ih => exact ih (kernel_setParam _ _ _ _ hkernel)

theorem core_putParams_other {n : Nat} {l : List LensItem} (s : State) (h : ∀ j ∈ l, j.core.toNat ≠ n) : (putParams l s).core n = s.core n := by
  induction l generalizing s with
  | nil => rfl
  | cons j l ih =>
    exact (ih _ fun k hk => h k (List.mem_cons_of_mem _ hk)).trans (core_modLens_other _ _ (h j List.mem_cons_self).symm)

/-- The last parameter of a list for a core stands in the shadow bank of its slot. -/
theorem shadowed_putParams {l1 l2 : List LensItem} {i : LensItem} {h : Kernel} {s : State} (hlt : i.core.toNat < s.lens.length)
    (hk : i.slot.toNat < (s.core i.core.toNat).slots.length) (hkernel : (nth (s.core i.core.toNat).slots i.slot.toNat).kernel = some h)
    (hw : i.word.toNat < h.params) (hlast : ∀ j ∈ l2, j.core ≠ i.core) :
    Shadowed i.core.toNat i.slot.toNat i.word.toNat h i.value (putParams (l1 ++ i :: l2) s) := by
  have hsplit : putParams (l1 ++ i :: l2) s =
      putParams l2 (setParam i.core.toNat i.slot.toNat i.word.toNat i.value (putParams l1 s)) := by
    rw [putParams, List.foldl_append, List.foldl_cons]
    rfl
  have hother : ∀ j ∈ l2, j.core.toNat ≠ i.core.toNat := fun j hj heq => hlast j hj (BitVec.eq_of_toNat_eq heq)
  rw [hsplit, Shadowed, core_putParams_other _ hother]
  exact shadowed_setParam (by rw [length_lens_putParams]; exact hlt) (by rw [length_slots_putParams]; exact hk)
    (kernel_putParams l1 hkernel) hw

end Sys2Proof.Machine
end

section
/-! Swaps of the Mirror (10): what takes effect at a swap boundary. -/

namespace Sys2Proof.Machine

/-! The end of a swap. -/

/-- Prism with every ramp and cross-fade ended (R301). -/
def settled (m : Prism) : Prism :=
  { m with
    xps := (m.xps.filter fun x => !x.clearing && x.dying.isNone).map fun x => { x with ramp := none }
    routes := (m.routes.filter fun x => x.source.isSome && x.dying.isNone).map fun x => { x with ramp := none, old := none }
    classes := m.classes.map fun x =>
      let (c, w) := x.2.change.getD (x.2.cls, x.2.wind)
      (x.1, { cls := c, wind := w, fs := x.2.fs }) }

theorem settlePrism_eq (s : State) : ∃ freed, settlePrism s = tellFreed freed (modPrism settled s) := ⟨_, rfl⟩

theorem prism_tellFreed (freed : List Nat) (s : State) : (tellFreed freed s).prism = s.prism :=
  foldl_keeps (fun v : State => v.prism) (fun _ _ => record_prism ..) _ _

theorem lens_tellFreed (freed : List Nat) (s : State) : (tellFreed freed s).lens = s.lens :=
  foldl_keeps (fun v : State => v.lens) (fun _ _ => record_lens ..) _ _

/-- A bank flipped, and counted. -/
def flipped (n : Tenant) : Tenant := { n with mirror := { n.mirror with bankB := !n.mirror.bankB, swaps := n.mirror.swaps + 1 } }

/-- What a swap does after its commands took effect. -/
def endSwap (t : Nat) (s : State) : State :=
  let s := flipBanks t (modTenant t flipped s)
  if s.prism.gated || stoppedByHoldover s fencePrism then settlePrism s else s

theorem swapAt_one {t : Nat} {n : Int} {p : Pending} {s : State} (h : swapPicks s t n = [p]) :
    swapAt t n s = endSwap t (applySwap t (boundaryTime s (swapFs s t) n + 1) (boundaryNs s (swapFs s t) n 0).toNat s p) := by
  unfold swapAt
  dsimp only
  rw [h, if_neg (List.cons_ne_nil p []), List.foldl_cons, List.foldl_nil]
  rfl

/-- The end of a swap flips the bank, counts, moves the parameters, and may settle the ramps. -/
structure SwapEnded (t : Nat) (w u : State) : Prop where
  audio : sansAudio u = sansAudio (modTenant t flipped w)
  prism : u.prism = w.prism ∨ u.prism = settled w.prism
  lens : u.lens = (flipBanks t w).lens

theorem SwapEnded.last {t : Nat} {w u : State} (h : SwapEnded t w u) : u.last = w.last := (congrArg (fun x => x.last) h.audio :)

theorem SwapEnded.owners {t : Nat} {w u : State} (h : SwapEnded t w u) : u.owners = w.owners := (congrArg (fun x => x.owners) h.audio :)

theorem SwapEnded.store {t : Nat} {w u : State} (h : SwapEnded t w u) : u.store = w.store := (congrArg (fun x => x.store) h.audio :)

theorem SwapEnded.tenant {t : Nat} {w u : State} (h : SwapEnded t w u) (hlt : t < w.tenants.length) : u.tenant t = flipped (w.tenant t) :=
  (congrArg (fun x => nth x.tenants t) h.audio :).trans (tenant_modTenant_self flipped hlt)

theorem endSwap_ended (t : Nat) (w : State) : SwapEnded t w (endSwap t w) := by
  unfold endSwap
  dsimp only
  split
  · obtain ⟨freed, hsettle⟩ := settlePrism_eq (flipBanks t (modTenant t flipped w))
    rw [hsettle]
    exact ⟨by rw [sansAudio_tellFreed]; rfl, .inr (prism_tellFreed ..), lens_tellFreed ..⟩
  · exact ⟨rfl, .inl rfl, rfl⟩

/-! What settling leaves. -/

theorem XpSet.settled {src bus : Nat} {code : Int} {m : Prism} (h : XpSet src bus code m) : XpSet src bus code (settled m) := by
  obtain ⟨x, hx, hsrc, hbus, hcode, hclear, hdying⟩ := h
  exact ⟨_, List.mem_map_of_mem (List.mem_filter.2 ⟨hx, by simp [hclear, hdying]⟩), hsrc, hbus, hcode, hclear, hdying⟩

theorem XpCleared.settled {src bus : Nat} {m : Prism} (h : XpCleared src bus m) : XpCleared src bus (settled m) := by
  intro y hy hsrc hbus
  obtain ⟨x, hx, rfl⟩ := List.mem_map.1 hy
  exact h x (List.mem_filter.1 hx).1 hsrc hbus

theorem assoc_map {α β : Type} (l : List (Nat × α)) (f : α → β) (k : Nat) : assoc (l.map fun x => (x.1, f x.2)) k = (assoc l k).map f := by
  induction l with
  | nil => rfl
  | cons x l ih =>
    rw [List.map_cons, assoc, assoc]
    split
    · rfl
    · exact ih

/-- A source with its change of class done. -/
def settledClass (q : SourceClass) : SourceClass :=
  { cls := (q.change.getD (q.cls, q.wind)).1, wind := (q.change.getD (q.cls, q.wind)).2, fs := q.fs }

theorem classPair_settled (m : Prism) (k : Nat) : classPair (settled m) k = classPair m k := by
  have hassoc : assoc (settled m).classes k = (assoc m.classes k).map settledClass := assoc_map m.classes settledClass k
  unfold classPair
  rw [hassoc]
  cases assoc m.classes k <;> rfl

/-! A waiting command at its boundary. -/

theorem groupable_of_atSwap {i : Instr} (h : atSwap i = true) (hne : ∀ q, i ≠ .groupCommit q) :
    (opInfo i).groupable = true ∧ ∃ m, meaningOf i = some m := by
  cases i
  case prismInputClass => exact ⟨rfl, _, rfl⟩
  case prismXpSet => exact ⟨rfl, _, rfl⟩
  case prismXpClear => exact ⟨rfl, _, rfl⟩
  case prismRoute => exact ⟨rfl, _, rfl⟩
  case prismBusConfig => exact ⟨rfl, _, rfl⟩
  case prismBusRange => exact ⟨rfl, _, rfl⟩
  case sceneRecall => exact ⟨rfl, _, rfl⟩
  case lensParam => exact ⟨rfl, _, rfl⟩
  case groupCommit q => exact absurd rfl (hne q)
  all_goals exact Bool.noConfusion h

theorem repliesOnly_tellLate (t : Nat) (p : Pending) (s : State) : RepliesOnly s (tellLate t p s) := by
  unfold tellLate
  have h := RepliesOnly.refl s
  split
  · dsimp only
    split_ifs
    · exact (h.record ..).record ..
    · exact h.record ..
    · exact h.record ..
    · exact h
  · exact h

/-- The state in which a waiting command takes effect. -/
def atBoundary (t : Nat) (p : Pending) (s : State) : State := tellLate t p (dropPend t p s)

theorem repliesOnly_atBoundary (t : Nat) (p : Pending) (s : State) : RepliesOnly (dropPend t p s) (atBoundary t p s) :=
  repliesOnly_tellLate ..

theorem fields_atBoundary (t : Nat) (p : Pending) (s : State) : (atBoundary t p s).last = s.last ∧ (atBoundary t p s).owners = s.owners ∧
    (atBoundary t p s).store = s.store ∧ (atBoundary t p s).prism = s.prism ∧ (atBoundary t p s).lens = s.lens := by
  have h := (repliesOnly_atBoundary t p s).frame
  generalize atBoundary t p s = v at h
  exact ⟨(congrArg (fun x => x.last) h :), (congrArg (fun x => x.owners) h :), (congrArg (fun x => x.store) h :),
    (congrArg (fun x => x.prism) h :), (congrArg (fun x => x.lens) h :)⟩

theorem applySwap_applies {t : Nat} {p : Pending} {r : Req} {m : Meaning} {s : State} (next : Time) (done : Nat) (hr : reqOf p.cmd = some r)
    (hm : meaningOf p.cmd = some m) (hne : ∀ q, p.cmd ≠ .groupCommit q) (hswap : atSwap p.cmd = true)
    (hruns : (opInfo p.cmd).fences.any (stoppedByHoldover (dropPend t p s)) = false) :
    ∃ x, applySwap t next done s p = post t p.timed x (m.effect p.copied (atBoundary t p s)).1 := by
  have hheld : applySwap t next done s p = applyHeld t p done (dropPend t p s) := by
    unfold applySwap
    split
    · next q hq => exact absurd hq (hne q)
    · rfl
  have hjudge : judgeAgain (dropPend t p s) p.cmd m = none := by
    rw [judgeAgain, if_pos hswap, if_neg (by rw [hruns]; decide)]
  rw [hheld]
  unfold applyHeld
  simp only [hr, hm, hjudge]
  exact ⟨_, rfl⟩

/-- The effect of a waiting command, at its boundary. -/
structure SwapEffect (t : Nat) (s e u : State) : Prop where
  pend : (u.tenant t).pend = []
  swaps : (u.tenant t).mirror.swaps = (s.tenant t).mirror.swaps + 1
  bank : (u.tenant t).mirror.bankB = !(s.tenant t).mirror.bankB
  last : u.last = s.last
  owners : u.owners = s.owners
  store : u.store = s.store
  prism : u.prism = e.prism ∨ u.prism = settled e.prism
  lens : u.lens = (flipBanks t e).lens

theorem lens_flipBanks_congr (t : Nat) {s u : State} (hlens : u.lens = s.lens) (howners : u.owners = s.owners) :
    (flipBanks t u).lens = (flipBanks t s).lens := by
  have howner : ∀ n, ownerOf u 4 n = ownerOf s 4 n := ownerOf_of_owners howners (by decide)
  unfold flipBanks
  simp only [hlens, howner]

theorem mirrorSwap_effect {t : Fin 16} {p : Pending} {r : Req} {s : State} (hhalt : ctlHalted s = false) (hfw : fwRuns s = true)
    (hup : mirrorUp s = true) (hturn : swapOutranked s t = false) (hlt : t.val < s.tenants.length) (hpend : (s.tenant t).pend = [p])
    (hpick : swapsAt s t (swapPoint s t) p = true) (hr : reqOf p.cmd = some r) (hne : ∀ q, p.cmd ≠ .groupCommit q)
    (hruns : (opInfo p.cmd).fences.any (stoppedByHoldover s) = false) :
    ∃ m u, meaningOf p.cmd = some m ∧ exec (.mirrorSwap t) s = .next (msixScan 16 u) ∧
      SwapEffect t s (m.effect p.copied (atBoundary t p s)).1 u := by
  have hswap : atSwap p.cmd = true := by
    simp only [swapsAt, Bool.and_eq_true] at hpick
    exact hpick.1.1
  obtain ⟨hgroup, m, hm⟩ := groupable_of_atSwap hswap hne
  have hexec : exec (.mirrorSwap t) s = fin (swapAt t.val (swapPoint s t.val) s) :=
    if_neg (by rw [hhalt, hfw, hup, hturn]; decide)
  have hpicks : swapPicks s t (swapPoint s t) = [p] := by
    rw [swapPicks, hpend, List.filter_cons_of_pos hpick, List.filter_nil]
  rw [swapAt_one hpicks] at hexec
  refine ⟨m, _, hm, hexec, ?_⟩
  clear hexec
  have hend := endSwap_ended t (applySwap t (boundaryTime s (swapFs s t) (swapPoint s t) + 1)
    (boundaryNs s (swapFs s t) (swapPoint s t) 0).toNat s p)
  generalize endSwap t _ = u at hend ⊢
  obtain ⟨x, hx⟩ := applySwap_applies (boundaryTime s (swapFs s t) (swapPoint s t) + 1)
    (boundaryNs s (swapFs s t) (swapPoint s t) 0).toNat hr hm hne hswap (s := s) (t := t) hruns
  rw [hx] at hend
  clear hx
  have heff := sansAudio_groupable p.copied (atBoundary t p s) hgroup hm
  generalize (m.effect p.copied (atBoundary t p s)).1 = e at hend heff ⊢
  have hpost := repliesOnly_post t p.timed x e
  generalize post t p.timed x e = w at hend hpost
  have hrep := repliesOnly_atBoundary t p s
  obtain ⟨hlast, howners, hstore, -, -⟩ := fields_atBoundary t p s
  generalize atBoundary t p s = v at heff hrep hlast howners hstore
  have htenants : e.tenants = v.tenants := (congrArg (fun x => x.tenants) heff :)
  have hlen : t.val < w.tenants.length := by
    have h1 : w.tenants.length = e.tenants.length := by simpa using congrArg List.length hpost.tenants
    have h2 : v.tenants.length = (dropPend t p s).tenants.length := by simpa using congrArg List.length hrep.tenants
    rw [h1, htenants, h2]
    exact (length_updAt ..).symm ▸ hlt
  have hdrop : (dropPend t p s).tenant t = _ := tenant_modTenant_self (fun n => { n with pend := n.pend.erase p }) hlt
  have hw : sansEyelet (w.tenant t) = sansEyelet ((dropPend t p s).tenant t) := by
    rw [hpost.tenant t, State.tenant, htenants]
    exact hrep.tenant t
  have hmirror : (w.tenant t).mirror = (s.tenant t).mirror := (congrArg Tenant.mirror hw :).trans (by rw [hdrop]; rfl)
  have hnone : (w.tenant t).pend = [] := (congrArg Tenant.pend hw :).trans (by rw [hdrop, hpend, List.erase_cons_head]; rfl)
  have hframe := hpost.frame
  have hwlast : w.last = e.last := (congrArg (fun x => x.last) hframe :)
  have hwowners : w.owners = e.owners := (congrArg (fun x => x.owners) hframe :)
  have hwstore : w.store = e.store := (congrArg (fun x => x.store) hframe :)
  have hwprism : w.prism = e.prism := (congrArg (fun x => x.prism) hframe :)
  have helast : e.last = v.last := (congrArg (fun x => x.last) heff :)
  have heowners : e.owners = v.owners := (congrArg (fun x => x.owners) heff :)
  have hestore : e.store = v.store := (congrArg (fun x => x.store) heff :)
  constructor
  case pend => rw [hend.tenant hlen, flipped, hnone]
  case swaps => rw [hend.tenant hlen, flipped, hmirror]
  case bank => rw [hend.tenant hlen, flipped, hmirror]
  case last => rw [hend.last, hwlast, helast, hlast]
  case owners => rw [hend.owners, hwowners, heowners, howners]
  case store => rw [hend.store, hwstore, hestore, hstore]
  case prism => rw [← hwprism]; exact hend.prism
  case lens => exact hend.lens.trans (lens_flipBanks_congr t (congrArg (fun x => x.lens) hframe :) hwowners)

/-! What each command leaves in force. -/

theorem bus_of_ended {t : Nat} {s e u : State} (h : SwapEffect t s e u) (k : Nat) : u.bus k = e.bus k := by
  have hbuses : u.prism.buses = e.prism.buses := by
    rcases h.prism with hp | hp <;> rw [hp]
    rfl
  rw [State.bus, hbuses]
  rfl

/-- The parameter in force of a slot of the tenant is the one of its shadow bank. -/
theorem paramOf_of_ended {t n k w : Nat} {v : Word} {h : Kernel} {s e u : State} (hend : SwapEffect t s e u) (hshadow : Shadowed n k w h v e)
    (hn : n < e.lens.length) (hk : k < (e.core n).slots.length) (howner : ownerOf e 4 n = t) :
    paramOf (u.core n) (nth (u.core n).slots k) h w = v := by
  obtain ⟨hkernel, hget⟩ := hshadow
  have hcore : u.core n = { e.core n with slots := (e.core n).slots.map fun q => if q.kernel.isSome then { q with newBank := true } else q } := by
    rw [State.core, hend.lens, flipBanks]
    simp only [nth, List.getD_eq_getElem?_getD, List.getElem?_mapIdx, List.getElem?_eq_getElem hn, Option.map_some, Option.getD_some,
      if_pos howner, State.core]
  have hslot : nth (u.core n).slots k = { nth (e.core n).slots k with newBank := true } := by
    rw [hcore]
    simp only [nth, List.getD_eq_getElem?_getD, List.getElem?_map, List.getElem?_eq_getElem hk, Option.map_some, Option.getD_some] at hkernel ⊢
    rw [hkernel]
    rfl
  have hxm : (u.core n).xm = (e.core n).xm := by rw [hcore]
  rw [hslot, paramOf, hxm]
  exact hget

theorem entry_set {t : Nat} {s e u : State} (h : SwapEffect t s e u) {src bus : Nat} {code : Int} (hset : XpSet src bus code e.prism) :
    ∃ x ∈ u.prism.xps, x.source = src ∧ x.bus = bus ∧ x.code = code ∧ x.clearing = false := by
  have hu : XpSet src bus code u.prism := by
    rcases h.prism with hp | hp <;> rw [hp]
    · exact hset
    · exact hset.settled
  obtain ⟨x, hx, hsrc, hbus, hcode, hclear, -⟩ := hu
  exact ⟨x, hx, hsrc, hbus, hcode, hclear⟩

theorem xp_cleared {t : Nat} {s e u : State} (h : SwapEffect t s e u) {src bus : Nat} (hset : XpCleared src bus e.prism) :
    xpLive u src bus = false := by
  refine xpLive_of_cleared ?_
  rcases h.prism with hp | hp <;> rw [hp]
  · exact hset
  · exact hset.settled

theorem class_set {t : Nat} {s e u : State} (h : SwapEffect t s e u) (src : Nat) : classPair u.prism src = classPair e.prism src := by
  rcases h.prism with hp | hp <;> rw [hp]
  exact classPair_settled ..

theorem route_set {t : Nat} {s e u : State} (h : SwapEffect t s e u) {sink src : Nat}
    (hset : ∃ x ∈ e.prism.routes, x.sink = sink ∧ x.source = some src ∧ x.dying = none) :
    ∃ x ∈ u.prism.routes, x.sink = sink ∧ x.source = some src := by
  obtain ⟨x, hx, hsink, hsrc, hdying⟩ := hset
  rcases h.prism with hp | hp <;> rw [hp]
  · exact ⟨x, hx, hsink, hsrc⟩
  · exact ⟨_, List.mem_map_of_mem (List.mem_filter.2 ⟨hx, by simp [hsrc, hdying]⟩), hsink, hsrc⟩

theorem route_cleared {t : Nat} {s e u : State} (h : SwapEffect t s e u) {sink : Nat}
    (hset : ∀ x ∈ e.prism.routes, x.sink = sink → x.source = none) : ∀ x ∈ u.prism.routes, x.sink = sink → x.source = none := by
  rcases h.prism with hp | hp <;> rw [hp]
  · exact hset
  · intro y hy hsink
    obtain ⟨x, hx, rfl⟩ := List.mem_map.1 hy
    exact hset x (List.mem_filter.1 hx).1 hsink

/-! A commit of a group. -/

theorem mem_of_mem_takeEpoch {x : Staged} {l : List Staged} {k : Nat} (h : x ∈ (takeEpoch k l).1) : x ∈ l := by
  induction l generalizing k with
  | nil => exact h
  | cons y l ih =>
    unfold takeEpoch at h
    split at h
    · exact absurd h List.not_mem_nil
    · rcases List.mem_cons.1 h with h | h
      · exact h ▸ List.mem_cons_self
      · exact List.mem_cons_of_mem _ (ih h)

theorem sansAudio_tellNoClock (d : Nat) (s : State) : sansAudio (tellNoClock d s) = sansAudio s := sansAudio_record ..

theorem sansAudio_applyStaged {acc : State × Bool} {x : Staged} (h : (opInfo x.cmd).groupable = true) :
    sansAudio (applyStaged acc x).1 = sansAudio acc.1 := by
  unfold applyStaged
  split
  · exact sansAudio_tellNoClock ..
  · split
    · next m hm => exact sansAudio_groupable _ _ h hm
    · rfl

theorem sansAudio_stagedRun {l : List Staged} (hl : ∀ x ∈ l, (opInfo x.cmd).groupable = true) (acc : State × Bool) :
    sansAudio (l.foldl applyStaged acc).1 = sansAudio acc.1 := by
  induction l generalizing acc with
  | nil => rfl
  | cons x l ih =>
    rw [List.foldl_cons, ih (fun y hy => hl y (List.mem_cons_of_mem _ hy)), sansAudio_applyStaged (hl x List.mem_cons_self)]

/-- What a commit keeps of a state: the Last, the tenants there are, and of one its pending commands and its mirror. -/
def commitView (t : Nat) (s : State) : Last × Nat × List Pending × MirrorState :=
  (s.last, s.tenants.length, (s.tenant t).pend, (s.tenant t).mirror)

theorem commitView_of_sansAudio (t : Nat) {s u : State} (h : sansAudio u = sansAudio s) : commitView t u = commitView t s :=
  (congrArg (commitView t) h :)

theorem RepliesOnly.commitView {s u : State} (h : RepliesOnly s u) (t : Nat) : commitView t u = commitView t s := by
  have hframe := h.frame
  have hlast : u.last = s.last := (congrArg (fun x => x.last) hframe :)
  have hlen : u.tenants.length = s.tenants.length := by simpa using congrArg List.length h.tenants
  have hmirror : (u.tenant t).mirror = (s.tenant t).mirror := (congrArg Tenant.mirror (h.tenant t) :)
  rw [Machine.commitView, hlast, hlen, h.pend t, hmirror]
  rfl

theorem commitView_modGroup (t k num : Nat) (f : Group → Group) (s : State) : commitView t (modGroup k num f s) = commitView t s := by
  have hpend : ((modGroup k num f s).tenant t).pend = (s.tenant t).pend :=
    nth_of_map_eq (map_updAt s.tenants k (fun n => { n with groups := n.groups.map fun g => if g.num = num then f g else g }) Tenant.pend
      fun _ => rfl) t
  have hmirror : ((modGroup k num f s).tenant t).mirror = (s.tenant t).mirror :=
    nth_of_map_eq (map_updAt s.tenants k (fun n => { n with groups := n.groups.map fun g => if g.num = num then f g else g }) Tenant.mirror
      fun _ => rfl) t
  have hlen : (modGroup k num f s).tenants.length = s.tenants.length := length_updAt ..
  rw [commitView, hpend, hmirror, hlen]
  rfl

theorem repliesOnly_told (b : Prop) [Decidable b] (c o : Nat) (d : List (Nat × Nat)) (s : State) :
    RepliesOnly s (if b then record c o d s else s) := by
  split
  · exact (RepliesOnly.refl s).record c o d
  · exact .refl s

/-- The state in which the commands of a commit's first epoch have taken effect. -/
theorem applyEpoch_eq {t : Nat} {p : Pending} {r : Req} {g : Group} {s : State} (next : Time) (done : Nat)
    (hg : groupOf (s.tenant t) r.group.toNat = some g) (hone : (takeEpoch 0 g.staged).2 = []) (hours : fabricCommit s t p.cmd = false)
    (hall : g.staged.all (fun x => (opInfo x.cmd).groupable) = true) : ∃ x y,
      applyEpoch t p r next done s = post t p.timed x (dropGroup t g.num y) ∧
      ∃ z, RepliesOnly (dropPend t p z) y ∧ commitView t z = commitView t s := by
  have hstaged : ∀ x ∈ (takeEpoch 0 g.staged).1, (opInfo x.cmd).groupable = true :=
    fun x hx => List.all_eq_true.1 hall x (mem_of_mem_takeEpoch hx)
  unfold applyEpoch
  simp only [hg, hone, hours]
  rw [if_neg (not_not_intro rfl)]
  refine ⟨_, _, rfl, _, repliesOnly_told .., ?_⟩
  rw [commitView_modGroup, commitView_of_sansAudio t (sansAudio_stagedRun hstaged _), commitView_modGroup]
  split
  · exact (repliesOnly_tellLate ..).commitView t
  · rfl

/-- A commit whose commands fit one epoch ends at its boundary: its group closes. -/
theorem applyEpoch_closes {t : Nat} {p : Pending} {r : Req} {g : Group} {s : State} (next : Time) (done : Nat)
    (hg : groupOf (s.tenant t) r.group.toNat = some g) (hone : (takeEpoch 0 g.staged).2 = []) (hours : fabricCommit s t p.cmd = false)
    (hall : g.staged.all (fun x => (opInfo x.cmd).groupable) = true) (hlt : t < s.tenants.length) (hpend : (s.tenant t).pend = [p]) :
    t < (applyEpoch t p r next done s).tenants.length ∧ ((applyEpoch t p r next done s).tenant t).pend = [] ∧
      groupOf ((applyEpoch t p r next done s).tenant t) r.group.toNat = none ∧
      ((applyEpoch t p r next done s).tenant t).mirror = (s.tenant t).mirror ∧ (applyEpoch t p r next done s).last = s.last := by
  obtain ⟨x, y, hrun, z, hy, hz⟩ := applyEpoch_eq next done hg hone hours hall
  rw [hrun]
  clear hrun
  have hnum : g.num = r.group.toNat := by simpa using List.find?_some hg
  obtain ⟨hzlast, hzrest⟩ := Prod.mk.inj hz
  obtain ⟨hzlen, hzrest⟩ := Prod.mk.inj hzrest
  obtain ⟨hzpend, hzmirror⟩ := Prod.mk.inj hzrest
  have hzlt : t < z.tenants.length := hzlen ▸ hlt
  have hdrop : (dropPend t p z).tenant t = { z.tenant t with pend := (z.tenant t).pend.erase p } :=
    tenant_modTenant_self (fun n => { n with pend := n.pend.erase p }) hzlt
  obtain ⟨hylast, hyrest⟩ := Prod.mk.inj (hy.commitView t)
  obtain ⟨hylen, hyrest⟩ := Prod.mk.inj hyrest
  obtain ⟨hypend, hymirror⟩ := Prod.mk.inj hyrest
  have hylt : t < y.tenants.length := by
    rw [hylen]
    exact (length_updAt ..).symm ▸ hzlt
  have hgone : (dropGroup t g.num y).tenant t = { y.tenant t with groups := (y.tenant t).groups.filter fun q => q.num ≠ g.num } :=
    tenant_modTenant_self (fun n => { n with groups := n.groups.filter fun q => q.num ≠ g.num }) hylt
  have hpost := repliesOnly_post t p.timed x (dropGroup t g.num y)
  obtain ⟨hwlast, hwrest⟩ := Prod.mk.inj (hpost.commitView t)
  obtain ⟨hwlen, hwrest⟩ := Prod.mk.inj hwrest
  obtain ⟨hwpend, hwmirror⟩ := Prod.mk.inj hwrest
  refine ⟨?_, ?_, ?_, ?_, ?_⟩
  · rw [hwlen]
    exact (length_updAt ..).symm ▸ hylt
  · rw [hwpend, hgone, hypend, hdrop, hzpend, hpend, List.erase_cons_head]
  · rw [groupOf, hpost.groups t, hgone]
    simp [hnum]
  · rw [hwmirror, hgone, hymirror, hdrop, hzmirror]
  · rw [hwlast]
    exact hylast.trans hzlast

theorem groupCommit_closes {t : Fin 16} {p : Pending} {r : Req} {g : Group} {s : State} (hhalt : ctlHalted s = false) (hfw : fwRuns s = true)
    (hup : mirrorUp s = true) (hturn : swapOutranked s t = false) (hpend : (s.tenant t).pend = [p])
    (hpick : swapsAt s t (swapPoint s t) p = true) (hcmd : p.cmd = .groupCommit r) (harmed : s.plink.armed = none)
    (hg : groupOf (s.tenant t) r.group.toNat = some g) (hone : (takeEpoch 0 g.staged).2 = [])
    (hall : g.staged.all (fun x => (opInfo x.cmd).groupable) = true) (hlt : t.val < s.tenants.length) :
    ∃ u, exec (.mirrorSwap t) s = .next (msixScan 16 u) ∧ (u.tenant t).pend = [] ∧ groupOf (u.tenant t) r.group.toNat = none ∧
      (u.tenant t).mirror.swaps = (s.tenant t).mirror.swaps + 1 ∧ u.last = s.last := by
  have hexec : exec (.mirrorSwap t) s = fin (swapAt t.val (swapPoint s t.val) s) :=
    if_neg (by rw [hhalt, hfw, hup, hturn]; decide)
  have hpicks : swapPicks s t (swapPoint s t) = [p] := by
    rw [swapPicks, hpend, List.filter_cons_of_pos hpick, List.filter_nil]
  have hours : fabricCommit s t p.cmd = false := by
    simp only [hcmd, fabricCommit, harmed]
    rfl
  rw [swapAt_one hpicks] at hexec
  refine ⟨_, hexec, ?_⟩
  clear hexec
  have hend := endSwap_ended t (applySwap t (boundaryTime s (swapFs s t) (swapPoint s t) + 1)
    (boundaryNs s (swapFs s t) (swapPoint s t) 0).toNat s p)
  generalize endSwap t _ = u at hend ⊢
  have happly : ∀ next done, applySwap t next done s p = applyEpoch t p r next done s := fun next done => by
    rw [applySwap, hcmd]
  rw [happly] at hend
  obtain ⟨hlen, hnone, hgroup, hmirror, hlast⟩ := applyEpoch_closes (boundaryTime s (swapFs s t) (swapPoint s t) + 1)
    (boundaryNs s (swapFs s t) (swapPoint s t) 0).toNat hg hone hours hall hlt hpend
  have htenant := hend.tenant hlen
  refine ⟨?_, ?_, ?_, hend.last.trans hlast⟩
  · rw [htenant]
    exact hnone
  · rw [htenant]
    exact hgroup
  · rw [htenant, flipped, hmirror]

/-- The last command of a recall: the buses that its entries configure. -/
theorem busTakes_recall {t scene : Nat} {es : List (List Byte)} {e : List Byte} {s : State} (he : e ∈ es) (hkind : peekLe e 0 1 = 4)
    (hone : ∀ f ∈ es, peekLe f 0 1 = 4 → peekLe f 1 1 = peekLe e 1 1 → f = e) (howner : ownerOf s 3 (peekLe e 1 1) = t)
    (hb : peekLe e 1 1 < s.prism.buses.length) : BusTakes e (recallScene t scene es s) := by
  obtain ⟨d, hd⟩ := recallScene_eq t scene es s
  have hbuses : (recallClears t es s).prism.buses = s.prism.buses :=
    recallClears_keeps (fun v => v.prism.buses) (fun _ _ _ _ => rfl) (fun _ _ _ _ _ => rfl) buses_changeClass t es s
  have howners : (recallClears t es s).owners = s.owners :=
    recallClears_keeps (fun v => v.owners) (fun _ _ _ _ => rfl) (fun _ _ _ _ _ => rfl)
      (fun a b c v => (congrArg (fun x => x.owners) (sansAudio_changeClass a b c v) :)) t es s
  rw [hd, BusTakes, bus_record]
  exact busTakes_foldl he hkind hone ((ownerOf_of_owners howners (by decide) _).trans howner) (hbuses ▸ hb)

/-- Settles O40: the command has its effect, and the end of the swap leaves it. -/
theorem swapTakesEffect : Obligations.SwapTakesEffect := by
  refine ⟨fun t p r s hhalt hfw hup hturn hs hpend hpick hr htenant hne hruns => ?_, fun t p r g s hhalt hfw hup hturn hpend hpick hcmd
    htenant harmed hg hone hall hlt => groupCommit_closes hhalt hfw hup hturn hpend hpick hcmd harmed hg hone hall hlt⟩
  have hlt : t.val < s.tenants.length := by
    simp only [shaped, Bool.and_eq_true, decide_eq_true_eq] at hs
    have hlen : s.tenants.length = 16 := by tauto
    rw [hlen]
    exact t.isLt
  obtain ⟨m, u, hm, hexec, hend⟩ := mirrorSwap_effect hhalt hfw hup hturn hlt hpend hpick hr hne hruns
  obtain ⟨-, howners, -, hprism, hlens⟩ := fields_atBoundary t p s
  generalize atBoundary t p s = v at hend howners hprism hlens
  have hbuses : v.prism.buses.length = 128 := by rw [hprism, shaped_buses_length hs]
  have hbus : ∀ k, v.bus k = s.bus k := fun k => by rw [State.bus, hprism]; rfl
  refine ⟨u, hexec, hend.pend, hend.swaps, hend.bank, hend.last, hend.owners, hend.store, fun l1 i l2 hcmd hlast => ?_, fun l i hcmd hi => ?_,
    fun sink src flags hcmd => ?_, fun src cls wind hcmd => ?_, fun b fam rate mode range hcmd hb => ?_, fun b range hcmd hb => ?_,
    fun l1 i l2 h hcmd hlast hcore hslot howner hshape hw hkernel => ?_, fun scene hcmd e he hkind hone howner hb => ?_⟩
  all_goals
    rw [hcmd] at hm
    cases hm
  · exact entry_set hend (xpSet_foldl v hlast)
  · exact xp_cleared hend (xpCleared_foldl v hi)
  · refine ⟨fun hsrc => route_set hend ?_, fun hsrc => route_cleared hend ?_⟩
    · simp only [prismRouteM, if_neg hsrc]
      exact setRoute_source ..
    · simp only [prismRouteM, if_pos hsrc]
      exact fun x hx hsink => setRoute_none hx hsink
  · exact (class_set hend _).trans (classPair_changeClass ..)
  · rw [bus_of_ended hend, ← hbus]
    exact configBus_configures (hbuses ▸ hb)
  · refine ⟨by rw [bus_of_ended hend]; exact range_setRange (hbuses ▸ hb), fun k hk => ?_⟩
    rw [bus_of_ended hend, ← hbus]
    exact bus_setRange_other _ _ hk
  · have hcore' : v.core i.core.toNat = s.core i.core.toNat := by rw [State.core, hlens]; rfl
    have hlen : i.core.toNat < v.lens.length := by
      rw [hlens, (shaped_lens hs).1]
      exact hcore
    have hslots : (v.core i.core.toNat).slots.length = 4 := by
      simp only [coreShaped, Bool.and_eq_true, decide_eq_true_eq] at hshape
      rw [hcore']
      tauto
    have hslot' : i.slot.toNat < (v.core i.core.toNat).slots.length := hslots ▸ hslot
    have hshadow := shadowed_putParams (l1 := l1) hlen hslot' (hcore' ▸ hkernel) hw hlast
    have howner' := sansAudio_groupable (i := .lensParam r (l1 ++ i :: l2)) p.copied v rfl rfl
    refine paramOf_of_ended hend hshadow (lt_of_lt_of_eq hlen (length_lens_putParams (l1 ++ i :: l2) v).symm)
      (lt_of_lt_of_eq hslot' (length_slots_putParams _ (l1 ++ i :: l2) v).symm) ?_
    exact (ownerOf_of_owners ((congrArg (fun x => x.owners) howner' :).trans howners) (by decide) _).trans howner
  · have hbusE := busTakes_recall (scene := scene.toNat) he hkind hone ((ownerOf_of_owners howners (by decide) _).trans howner) (hbuses ▸ hb)
    rw [bus_of_ended hend]
    rw [← htenant] at hbusE
    exact hbusE

end Sys2Proof.Machine
end

section
/-! What the work on lost clocks and on holdover leaves of the PLLs, the resets, the fuses and the power state (03, 15). -/

namespace Sys2Proof.Machine

/-- The PLLs, the resets, the fuses and the power state but for the fades it waits for. -/
def sysView (s : State) : BitVec 5 × BitVec 29 × List Fuse × Pwr :=
  (s.sys.pllLock, s.sys.rst, s.sys.fuses, { s.pwr with entering := .none })

/-! Steps that leave all of it. -/

@[simp] theorem sysView_record (c o : Nat) (d : List (Nat × Nat)) (s : State) : sysView (record c o d s) = sysView s := by
  rw [record_eq]
  rfl

@[simp] theorem sysView_respond (q : MatrixReq) (error : Bool) (data : List Byte) (s : State) : sysView (respond q error data s) = sysView s := rfl

@[simp] theorem sysView_modEvrec (f : Evrec → Evrec) (s : State) : sysView (modEvrec f s) = sysView s := rfl

theorem RepliesOnly.sysView {s u : State} (h : RepliesOnly s u) : sysView u = sysView s := (congrArg Machine.sysView h.rest :)

theorem sysView_of_sansAudio {s u : State} (h : sansAudio u = sansAudio s) : sysView u = sysView s := (congrArg sysView h :)

theorem sysView_of_sansEther {s u : State} (h : sansEther u = sansEther s) : sysView u = sysView s := (congrArg sysView h :)

theorem EnumOnly.sysView {s u : State} (h : EnumOnly s u) : sysView u = sysView s := (congrArg Machine.sysView h :)

theorem sysView_of_besideFlash {s u : State} (h : besideFlash u = besideFlash s) : sysView u = sysView s := (congrArg sysView h :)

@[simp] theorem sysView_post (t : Nat) (timed : Bool) (r : Reply) (s : State) : sysView (post t timed r s) = sysView s :=
  (repliesOnly_post t timed r s).sysView

@[simp] theorem sysView_say (r : Req) (i : Instr) (st : Status) (res : List Byte) (s : State) : sysView (say r i st res s) = sysView s :=
  (repliesOnly_say r i st res s).sysView

@[simp] theorem sysView_finishClose (t : Nat) (s : State) : sysView (finishClose t s) = sysView s := (repliesOnly_finishClose t s).sysView

@[simp] theorem sysView_denyReply (timed : Bool) (s : State) (i : Instr) : sysView (denyReply timed s i) = sysView s := by
  unfold denyReply
  split
  · exact sysView_post ..
  · rfl

@[simp] theorem sysView_storeWrite (off : Nat) (l : List (Byte × Bool)) (s : State) : sysView (storeWrite off l s) = sysView s := by
  rw [storeWrite_eq]
  rfl

@[simp] theorem sysView_advanceCopy (t : Nat) (s : State) : sysView (advanceCopy t s) = sysView s := by
  unfold advanceCopy
  split
  · split
    · rfl
    · dsimp only
      unfold copyTo
      split
      · exact sysView_storeWrite ..
      · rfl
  · rfl

@[simp] theorem sysView_advanceCopies (s : State) : sysView (advanceCopies s) = sysView s := by
  unfold advanceCopies
  split
  · exact foldl_keeps sysView (f := fun s t => advanceCopy t s) (fun v t => sysView_advanceCopy t v) _ s
  · rfl

@[simp] theorem sysView_answer (who : RegMaster) (error write : Bool) (v : Word) (s : State) : sysView (answer who error write v s) = sysView s := by
  cases who <;> rfl

@[simp] theorem sysView_giveUp (h : HeldAccess) (s : State) : sysView (giveUp h s) = sysView s := by
  unfold giveUp
  split
  · exact sysView_answer ..
  · split
    · exact sysView_post ..
    · rfl

theorem sysView_storeReadAs (master tag off n : Nat) (s : State) : sysView (storeReadAs master tag off n s).1 = sysView s := by
  unfold storeReadAs
  dsimp only
  split
  · exact sysView_advanceCopies s
  · exact (sysView_record ..).trans (sysView_advanceCopies s)

theorem sysView_storeWriteAs (master tag off : Nat) (l : List (Byte × Bool)) (s : State) :
    sysView (storeWriteAs master tag off l s).1 = sysView s := by
  unfold storeWriteAs
  dsimp only
  split
  · rw [sysView_storeWrite, sysView_advanceCopies]
  · exact (sysView_record ..).trans (sysView_advanceCopies s)

@[simp] theorem sysView_debugStore (a : Nat) (w : Option Word) (s : State) : sysView (debugStore a w s) = sysView s := by
  unfold debugStore
  split
  · rfl
  · split
    · exact sysView_storeReadAs ..
    · exact sysView_storeWriteAs ..

@[simp] theorem sysView_releaseLock (s : State) : sysView (releaseLock s) = sysView s := by
  unfold releaseLock apRetry
  split
  · rfl
  · split
    · rfl
    · exact sysView_debugStore ..

theorem sysView_settleBurst (s : State) (b : Burst) : sysView (settleBurst s b) = sysView s := by
  unfold settleBurst
  dsimp only
  rw [apply_ite sysView, apply_ite sysView, sysView_respond, sysView_record, sysView_record, ite_self, ite_self]

@[simp] theorem sysView_settleBursts (s : State) : sysView (settleBursts s) = sysView s := by
  have hbursts : sysView (s.store.bursts.foldl settleBurst s) = sysView s := foldl_keeps sysView sysView_settleBurst _ s
  unfold settleBursts
  dsimp only
  split
  · exact (sysView_releaseLock _).trans hbursts
  · exact hbursts

@[simp] theorem sysView_endAccesses (s : State) : sysView (endAccesses s) = sysView s := by
  have hheld : sysView (s.sys.held.foldl (fun s h => giveUp h s) s) = sysView s :=
    foldl_keeps sysView (f := fun s (h : HeldAccess) => giveUp h s) (fun v h => sysView_giveUp h v) _ s
  unfold endAccesses
  generalize s.sys.held.foldl (fun s h => giveUp h s) s = v at hheld ⊢
  have hsends : ∀ (l : List Burst) (m : List MatrixReq) (v : State), sysView (m.foldl (fun s q => respond q true [] s)
      (l.foldl (fun s b => respond { b.req with beats := b.req.beats - b.done } true [] s) v)) = sysView v := fun l m v =>
    (foldl_keeps sysView (f := fun s (q : MatrixReq) => respond q true [] s) (fun _ _ => rfl) _ _).trans
      (foldl_keeps sysView (f := fun s (b : Burst) => respond { b.req with beats := b.req.beats - b.done } true [] s) (fun _ _ => rfl) _ _)
  dsimp only
  split
  · exact (hsends _ _ _).trans hheld
  · exact (hsends _ _ _).trans hheld

@[simp] theorem sysView_closeSession (c : Nat) (s : State) : sysView (closeSession c s) = sysView s := by
  have hend : sysView (endDebugAccess s) = sysView s := by
    unfold endDebugAccess
    have hheld : sysView (s.sys.held.foldl (fun s h => if h.who = .debug then answer h.who true h.write 0 s else s) s) = sysView s :=
      foldl_keeps sysView (f := fun s (h : HeldAccess) => if h.who = .debug then answer h.who true h.write 0 s else s) (fun v h => by
        split
        · exact sysView_answer ..
        · rfl) _ s
    dsimp only
    split
    · exact hheld
    · exact hheld
  unfold closeSession
  split
  · rfl
  · refine (sysView_record ..).trans (Eq.trans ?_ hend)
    refine foldl_keeps sysView (f := fun s k => if s.dbg.halted.getLsbD k then setHalted k false s else s) (fun v k => ?_) _ _
    split
    · exact sysView_record ..
    · rfl

@[simp] theorem sysView_cutCommit (s : State) : sysView (cutCommit s) = sysView s := by
  have hslot : ∀ x b, sysView (setOtherSlot x b s) = sysView s := fun x b => by
    unfold setOtherSlot
    dsimp only
    rw [sysView_modEvrec]
    split <;> rfl
  unfold cutCommit
  split
  · split
    · split
      · exact hslot ..
      · rfl
    · rfl
  · rfl

/-! Class 2 commands that end. -/

@[simp] theorem sysView_startDump (k : Nat) (b : Bool) (s : State) : sysView (startDump k b s) = sysView s := by
  unfold startDump
  split
  · split
    · rfl
    · exact sysView_record ..
  · exact sysView_record ..

theorem sysView_startEnumerate (b : Bool) (t : Nat) (s : State) : sysView (startEnumerate b t s) = sysView s := by
  unfold startEnumerate
  refine (EnumOnly.enumGo ..).sysView.trans ?_
  dsimp only
  split
  · rfl
  · exact sysView_record ..

/-- An event told or not. -/
theorem sysView_told (b : Prop) [Decidable b] (c o : Nat) (d : List (Nat × Nat)) (s : State) :
    sysView (if b then record c o d s else s) = sysView s := by
  rw [apply_ite sysView, sysView_record, ite_self]

/-- What a command does when it is refused in its queue, and when it begins, leaves the view. -/
theorem sysView_meaning {i : Instr} {m : Meaning} (hm : meaningOf i = some m) (st : Status) (s : State) :
    sysView (m.onRefuse st s) = sysView s ∧ sysView (m.start s) = sysView s := by
  cases i
  case evrecConfig => cases hm; exact ⟨sysView_told .., rfl⟩
  case evrecFlush => cases hm; exact ⟨sysView_told .., sysView_startDump ..⟩
  case evrecErase r target => cases hm; exact ⟨rfl, apply_ite sysView (target = 2) _ _ |>.trans (ite_self _)⟩
  case fuseProgram => cases hm; exact ⟨sysView_told .., rfl⟩
  case sceneRecall =>
    cases hm
    refine ⟨?_, rfl⟩
    dsimp only [sceneRecallM]
    split
    · split
      · exact sysView_told ..
      · rfl
    · rfl
  case lensLoad =>
    cases hm
    refine ⟨?_, rfl⟩
    dsimp only [lensLoadM]
    split
    · unfold tellImage
      split
      · exact sysView_record ..
      · rfl
    · rfl
  case wdogConfig => cases hm; exact ⟨sysView_told .., rfl⟩
  case plinkEnumerate => cases hm; exact ⟨rfl, sysView_startEnumerate ..⟩
  all_goals cases hm <;> exact ⟨rfl, rfl⟩

theorem sysView_startNext (f t : Nat) (s : State) : sysView (startNext f t s) = sysView s := by
  induction f generalizing s with
  | zero => rfl
  | succ f ih =>
    unfold startNext
    split
    · rfl
    · next c l hqueue =>
      dsimp only
      split
      · next r m hr hm =>
        split
        · exact (ih _).trans (sysView_denyReply ..)
        · split
          · exact (ih _).trans ((sysView_say ..).trans (sysView_meaning hm _ _).1)
          · exact (sysView_meaning hm .ok _).2
      · exact ih _

theorem sysView_stopClass2 (i : Instr) (s : State) : sysView (stopClass2 i s) = sysView s := by
  unfold stopClass2
  split
  · exact sysView_advanceCopy ..
  · exact sysView_cutCommit s
  · rfl

/-- A class 2 command that ends, when its effect leaves the view. -/
theorem sysView_endClass2 {t : Nat} {got : List Byte} {s : State} (h : ∀ c l m, (s.tenant t).class2 = c :: l → meaningOf c.cmd = some m →
    sysView (m.effect got s).1 = sysView s) : sysView (endClass2 t got s) = sysView s := by
  unfold endClass2
  split
  · rfl
  · next c l hqueue =>
    split
    · next r m hr hm =>
      split
      · rfl
      · dsimp only
        refine (sysView_finishClose ..).trans ((sysView_startNext ..).trans ?_)
        split
        · exact (sysView_denyReply ..).trans (sysView_stopClass2 ..)
        · exact (sysView_say ..).trans (h c l m hqueue hm)
    · rfl

@[simp] theorem sysView_settleClass2 (s : State) : sysView (settleClass2 s) = sysView s := by
  unfold settleClass2
  refine foldl_keeps sysView (fun v t => ?_) _ s
  split
  · next c l hqueue =>
    split
    · next r flags m hcmd hm =>
      split
      · refine sysView_endClass2 fun c' l' m' hqueue' hm' => ?_
        rw [hqueue] at hqueue'
        obtain ⟨rfl, -⟩ := List.cons.inj hqueue'
        rw [hcmd] at hm'
        cases hm'
        exact (EnumOnly.reattachNext _).sysView
      · rfl
    · next r fid tenant group m hcmd hm =>
      split
      · refine sysView_endClass2 fun c' l' m' hqueue' hm' => ?_
        rw [hqueue] at hqueue'
        obtain ⟨rfl, -⟩ := List.cons.inj hqueue'
        rw [hcmd] at hm'
        cases hm'
        dsimp only [fabricPrepareM]
        split <;> rfl
      · rfl
    · rfl
  · rfl

/-! Steps that leave all but the domains they hold in reset. -/

/-- From s to u no PLL locks or unlocks, no fuse changes, the power state keeps, and no domain leaves reset. -/
structure HoldStep (s u : State) : Prop where
  pll : u.sys.pllLock = s.sys.pllLock
  fuses : u.sys.fuses = s.sys.fuses
  pwr : { u.pwr with entering := .none } = { s.pwr with entering := .none }
  rst : ∀ d, s.sys.rst.getLsbD d = true → u.sys.rst.getLsbD d = true

namespace HoldStep

theorem of_view {s u : State} (h : sysView u = sysView s) : HoldStep s u where
  pll := (congrArg (fun x => x.1) h :)
  fuses := (congrArg (fun x => x.2.2.1) h :)
  pwr := (congrArg (fun x => x.2.2.2) h :)
  rst := fun d hd => (congrArg (fun x => x.2.1.getLsbD d) h :).trans hd

theorem refl (s : State) : HoldStep s s := of_view rfl

theorem trans {s u v : State} (h : HoldStep s u) (h' : HoldStep u v) : HoldStep s v where
  pll := h'.pll.trans h.pll
  fuses := h'.fuses.trans h.fuses
  pwr := h'.pwr.trans h.pwr
  rst := fun d hd => h'.rst d (h.rst d hd)

/-- A step that leaves the view comes after. -/
theorem view {s u v : State} (h : HoldStep s u) (hv : sysView v = sysView u) : HoldStep s v := h.trans (of_view hv)

theorem foldl {α : Type} {f : State → α → State} (hf : ∀ s x, HoldStep s (f s x)) (l : List α) (s : State) : HoldStep s (l.foldl f s) := by
  induction l generalizing s with
  | nil => exact .refl s
  | cons x l ih => exact (hf s x).trans (ih _)

end HoldStep

theorem getLsbD_setBit_true {w d : Nat} {r : BitVec w} (i : Nat) (h : r.getLsbD d = true) : (setBit r i true).getLsbD d = true := by
  simp [setBit, h]

theorem getLsbD_setBits {d : Nat} {r : BitVec 29} (l : List Nat) (h : r.getLsbD d = true) :
    (l.foldl (fun r d => setBit r d true) r).getLsbD d = true := by
  induction l generalizing r with
  | nil => exact h
  | cons i l ih => exact ih (getLsbD_setBit_true i h)

theorem getLsbD_setBits_mem {d : Nat} {r : BitVec 29} {l : List Nat} (hd : d < 29) (h : d ∈ l) :
    (l.foldl (fun r d => setBit r d true) r).getLsbD d = true := by
  obtain ⟨l1, l2, rfl⟩ := List.append_of_mem h
  rw [List.foldl_append, List.foldl_cons]
  exact getLsbD_setBits l2 (getLsbD_setBit_self _ true hd)

theorem holdStep_holdDomains (l : List Nat) (s : State) : HoldStep s (holdDomains l s) :=
  HoldStep.view (u := modSys (fun y => { y with rst := l.foldl (fun r d => setBit r d true) y.rst }) s)
    ⟨rfl, rfl, rfl, fun _ hd => getLsbD_setBits l hd⟩ (sysView_settleBursts _)

theorem rst_holdDomains {d : Nat} {l : List Nat} (s : State) (hd : d < 29) (h : d ∈ l) : (holdDomains l s).sys.rst.getLsbD d = true :=
  (congrArg (fun x => x.2.1.getLsbD d) (sysView_settleBursts _) :).trans (getLsbD_setBits_mem hd h)

/-! Units lost. -/

theorem sysView_setServo (who : Nat) (new : Servo) (s : State) : sysView (setServo who new s) = sysView s :=
  (congrArg sysView (sansEvents_setServo s who new s) :)

@[simp] theorem sysView_sourceLostOp (s : State) : sysView (sourceLostOp s) = sysView s := by
  unfold sourceLostOp
  split
  · exact (sysView_record ..).trans (sysView_setServo ..)
  · exact (sysView_record ..).trans (sysView_setServo ..)
  · rfl

@[simp] theorem sysView_disarm (s : State) : sysView (disarm s) = sysView s := by
  unfold disarm
  split <;> rfl

theorem sysView_fabricMissed (fid cause : Nat) (s : State) : sysView (fabricMissed fid cause s) = sysView s :=
  (sysView_record ..).trans (sysView_disarm s)

theorem sysView_unroot (s : State) : sysView (unroot s) = sysView s := by
  unfold unroot
  split
  · rfl
  · have hlost : ∀ v : State, sysView (if v.last.src = 0x20 then sourceLostOp v else v) = sysView v := fun v => by
      rw [apply_ite sysView, sysView_sourceLostOp, ite_self]
    refine (hlost _).trans ?_
    split
    · exact (sysView_fabricMissed ..).trans (sysView_record ..)
    · exact sysView_record ..

theorem sysView_settlePrepare (s : State) : sysView (settlePrepare s) = sysView s := by
  unfold settlePrepare
  split
  · split
    · rfl
    · exact foldl_keeps sysView (f := fun s p => sendExpress p (.prepareAck _ _ _ _ _) s) (fun _ _ => rfl) _ _
  · rfl

theorem sysView_portDown (p cause : Nat) (s : State) : sysView (portDown p cause s) = sysView s := by
  by_cases hst : (s.pl p).st = 0
  · rw [portDown, if_pos hst]
  · have hdown : sysView (downed p cause s) = sysView s := sysView_record ..
    have hrole : sysView (afterRole p cause s) = sysView s := by
      unfold afterRole
      rw [apply_ite sysView, apply_ite sysView, apply_ite sysView, sysView_unroot, sysView_sourceLostOp, hdown, ite_self, ite_self, ite_self]
    have henum : ∀ v, sysView (afterEnum p v) = sysView v := fun v => (afterEnum_only p v).sysView
    rw [portDown_eq cause hst, sysView_settlePrepare, henum, hrole]

theorem holdStep_plLost (p : Nat) (s : State) : HoldStep s (plLost p s) :=
  (HoldStep.of_view (u := modPl p (fun q => { q with tailDue := false }) (portDown p 3 s)) (sysView_portDown p 3 s)).trans
    (holdStep_holdDomains ..)

theorem sysView_setLink (p : Nat) (up : Bool) (cause : Nat) (s : State) : sysView (setLink p up cause s) = sysView s :=
  sysView_of_sansEther (sansEther_setLink p up cause s)

theorem sysView_bothRoles (s : State) : sysView (bothRoles s) = sysView s := sysView_of_sansEther (SameBut.bothRoles s).sansEther

/-- The port of ETHn before its domain is held. -/
theorem holdStep_ethLost (p : Nat) (s : State) : HoldStep s (ethLost p s) ∧ (16 + p < 29 → (ethLost p s).sys.rst.getLsbD (16 + p) = true) := by
  unfold ethLost
  dsimp only
  have hlink : sysView (if (s.ethPort p).link = true then setLink p false ((drawFree s).1.toNat % 256) (drawFree s).2 else s) = sysView s := by
    rw [apply_ite sysView, sysView_setLink]
    exact ite_self _
  generalize (if (s.ethPort p).link = true then setLink p false ((drawFree s).1.toNat % 256) (drawFree s).2 else s) = v at hlink ⊢
  have hheld := fun w => holdStep_holdDomains [16 + p] w
  have hrst := fun w (h : 16 + p < 29) => rst_holdDomains w h (List.mem_singleton_self (16 + p))
  split
  · refine ⟨(HoldStep.trans ?_ (hheld _)).view (sysView_bothRoles _), fun h => ?_⟩
    · exact .of_view hlink
    · exact (congrArg (fun x => x.2.1.getLsbD (16 + p)) (sysView_bothRoles _) :).trans (hrst _ h)
  · refine ⟨HoldStep.trans ?_ (hheld _), hrst _⟩
    exact .of_view hlink

theorem sysView_settlePrism (s : State) : sysView (settlePrism s) = sysView s := by
  obtain ⟨freed, hsettle⟩ := settlePrism_eq s
  rw [hsettle, sysView_of_sansAudio (sansAudio_tellFreed ..)]
  rfl

theorem sysView_modPrism (f : Prism → Prism) (s : State) : sysView (modPrism f s) = sysView s := rfl

theorem sysView_entering (e : Entering) (s : State) : sysView (modPwr (fun p => { p with entering := e }) s) = sysView s := rfl

theorem sysView_stopAllPorts (s : State) : sysView (stopAllPorts s) = sysView s := rfl

theorem sysView_loseCores (s : State) : sysView (loseCores s) = sysView s := rfl

theorem sysView_emptyPrism (s : State) : sysView (emptyPrism s) = sysView s := rfl

theorem sysView_setCore (mhz : Nat) (s : State) : sysView (setCore mhz s) = sysView s := rfl

theorem holdStep_holdStopUnits (s : State) : HoldStep s (holdStopUnits s) := by
  have hstop : HoldStep s (modPrism (fun m => { m with sinkFades := [], srcFades := [] })
      (modPwr (fun p => { p with entering := .none }) (stopAllPorts (loseCores (emptyPrism (settlePrism s)))))) :=
    .of_view (by rw [sysView_modPrism, sysView_entering, sysView_stopAllPorts, sysView_loseCores, sysView_emptyPrism, sysView_settlePrism])
  unfold holdStopUnits
  dsimp only
  generalize modPrism (fun m => { m with sinkFades := [], srcFades := [] })
    (modPwr (fun p => { p with entering := .none }) (stopAllPorts (loseCores (emptyPrism (settlePrism s))))) = v at hstop ⊢
  refine (HoldStep.trans ?_ (holdStep_holdDomains [24] _)).view (sysView_setCore ..)
  have hite : ∀ (b : Prop) [Decidable b] (w x : State), HoldStep s w → HoldStep w x → HoldStep s (if b then w else x) := by
    intro b _ w x hw hx
    split
    · exact hw
    · exact hw.trans hx
  exact hite _ _ _ (hite _ _ _ (hite _ _ _ hstop (.of_view rfl)) (.foldl (fun w p => (holdStep_ethLost p w).1) _ _))
    (.foldl (fun w p => holdStep_plLost p w) _ _)

theorem holdStep_fadesOver (s : State) : HoldStep s (fadesOver s) := by
  unfold fadesOver
  split
  · exact .refl s
  · split
    · exact .of_view rfl
    · exact holdStep_holdStopUnits s
    · exact .refl s

theorem sysView_portClockLost (p : Nat) (s : State) : sysView (portClockLost p s) = sysView s := by
  have hslip : ∀ b : Bool, PortOnly p s (if b then slipUnder p false s else s) := fun b => by
    cases b
    · exact .refl p s
    · exact (fifoStep_slipUnder p false s).only
  unfold portClockLost
  dsimp only
  split
  · split
    · rfl
    · exact sysView_of_sansAudio ((sansAudio_modAport ..).trans (hslip _).sansAudio)
  · rfl

theorem sysView_portsLost (l : List Nat) (s : State) : sysView (portsLost l s) = sysView s :=
  foldl_keeps sysView (f := fun s p => portClockLost p s) (fun v p => sysView_portClockLost p v) l s

theorem sysView_dropPortFifos (s : State) : sysView (dropPortFifos s) = sysView s := rfl

theorem holdStep_coreLost (s : State) : HoldStep s (coreLost s) ∧ (coreLost s).sys.rst.getLsbD 2 = true := by
  have hlost : HoldStep (holdDomains [2] s) (coreLost s) := by
    unfold coreLost
    refine HoldStep.trans ?_ (holdStep_fadesOver _)
    exact .of_view (by rw [sysView_modPrism, sysView_dropPortFifos, sysView_emptyPrism, sysView_settlePrism, sysView_endAccesses])
  exact ⟨(holdStep_holdDomains ..).trans hlost, hlost.rst 2 (rst_holdDomains s (by decide) (List.mem_singleton_self 2))⟩

theorem holdStep_timeLost (s : State) : HoldStep s (timeLost s) ∧ (timeLost s).sys.rst.getLsbD 3 = true := by
  have hrun : ∀ (l : List Nat) (v : State), HoldStep v ((List.range 4).foldl (fun s p => ethLost p s)
      ((List.range 4).foldl (fun s p => plLost p s) (portsLost l v))) := fun l v =>
    ((HoldStep.of_view (sysView_portsLost l v)).trans (.foldl (fun w p => holdStep_plLost p w) _ _)).trans
      (.foldl (fun w p => (holdStep_ethLost p w).1) _ _)
  unfold timeLost
  dsimp only
  generalize allMasters s = l
  generalize hv : holdDomains ([3, 4, 5, 6, 7] ++ l.map fun p => 8 + p) { s with trig := { s.trig with
    stoppedAt := s.trig.stoppedAt.orElse fun _ => some s.sys.aonTicks } } = v
  have hheld : HoldStep s v := by
    rw [← hv]
    refine HoldStep.trans ?_ (holdStep_holdDomains ..)
    exact .of_view rfl
  have hrst : v.sys.rst.getLsbD 3 = true := hv ▸ rst_holdDomains _ (by decide) (List.mem_append_left _ List.mem_cons_self)
  have hfrozen : HoldStep v (freezePins (modLast (fun l => { l with coarse := true }) v)) := .of_view rfl
  exact ⟨(hheld.trans hfrozen).trans (hrun l _), (hfrozen.trans (hrun l _)).rst 3 hrst⟩

theorem holdStep_slowLost (s : State) : HoldStep s (holdDomains [1, 25] (modSys (fun y => { y with running := false, spiWord := [] })
    (nvmOff (resetDbg (closeSession 2 (evrecStop (flashCut (cutCommit s)))))))) := by
  have hcut : sysView (evrecStop (flashCut (cutCommit s))) = sysView s := by
    rw [evrecStop, sysView_modEvrec, sysView_of_besideFlash (besideFlash_flashCut _), sysView_cutCommit]
  refine HoldStep.trans (u := closeSession 2 (evrecStop (flashCut (cutCommit s)))) (.of_view ((sysView_closeSession ..).trans hcut)) ?_
  refine HoldStep.trans ?_ (holdStep_holdDomains ..)
  exact .of_view rfl

/-- The loss of a clock other than AON_FAST holds its domain in reset. -/
theorem holdStep_clockLoss {d : Nat} (h0 : d ≠ 0) (s : State) : HoldStep s (clockLoss d s) ∧
    (d < 26 → (clockLoss d s).sys.rst.getLsbD d = true) := by
  have hports : ∀ (l : List Nat) (v : State), HoldStep (holdDomains [d] v) (portsLost l (holdDomains [d] v)) :=
    fun l v => .of_view (sysView_portsLost ..)
  have hself : ∀ v : State, d < 26 → (holdDomains [d] v).sys.rst.getLsbD d = true :=
    fun v hd => rst_holdDomains v (by omega) (List.mem_singleton_self d)
  unfold clockLoss
  rw [if_neg h0]
  split
  · next h =>
    have hmem : d ∈ [1, 25] := by simpa using h
    exact ⟨holdStep_slowLost s, fun hd => rst_holdDomains _ (by omega) hmem⟩
  · split
    · next h => exact h ▸ ⟨(holdStep_coreLost s).1, fun _ => (holdStep_coreLost s).2⟩
    · split
      · next h => exact h ▸ ⟨(holdStep_timeLost s).1, fun _ => (holdStep_timeLost s).2⟩
      · split
        · have hlost := hports (mcgPorts s (d - 4)) (modMcg (d - 4) (fun x => { x with clockOk := false }) s)
          have hheld : HoldStep s (holdDomains [d] (modMcg (d - 4) (fun x => { x with clockOk := false }) s)) := by
            refine HoldStep.trans ?_ (holdStep_holdDomains ..)
            exact .of_view rfl
          dsimp only
          split
          · exact ⟨(hheld.trans hlost).view (sysView_record ..), fun hd => (hlost.view (sysView_record ..)).rst d (hself _ hd)⟩
          · exact ⟨hheld.trans hlost, fun hd => hlost.rst d (hself _ hd)⟩
        · split
          · exact ⟨(holdStep_holdDomains ..).trans (hports ..), fun hd => (hports ..).rst d (hself _ hd)⟩
          · split
            · have heth := holdStep_ethLost (d - 16) s
              rw [show 16 + (d - 16) = d by omega] at heth
              exact ⟨heth.1, fun hd => heth.2 (by omega)⟩
            · split
              · refine ⟨holdStep_plLost .., fun hd => rst_holdDomains _ (by omega) ?_⟩
                rw [show 20 + (d - 20) = d by omega]
                exact List.mem_singleton_self d
              · exact ⟨holdStep_holdDomains .., hself s⟩

/-! Clocks lost. -/

theorem pll_declareLost {d : Nat} (h0 : d ≠ 0) (count : Nat) (s : State) : (declareLost count s d).sys.pllLock = s.sys.pllLock := by
  have hloss := holdStep_clockLoss h0 (modSys (fun y => { y with
    clkOk := setBit y.clkOk d false, lost := setBit y.lost d true, stopped := setBit y.stopped d false }) s)
  have hpll := hloss.1.pll
  unfold declareLost
  generalize clockLoss d _ = v at hpll ⊢
  have hsettled : sysView (settleClass2 (record 0x0B20 engineTag [(1, d), (4, count)] v)) = sysView v :=
    (sysView_settleClass2 _).trans (sysView_record ..)
  exact (HoldStep.of_view hsettled).pll.trans hpll

/-- One domain of a PLL that unlocks. -/
def unlockStep (s : State) (d : Nat) : State :=
  if losable s d then declareLost ((drawFree s).1.toNat % 2 ^ 32) (drawFree s).2 d else s

theorem pll_unlockSteps {l : List Nat} (hl : ∀ d ∈ l, d ≠ 0) (s : State) : (l.foldl unlockStep s).sys.pllLock = s.sys.pllLock := by
  induction l generalizing s with
  | nil => rfl
  | cons d l ih =>
    rw [List.foldl_cons, ih fun x hx => hl x (List.mem_cons_of_mem _ hx)]
    unfold unlockStep
    split
    · exact pll_declareLost (hl d List.mem_cons_self) ..
    · rfl

/-- A PLL that unlocks stays unlocked, whatever its domains lose. -/
theorem unlock_unlocks {k : Nat} (hk : k < 5) (s : State) : (unlock k s).sys.pllLock.getLsbD k = false := by
  have hunlock : unlock k s = (pllDomains k).foldl unlockStep (modSys (fun y => { y with pllLock := setBit y.pllLock k false }) s) := rfl
  have hzero : ∀ d ∈ pllDomains k, d ≠ 0 := by
    intro d hd h0
    subst h0
    simp [pllDomains, pllOf] at hd
  rw [hunlock, pll_unlockSteps hzero]
  exact getLsbD_setBit_self _ _ hk

theorem pllOf_lt {d k : Nat} (h : pllOf d = some k) : k < 5 := by
  unfold pllOf at h
  split_ifs at h <;> cases h <;> decide

theorem clockLost_counts {d : Fin 29} {count : Word} {s : State} (hd : d.val < 26) (hok : s.sys.clkOk.getLsbD d = true)
    (hmon : monitored s d = true) : exec (.clockLost d (.counts count)) s = .next (msixScan 16 (settleClass2
      (record 0x0B20 0x10 [(1, d.val), (4, count.toNat)] (clockLoss d { s with sys := { s.sys with
        clkOk := setBit s.sys.clkOk d false, lost := setBit s.sys.lost d true, stopped := setBit s.sys.stopped d false } })))) := by
  have hexec : exec (.clockLost d (.counts count)) s = execClockLost d (.counts count) s := rfl
  rw [hexec]
  unfold execClockLost
  dsimp only
  rw [if_neg (by omega), if_pos (by rw [losable, hok, hmon]; rfl)]
  rfl

theorem clockReturned_inRange {d : Fin 29} {us : Word} {s : State} (hd : d.val < 26) (hlost : s.sys.lost.getLsbD d = true)
    (hlocked : lockedFor s d = true) (hrun : s.sys.running = true) :
    exec (.clockReturned d (.inRange us)) s = .next (msixScan 16 (clockBack d (record 0x0B21 0x10 [(1, d.val), (4, us.toNat)]
      { s with sys := { s.sys with
        clkOk := setBit s.sys.clkOk d true, lost := setBit s.sys.lost d false, reqFence := setBit s.sys.reqFence d false } }))) := by
  have hexec : exec (.clockReturned d (.inRange us)) s = execClockReturned d (.inRange us) s := rfl
  rw [hexec]
  unfold execClockReturned
  dsimp only
  rw [if_neg (by omega), if_neg (by rw [hlost, hlocked]; decide)]
  refine congrArg fin (if_pos ?_)
  rw [record_sys_running]
  have hrun' : s.sys.running = true := hrun
  simp [hrun']

/-- Settles O27: what each loss and each return does, and what a loss holds in reset. -/
theorem clockLossAndReturn : Obligations.ClockLossAndReturn := by
  refine ⟨⟨fun s href hpll hrc => ?_, fun s href hpll hfrozen => ?_, fun s hslow hmode => if_neg (by simp [hslow, hmode])⟩,
    fun d count s hd hok hmon => clockLost_counts hd hok hmon, fun d k s hpll hlock => ⟨?_, unlock_unlocks (pllOf_lt hpll) s⟩,
    fun d s hd hok => ?_, fun d us s hd hlost hlocked hrun => clockReturned_inRange hd hlost hlocked hrun,
    fun d us s hd hlost hlocked => ?_, fun d s => rfl, fun d s h0 hd => (holdStep_clockLoss h0 s).2 hd⟩
  · have hexec : exec .refclkLost s = execRefclkLost s := rfl
    rw [hexec, execRefclkLost, if_neg (by simpa [href] using hpll), if_neg (by simp [hrc])]
    rfl
  · have hexec : exec .refclkReturned s = execRefclkReturned s := rfl
    rw [hexec, execRefclkReturned, if_neg (by simpa [href] using hpll), if_neg (by simp [hfrozen])]
    rfl
  · have hexec : exec (.clockLost d .unlocks) s = execClockLost d .unlocks s := rfl
    rw [hexec]
    unfold execClockLost
    simp only [hpll]
    exact if_pos hlock
  · exact congrArg Host.Outcome.next (if_pos (by simp [hd, hok]))
  · have hexec : exec (.clockReturned d (.inRange us)) s = execClockReturned d (.inRange us) s := rfl
    rw [hexec]
    unfold execClockReturned
    dsimp only
    rw [if_neg (by omega)]
    exact if_pos (by rw [hlocked]; simp)

end Sys2Proof.Machine
end

section
/-! Holdover (15): its entry, its end, and the return from it. -/

namespace Sys2Proof.Machine

/-! Entry. -/

theorem holdStep_holdBegin (s : State) : HoldStep s (holdBegin s) := by
  have hfades : ∀ v, sysView (if v.prism.gated then v else fadeSinks v) = sysView v := fun v => by
    split <;> rfl
  have hdump : ∀ v, sysView (if v.evrec.dump.isSome then v else startDump 2 false v) = sysView v := fun v => by
    rw [apply_ite sysView, sysView_startDump, ite_self]
  have hstop : ∀ v, HoldStep v (if sinksFaded v then holdStopUnits v else v) := fun v => by
    split
    · exact holdStep_holdStopUnits v
    · exact .refl v
  unfold holdBegin
  refine HoldStep.trans (.of_view ?_) (hstop _)
  rw [hdump, hfades, sysView_record]
  rfl

theorem holdStep_enterHoldover (old : Nat) (s : State) :
    HoldStep (modPwr (fun p => { openSwitches p with mode := .holdover, entering := .none }) s) (enterHoldover old s) := by
  have htold : HoldStep (modPwr (fun p => { openSwitches p with mode := .holdover, entering := .none }) s)
      (tellMode engineTag old 2 1 (modPwr (fun p => { openSwitches p with mode := .holdover, entering := .none }) s)) :=
    .of_view (sysView_record ..)
  unfold enterHoldover
  dsimp only
  split
  · exact htold.trans (holdStep_holdBegin _)
  · exact htold

/-- A state once main power has failed. -/
def mainFailed (s : State) : State :=
  chgUpdate (modPwr (fun p => { p with
    mainOk := false, tripped := true, released := false, tripTicks := s.sys.aonTicks, timeEnded := false
    holdEn := p.holdEn || holdArmed s }) s)

theorem exec_powerFailTrip {s : State} (hmode : s.pwr.mode = .run ∨ s.pwr.mode = .quiet) (htrip : s.pwr.tripped = false) :
    exec .powerFailTrip s = fin (if holdArmed s then enterHoldover s.pwr.mode.code (mainFailed s)
      else tellMode engineTag s.pwr.mode.code 4 1 (mainFailed s)) := by
  have hexec : exec .powerFailTrip s = execPowerFailTrip s := rfl
  rw [hexec]
  unfold execPowerFailTrip
  rw [if_neg (by rcases hmode with h | h <;> simp [h, htrip])]
  exact if_pos (by rcases hmode with h | h <;> simp [h])

theorem powerFailTrip_trips {s : State} (hmode : s.pwr.mode = .run ∨ s.pwr.mode = .quiet) (htrip : s.pwr.tripped = false) :
    ∃ u, exec .powerFailTrip s = .next (msixScan 16 u) ∧ u.pwr.mainOk = false ∧ u.pwr.tripped = true ∧ u.pwr.chgEn = false ∧
      u.pwr.tripTicks = s.sys.aonTicks ∧ u.sys.fuses = s.sys.fuses ∧
      (holdArmed s = true → u.pwr.mode = .holdover ∧ u.pwr.holdEn = true ∧ u.pwr.sw = 0) ∧
      (holdArmed s = false → u.pwr.mode = s.pwr.mode ∧ u.pwr.holdEn = s.pwr.holdEn ∧ sansEvents s u = { s with pwr := u.pwr }) := by
  have hchg : (mainFailed s).pwr.chgEn = false := by simp [mainFailed, chgUpdate]
  refine ⟨_, exec_powerFailTrip hmode htrip, ?_⟩
  by_cases harmed : holdArmed s = true
  · have hstep := holdStep_enterHoldover s.pwr.mode.code (mainFailed s)
    rw [if_pos harmed]
    generalize enterHoldover s.pwr.mode.code (mainFailed s) = u at hstep
    have hpwr := hstep.pwr
    refine ⟨(congrArg (fun p => p.mainOk) hpwr :), (congrArg (fun p => p.tripped) hpwr :), (congrArg (fun p => p.chgEn) hpwr :).trans hchg,
      (congrArg (fun p => p.tripTicks) hpwr :), hstep.fuses, fun _ => ⟨(congrArg (fun p => p.mode) hpwr :), ?_,
        (congrArg (fun p => p.sw) hpwr :)⟩, fun h => absurd h (by rw [harmed]; decide)⟩
    exact (congrArg (fun p => p.holdEn) hpwr :).trans (by simp [mainFailed, chgUpdate, openSwitches, harmed])
  · rw [if_neg harmed, tellMode_eq, record_pwr]
    refine ⟨rfl, rfl, hchg, rfl, by rw [record_sys_fuses]; rfl, fun h => absurd h harmed, fun h => ⟨rfl, ?_, ?_⟩⟩
    · simp [mainFailed, chgUpdate, h]
    · rw [sansEvents_record]
      rfl

/-! Return. -/

theorem mainPowerReturn_returns {s : State} (hmode : s.pwr.mode ≠ .off) (hmain : s.pwr.mainOk = false) :
    ∃ u, exec .mainPowerReturn s = .next (msixScan 16 u) ∧ u.pwr.mainOk = true ∧ u.pwr.released = decide (s.pwr.mode = .holdover) ∧
      u.pwr.mode = s.pwr.mode ∧ u.pwr.holdEn = s.pwr.holdEn ∧ u = { s with pwr := u.pwr } :=
  ⟨_, if_neg (by simp [hmode, hmain]), rfl, rfl, rfl, rfl, rfl⟩

/-- What the return from holdover leaves of a state until it frees its domains: the power state, the Last and the system's settings. -/
def powerView (s : State) : State :=
  { State.reset with pwr := s.pwr, last := s.last, sys := { s.sys with aonEvents := [], aonDropped := 0 } }

theorem powerView_record (c o : Nat) (d : List (Nat × Nat)) (s : State) : powerView (record c o d s) = powerView s := by
  rw [record_eq]
  rfl

theorem powerView_of_sansAudio {s u : State} (h : sansAudio u = sansAudio s) : powerView u = powerView s := (congrArg powerView h :)

theorem sansTrig_resumePins (s : State) : sansTrig (resumePins s) = sansTrig s := by
  unfold resumePins
  generalize List.range 32 = l
  refine Eq.trans (b := sansTrig (List.foldl _ s l)) rfl ?_
  refine foldl_keeps sansTrig (fun v p => ?_) _ s
  dsimp only
  split
  · rw [sansTrig_stepPin, sansTrig_modPin]
  · rfl

/-- The state before the return from holdover frees its domains. -/
def returned (s : State) : State :=
  let stopped := s.pwr.entering ≠ .holdoverFades
  let v := tellMode engineTag 2 0 2 (modPwr (fun p => { p with
    mode := .run, entering := .none, holdEn := false, released := false, timeEnded := false, ending := false })
    (record 0x0C02 engineTag [(4, (s.sys.aonTicks - s.pwr.tripTicks) / 16000)] s))
  let v := if stopped then v else stopAllPorts (loseCores v)
  let v := resumePrism (emptyPrism (settlePrism v))
  if stopped && !v.pwr.keep.getLsbD 0 then resumePins v else v

/-- The power state once HOLDOVER is left. -/
def runAgain (s : State) : State :=
  modPwr (fun p => { p with mode := .run, entering := .none, holdEn := false, released := false, timeEnded := false, ending := false }) s

theorem returned_runs (s : State) : powerView (returned s) = powerView (runAgain s) ∧ (returned s).prism.gated = false := by
  have hpins : ∀ v, sansTrig (if s.pwr.entering ≠ .holdoverFades && !v.pwr.keep.getLsbD 0 then resumePins v else v) = sansTrig v := fun v => by
    rw [apply_ite sansTrig, sansTrig_resumePins, ite_self]
  have hstart : powerView (tellMode engineTag 2 0 2 (modPwr (fun p => { p with
      mode := .run, entering := .none, holdEn := false, released := false, timeEnded := false, ending := false })
      (record 0x0C02 engineTag [(4, (s.sys.aonTicks - s.pwr.tripTicks) / 16000)] s))) = powerView (runAgain s) := by
    rw [tellMode_eq, powerView_record]
    exact (congrArg (fun v => powerView (runAgain v)) (powerView_record 0x0C02 engineTag _ s) :)
  unfold returned
  dsimp only
  generalize tellMode engineTag 2 0 2 _ = v at hstart ⊢
  have hstop : powerView (if s.pwr.entering ≠ .holdoverFades then v else stopAllPorts (loseCores v)) = powerView v := by
    rw [apply_ite powerView]
    exact ite_self _
  generalize (if s.pwr.entering ≠ .holdoverFades then v else stopAllPorts (loseCores v)) = w at hstop ⊢
  have hsettled : powerView (settlePrism w) = powerView w := by
    obtain ⟨freed, hsettle⟩ := settlePrism_eq w
    rw [hsettle, powerView_of_sansAudio (sansAudio_tellFreed ..)]
    rfl
  have hresumed : powerView (resumePrism (emptyPrism (settlePrism w))) = powerView (settlePrism w) := rfl
  have hgated : (resumePrism (emptyPrism (settlePrism w))).prism.gated = false := rfl
  generalize resumePrism (emptyPrism (settlePrism w)) = x at hresumed hgated ⊢
  have hx := hpins x
  exact ⟨(congrArg powerView hx :).trans (hresumed.trans (hsettled.trans (hstop.trans hstart))),
    (congrArg (fun y => y.prism.gated) hx :).trans hgated⟩

theorem coreFor_of_powerView {s u : State} (h : powerView u = powerView s) (req : Nat) : coreFor u req = coreFor s req :=
  (congrArg (fun x => coreFor x req) h :)

/-- The domains that the return from holdover frees. -/
theorem freeDomains_keeps (l : List Nat) (s : State) : (freeDomains l s).pwr = s.pwr ∧ (freeDomains l s).prism = s.prism := by
  have hdeliver : ∀ (l : List Nat) (v : State), RepliesOnly v (l.foldl (fun s t => deliver t s) v) := by
    intro l
    induction l with
    | nil => exact fun v => .refl v
    | cons t l ih => exact fun v => (repliesOnly_deliver t v).trans (ih _)
  have hrun : ∀ v : State, v.pwr = s.pwr → v.prism = s.prism →
      (if l.contains 24 then (List.range 16).foldl (fun s t => deliver t s) v else v).pwr = s.pwr ∧
      (if l.contains 24 then (List.range 16).foldl (fun s t => deliver t s) v else v).prism = s.prism := by
    intro v hpwr hprism
    split
    · have h := (hdeliver (List.range 16) v).frame
      exact ⟨(congrArg (fun x => x.pwr) h :).trans hpwr, (congrArg (fun x => x.prism) h :).trans hprism⟩
    · exact ⟨hpwr, hprism⟩
  exact hrun _ rfl rfl

theorem exec_holdEnRelease {s : State} (hmain : s.pwr.mainOk = true) (hen : s.pwr.holdEn = true) (hmode : s.pwr.mode = .holdover)
    (hreleased : s.pwr.released = true) :
    (s.sys.running = false → ∃ u, exec .holdEnRelease s = .next (msixScan 16 u) ∧ u.pwr = (runAgain s).pwr) ∧
    (s.sys.running = true → exec .holdEnRelease s = fin (setCore (coreFor (returned s) (returned s).sys.coreReq)
      (freeDomains [16, 17, 18, 19, 20, 21, 22, 23, 24] (returned s)))) := by
  have hexec : exec .holdEnRelease s = execHoldEnRelease s := rfl
  unfold execHoldEnRelease at hexec
  rw [if_neg (by rw [hmain, hen]; decide), if_neg (not_not_intro hmode), if_neg (by rw [hreleased]; decide)] at hexec
  dsimp only at hexec
  refine ⟨fun hrun => ?_, fun hrun => ?_⟩
  · rw [if_pos (by rw [tellMode_eq, record_sys_running, modPwr_sys, record_sys_running, hrun]; rfl)] at hexec
    refine ⟨_, hexec, ?_⟩
    rw [tellMode_eq, record_pwr, modPwr_pwr, record_pwr]
    rfl
  · rw [if_neg (by rw [tellMode_eq, record_sys_running, modPwr_sys, record_sys_running, hrun]; decide)] at hexec
    exact hexec

theorem holdEnRelease_returns {s : State} (hmain : s.pwr.mainOk = true) (hen : s.pwr.holdEn = true) (hmode : s.pwr.mode = .holdover)
    (hreleased : s.pwr.released = true) : ∃ u, exec .holdEnRelease s = .next (msixScan 16 u) ∧ u.pwr.mode = .run ∧
      u.pwr.holdEn = false ∧ u.pwr.entering = .none ∧
      (s.sys.running = true → u.prism.gated = false ∧ u.sys.coreMhz = coreFor s s.sys.coreReq) := by
  obtain ⟨hstopped, hrunning⟩ := exec_holdEnRelease hmain hen hmode hreleased
  cases hrun : s.sys.running with
  | false =>
    obtain ⟨u, hexec, hpwr⟩ := hstopped hrun
    exact ⟨u, hexec, by rw [hpwr]; rfl, by rw [hpwr]; rfl, by rw [hpwr]; rfl, fun h => absurd h (by decide)⟩
  | true =>
    refine ⟨_, hrunning hrun, ?_⟩
    obtain ⟨hview, hgated⟩ := returned_runs s
    generalize returned s = v at hview hgated
    obtain ⟨hpwr, hprism⟩ := freeDomains_keeps [16, 17, 18, 19, 20, 21, 22, 23, 24] v
    generalize freeDomains [16, 17, 18, 19, 20, 21, 22, 23, 24] v = w at hpwr hprism
    have hvpwr : v.pwr = (runAgain s).pwr := (congrArg (fun x => x.pwr) hview :)
    have hcore : coreFor v v.sys.coreReq = coreFor s s.sys.coreReq :=
      (coreFor_of_powerView hview _).trans (congrArg (coreFor s) (congrArg (fun x => x.sys.coreReq) hview :))
    have hu : (setCore (coreFor v v.sys.coreReq) w).pwr = (runAgain s).pwr := hpwr.trans hvpwr
    exact ⟨by rw [hu]; rfl, by rw [hu]; rfl, by rw [hu]; rfl, fun _ => ⟨(congrArg (fun m => m.gated) hprism).trans hgated, hcore⟩⟩

/-! The end. -/

theorem holdTimeEnd_ends {s : State} (htime : s.pwr.holdTime ≠ 0) (hmode : s.pwr.mode = .holdover) (hended : s.pwr.timeEnded = false) :
    ∃ u, exec .holdTimeEnd s = .next (msixScan 16 u) ∧ u.pwr.timeEnded = true ∧ sansEvents s u = { s with pwr := u.pwr } ∧
      (s.pwr.ending = false → s.pwr.entering ≠ .sleep → s.evrec.dump = none → s.sys.running = true →
        (s.pwr.after = 0 → u.pwr.entering = .sleep ∧ u.pwr.ending = false) ∧ (s.pwr.after ≠ 0 → u.pwr.ending = true)) := by
  have hexec : exec .holdTimeEnd s = fin (holdTimeAct (modPwr (fun p => { p with timeEnded := true }) s)) :=
    if_neg (by simp [htime, hmode, hended])
  refine ⟨_, hexec, ?_, ?_, fun hending hentering hdump hrun => ?_⟩
  · unfold holdTimeAct
    split
    · rfl
    · dsimp only
      split <;> simp [tellMode_eq]
  · exact (congrArg (sansEvents s) (holdTimeAct_keeps (modPwr (fun p => { p with timeEnded := true }) s)).2 :)
  · have hact : holdTimeAct (modPwr (fun p => { p with timeEnded := true }) s) = _ := if_neg (by
      simp [hmode, hending, hentering, hdump, hrun])
    rw [hact]
    refine ⟨fun hafter => ?_, fun hafter => ?_⟩
    · rw [if_pos (by rw [record_pwr]; exact hafter)]
      simp [tellMode_eq, hending]
    · rw [if_neg (by rw [record_pwr]; exact hafter)]
      simp [tellMode_eq]

theorem shankSilent_ends {s : State} (hmode : s.pwr.mode = .holdover) (hending : s.pwr.ending = false) :
    ∃ u, exec .shankSilent s = .next (msixScan 16 u) ∧ u.pwr.ending = true ∧ sansEvents s u = { s with pwr := u.pwr } := by
  have hexec : exec .shankSilent s = fin (holdFail 2 8 s) := if_pos hmode
  refine ⟨_, hexec, by rw [holdFail_pwr, hending]; rfl, ?_⟩
  rw [holdFail, hending, if_neg (by decide), tellMode_eq, sansEvents_record, record_pwr, sansEvents_record, record_pwr]
  rfl

theorem holdoverEnd_off {s : State} (hmode : s.pwr.mode = .holdover) (hending : s.pwr.ending = true) :
    ∃ u, exec .holdoverEnd s = .next (msixScan 16 u) ∧ u.pwr.mode = .off ∧ u.pwr.holdEn = false ∧ u.pwr.chgEn = false ∧
      u.pwr.sw = 0 ∧ faultN u = false ∧ u.last = { s.last with coarse := true } ∧ u.sys.fuses = s.sys.fuses := by
  have hexec : exec .holdoverEnd s = fin (modeOff s) := if_pos (by simp [hmode, hending])
  obtain ⟨hpwr, hfuses, hlast, hrun⟩ := modeOff_keeps s
  exact ⟨_, hexec, by rw [hpwr], by rw [hpwr], by rw [hpwr], by rw [hpwr]; rfl, by rw [faultN, hrun]; rfl, hlast, hfuses⟩

/-- Settles O55, event by event. -/
theorem holdover : Obligations.Holdover :=
  ⟨fun _ hmode htrip => powerFailTrip_trips hmode htrip, fun _ hmode hmain => mainPowerReturn_returns hmode hmain,
    fun _ hmain hen => ⟨fun hmode => (if_neg (by rw [hmain, hen]; decide)).trans (if_pos hmode),
      fun hmode hreleased => holdEnRelease_returns hmain hen hmode hreleased⟩,
    fun _ htime hmode hended => holdTimeEnd_ends htime hmode hended, fun _ hmode hending => shankSilent_ends hmode hending,
    fun _ hmode hending => holdoverEnd_off hmode hending⟩

end Sys2Proof.Machine
end


section
/-! The sizes of the tables of units, and the operations of the state that keep them. -/

namespace Sys2Proof.Machine

/-- How many registers of each kind, and how many slots, a Lens core has. -/
def coreSizes (c : LensCore) : List Nat :=
  [c.slots.length, c.d.length, c.a.length, c.p.length, c.m.length, c.l.length, c.o.length]

/-- How many entries the tables of the calibration have. -/
def calSizes (c : Calib) : List Nat := [c.trace.length, c.phyTx.length, c.phyRx.length, c.asym.length, c.cell.length]

/-- How many entries the tables of units have (R19). -/
structure Shape where
  tenants : Nat
  owner : Nat
  keys : Nat
  eth : Nat
  talkers : Nat
  listeners : Nat
  pins : Nat
  paths : Nat
  fsgs : Nat
  plink : Nat
  mcgs : Nat
  aports : Nat
  buses : Nat
  pipes : Nat
  lens : List (List Nat)
  volts : Nat
  lowSeen : Nat
  cal : List Nat
  sel : Nat

/-- The sizes of the tables of a state. -/
def shape (s : State) : Shape where
  tenants := s.tenants.length
  owner := s.store.owner.length
  keys := s.store.keys.length
  eth := s.eth.ports.length
  talkers := s.eth.talkers.length
  listeners := s.eth.listeners.length
  pins := s.trig.pins.length
  paths := s.trig.paths.length
  fsgs := s.trig.fsgs.length
  plink := s.plink.ports.length
  mcgs := s.audio.mcgs.length
  aports := s.audio.ports.length
  buses := s.prism.buses.length
  pipes := s.prism.pipes.length
  lens := s.lens.map coreSizes
  volts := s.pwr.volts.length
  lowSeen := s.pwr.lowSeen.length
  cal := calSizes s.last.cal
  sel := s.dbg.sel.length

/-- The sizes of a Lens core that Table 11.2 and Table 11.5 give. -/
def coreWhole : List Nat := [4, 16, 8, 8, 8, 8, 8]

/-- The sizes that the spec gives (R19). -/
def whole : Shape where
  tenants := 16
  owner := 256
  keys := 17
  eth := 4
  talkers := 64
  listeners := 64
  pins := 32
  paths := 16
  fsgs := 8
  plink := 4
  mcgs := 4
  aports := 8
  buses := 128
  pipes := 6
  lens := List.replicate 8 coreWhole
  volts := 12
  lowSeen := 12
  cal := [32, 4, 4, 4, 12]
  sel := 8

theorem map_eq_replicate_iff {α β : Type} (f : α → β) (l : List α) (n : Nat) (b : β) :
    l.map f = List.replicate n b ↔ l.length = n ∧ ∀ x ∈ l, f x = b := by
  simp [List.eq_replicate_iff]

/-- A state is shaped where its tables have the sizes of the spec. -/
theorem shaped_iff (s : State) : shaped s = true ↔ shape s = whole := by
  simp only [shaped, shape, whole, calSizes, Shape.mk.injEq, List.cons.injEq, map_eq_replicate_iff, coreShaped, coreSizes, coreWhole,
    Bool.and_eq_true, decide_eq_true_eq, List.all_eq_true, and_true, and_assoc]

/-! The operations on one unit. -/

@[simp] theorem shape_emit (o : Output) (s : State) : shape (emit o s) = shape s := rfl

@[simp] theorem shape_modSys (f : Sys → Sys) (s : State) : shape (modSys f s) = shape s := rfl

@[simp] theorem shape_modEvrec (f : Evrec → Evrec) (s : State) : shape (modEvrec f s) = shape s := rfl

@[simp] theorem shape_modWdog (f : Wdog → Wdog) (s : State) : shape (modWdog f s) = shape s := rfl

@[simp] theorem shape_modTenant (t : Nat) (f : Tenant → Tenant) (s : State) : shape (modTenant t f s) = shape s := by
  simp [modTenant, shape]

@[simp] theorem shape_modEthPort (p : Nat) (f : EthPort → EthPort) (s : State) : shape (modEthPort p f s) = shape s := by
  simp [modEthPort, shape]

@[simp] theorem shape_modStream (talker : Bool) (k : Nat) (f : Stream → Stream) (s : State) :
    shape (modStream talker k f s) = shape s := by
  cases talker <;> simp [modStream, shape]

@[simp] theorem shape_modPin (p : Nat) (f : Pin → Pin) (s : State) : shape (modPin p f s) = shape s := by simp [modPin, shape]

@[simp] theorem shape_modPath (p : Nat) (f : Path → Path) (s : State) : shape (modPath p f s) = shape s := by simp [modPath, shape]

@[simp] theorem shape_modFsg (k : Nat) (f : Fsg → Fsg) (s : State) : shape (modFsg k f s) = shape s := by simp [modFsg, shape]

@[simp] theorem shape_modPl (p : Nat) (f : PlPort → PlPort) (s : State) : shape (modPl p f s) = shape s := by simp [modPl, shape]

@[simp] theorem shape_modAport (p : Nat) (f : Aport → Aport) (s : State) : shape (modAport p f s) = shape s := by
  simp [modAport, shape]

@[simp] theorem shape_modMcg (m : Nat) (f : Mcg → Mcg) (s : State) : shape (modMcg m f s) = shape s := by simp [modMcg, shape]

@[simp] theorem shape_modBus (b : Nat) (f : Bus → Bus) (s : State) : shape (modBus b f s) = shape s := by simp [modBus, shape]

theorem shape_modPrism_of {f : Prism → Prism} {s : State} (hb : (f s.prism).buses.length = s.prism.buses.length)
    (hp : (f s.prism).pipes.length = s.prism.pipes.length) : shape (modPrism f s) = shape s := by
  simp [modPrism, shape, hb, hp]

@[simp] theorem shape_modPrism {f : Prism → Prism} (hb : ∀ m, (f m).buses.length = m.buses.length)
    (hp : ∀ m, (f m).pipes.length = m.pipes.length) (s : State) : shape (modPrism f s) = shape s :=
  shape_modPrism_of (hb _) (hp _)

@[simp] theorem shape_modStore {f : Store → Store} (ho : ∀ m, (f m).owner.length = m.owner.length)
    (hk : ∀ m, (f m).keys.length = m.keys.length) (s : State) : shape (modStore f s) = shape s := by
  simp [modStore, shape, ho, hk]

@[simp] theorem shape_modLast {f : Last → Last} (h : ∀ l, calSizes (f l).cal = calSizes l.cal) (s : State) :
    shape (modLast f s) = shape s := by
  simp [modLast, shape, h]

@[simp] theorem shape_modPwr {f : Pwr → Pwr} (hv : ∀ p, (f p).volts.length = p.volts.length)
    (hl : ∀ p, (f p).lowSeen.length = p.lowSeen.length) (s : State) : shape (modPwr f s) = shape s := by
  simp [modPwr, shape, hv, hl]

theorem shape_modDbg_of {f : Dbg → Dbg} {s : State} (h : (f s.dbg).sel.length = s.dbg.sel.length) :
    shape (modDbg f s) = shape s := by
  simp [modDbg, shape, h]

@[simp] theorem shape_modDbg {f : Dbg → Dbg} (h : ∀ d, (f d).sel.length = d.sel.length) (s : State) :
    shape (modDbg f s) = shape s :=
  shape_modDbg_of (h _)

theorem map_updAt_of_keeps {α β : Type} (μ : α → β) {f : α → α} (h : ∀ x, μ (f x) = μ x) (l : List α) (n : Nat) :
    (updAt l n f).map μ = l.map μ := by
  refine List.ext_getElem (by simp) fun i _ _ => ?_
  simp only [updAt, List.getElem_map, List.getElem_modify]
  split <;> simp [h]

@[simp] theorem shape_modLens {f : LensCore → LensCore} (h : ∀ c, coreSizes (f c) = coreSizes c) (n : Nat) (s : State) :
    shape (modLens n f s) = shape s := by
  simp [modLens, shape, map_updAt_of_keeps coreSizes h]

/-! The parts of the state that hold no table of units. -/

@[simp] theorem shape_pending (l : List Instr) (s : State) : shape { s with pending := l } = shape s := rfl

@[simp] theorem shape_free (n : Nat) (s : State) : shape { s with free := n } = shape s := rfl

@[simp] theorem shape_owners (l : List (Nat × Nat × Nat)) (s : State) : shape { s with owners := l } = shape s := rfl

@[simp] theorem shape_sys (x : Sys) (s : State) : shape { s with sys := x } = shape s := rfl

@[simp] theorem shape_evrec (x : Evrec) (s : State) : shape { s with evrec := x } = shape s := rfl

@[simp] theorem shape_wdog (x : Wdog) (s : State) : shape { s with wdog := x } = shape s := rfl

/-! The parts that hold tables of units, where their sizes stay. -/

@[simp] theorem shape_out (l : List Output) (s : State) : shape { s with out := l } = shape s := rfl

@[simp] theorem shape_tenants {l : List Tenant} {s : State} (h : l.length = s.tenants.length) :
    shape { s with tenants := l } = shape s := by
  simp [shape, h]

@[simp] theorem shape_last {l : Last} {s : State} (h : calSizes l.cal = calSizes s.last.cal) :
    shape { s with last := l } = shape s := by
  simp [shape, h]

@[simp] theorem shape_store {m : Store} {s : State} (ho : m.owner.length = s.store.owner.length)
    (hk : m.keys.length = s.store.keys.length) : shape { s with store := m } = shape s := by
  simp [shape, ho, hk]

@[simp] theorem shape_eth {e : Eth} {s : State} (hp : e.ports.length = s.eth.ports.length)
    (ht : e.talkers.length = s.eth.talkers.length) (hl : e.listeners.length = s.eth.listeners.length) :
    shape { s with eth := e } = shape s := by
  simp [shape, hp, ht, hl]

@[simp] theorem shape_trig {g : Trig} {s : State} (hp : g.pins.length = s.trig.pins.length)
    (hm : g.paths.length = s.trig.paths.length) (hf : g.fsgs.length = s.trig.fsgs.length) : shape { s with trig := g } = shape s := by
  simp [shape, hp, hm, hf]

@[simp] theorem shape_plink {x : Plink} {s : State} (h : x.ports.length = s.plink.ports.length) :
    shape { s with plink := x } = shape s := by
  simp [shape, h]

@[simp] theorem shape_audio {x : Audio} {s : State} (hm : x.mcgs.length = s.audio.mcgs.length)
    (hp : x.ports.length = s.audio.ports.length) : shape { s with audio := x } = shape s := by
  simp [shape, hm, hp]

@[simp] theorem shape_prism {x : Prism} {s : State} (hb : x.buses.length = s.prism.buses.length)
    (hp : x.pipes.length = s.prism.pipes.length) : shape { s with prism := x } = shape s := by
  simp [shape, hb, hp]

@[simp] theorem shape_lens {l : List LensCore} {s : State} (h : l.map coreSizes = s.lens.map coreSizes) :
    shape { s with lens := l } = shape s := by
  simp [shape, h]

@[simp] theorem shape_pwr {x : Pwr} {s : State} (hv : x.volts.length = s.pwr.volts.length)
    (hl : x.lowSeen.length = s.pwr.lowSeen.length) : shape { s with pwr := x } = shape s := by
  simp [shape, hv, hl]

@[simp] theorem shape_dbg {x : Dbg} {s : State} (h : x.sel.length = s.dbg.sel.length) : shape { s with dbg := x } = shape s := by
  simp [shape, h]

/-- The sizes of the tables of the state that an operation goes on with. -/
def outShape : Out → Option Shape
  | .next t => some (shape t)
  | _ => none

@[simp] theorem outShape_next (s : State) : outShape (.next s) = some (shape s) := rfl

/-! Branches and loops. -/

@[simp] theorem outShape_ite (p : Prop) [Decidable p] (a b : Out) :
    outShape (if p then a else b) = if p then outShape a else outShape b :=
  apply_ite outShape p a b

@[simp] theorem shape_ite (p : Prop) [Decidable p] (s t : State) : shape (if p then s else t) = if p then shape s else shape t :=
  apply_ite shape p s t

@[simp] theorem shape_foldl {α : Type} {f : State → α → State} (h : ∀ s x, shape (f s x) = shape s) (l : List α) (s : State) :
    shape (l.foldl f s) = shape s :=
  foldl_keeps shape h l s

@[simp] theorem shape_foldl_snd {α γ : Type} {f : γ × State → α → γ × State} (h : ∀ a x, shape (f a x).2 = shape a.2) (l : List α)
    (a : γ × State) : shape (l.foldl f a).2 = shape a.2 :=
  foldl_keeps (fun a => shape a.2) h l a

@[simp] theorem shape_foldl_fst {α γ : Type} {f : State × γ → α → State × γ} (h : ∀ a x, shape (f a x).1 = shape a.1) (l : List α)
    (a : State × γ) : shape (l.foldl f a).1 = shape a.1 :=
  foldl_keeps (fun a => shape a.1) h l a

end Sys2Proof.Machine
end


section
/-! What the operations of a Lens core do to the sizes of its register files. -/

namespace Sys2Proof.Machine

@[simp] theorem coreSizes_renumberLens (q : Int) (c : LensCore) : coreSizes (renumberLens q c) = coreSizes c := by
  simp [renumberLens, coreSizes]

@[simp] theorem coreSizes_loadKernel (slot : Nat) (k : Kernel) (body : List Byte) (c : LensCore) :
    coreSizes (loadKernel slot k body c) = coreSizes c := by
  simp [loadKernel, coreSizes]

@[simp] theorem coreSizes_abortKernels (c : LensCore) : coreSizes (abortKernels c) = coreSizes c := by simp [abortKernels, coreSizes]

@[simp] theorem coreSizes_fadeOutputs (out : Int) (c : LensCore) : coreSizes (fadeOutputs out c) = coreSizes c := by
  simp [fadeOutputs, coreSizes]

@[simp] theorem coreSizes_popLoop (c : LensCore) : coreSizes (popLoop c) = coreSizes c := by
  unfold popLoop
  split <;> rfl

@[simp] theorem coreSizes_afterInstr (k at_ : Nat) (c : LensCore) : coreSizes (afterInstr k at_ c) = coreSizes c := by
  induction k generalizing c with
  | zero => rfl
  | succ k ih =>
    unfold afterInstr
    split
    · split
      · rfl
      · split
        · rfl
        · rw [ih, coreSizes_popLoop]
    · rfl

@[simp] theorem coreSizes_nextInstr (cyc : Nat) (c : LensCore) : coreSizes (nextInstr cyc c) = coreSizes c := by
  unfold nextInstr
  rw [coreSizes_afterInstr]
  rfl

theorem coreSizes_enterKernel {c : LensCore} (k out : Int) (slot : Nat) (init : Bool) (rest : List (Nat × Bool))
    (h : coreSizes c = coreWhole) : coreSizes (enterKernel k out slot init rest c) = coreWhole := by
  have hs : c.slots.length = 4 := (List.cons.inj h).1
  unfold enterKernel
  dsimp only
  split
  · exact h
  · cases init <;> simp [coreSizes, coreWhole, hs]

@[simp] theorem coreSizes_finishBlock (out : Int) (c : LensCore) : coreSizes (finishBlock out c) = coreSizes c := by
  unfold finishBlock
  dsimp only
  split
  · exact coreSizes_abortKernels _
  · split
    · rfl
    · simp [coreSizes]

@[simp] theorem coreSizes_branchTo (t : Nat) (c : LensCore) : coreSizes (branchTo t c) = coreSizes c := by
  unfold branchTo
  split
  · split
    · rfl
    · exact coreSizes_popLoop c
  · rfl

@[simp] theorem coreSizes_setZN (v : Word) (c : LensCore) : coreSizes (setZN v c) = coreSizes c := rfl

@[simp] theorem coreSizes_putD (r : BitVec 4) (v : Word) (c : LensCore) : coreSizes (putD r v c) = coreSizes c := by
  simp [putD, coreSizes]

@[simp] theorem coreSizes_putA (a : Nat) (v : Int) (c : LensCore) : coreSizes (putA a v c) = coreSizes c := by
  simp [putA, coreSizes]

@[simp] theorem coreSizes_accum (a : Nat) (v : Int) (c : LensCore) : coreSizes (accum a v c).1 = coreSizes c :=
  coreSizes_putA a _ c

@[simp] theorem coreSizes_accumAll (l : List (Nat × Int)) (c : LensCore) : coreSizes (accumAll l c) = coreSizes c := by
  have h := foldl_keeps (fun p : LensCore × Bool => coreSizes p.1)
    (f := fun (p : LensCore × Bool) (x : Nat × Int) => let q := accum x.1 x.2 p.1; (q.1, p.2 || q.2))
    (fun p x => coreSizes_accum x.1 x.2 p.1) l (c, false)
  unfold accumAll
  generalize List.foldl _ (c, false) l = r at h ⊢
  exact h

@[simp] theorem coreSizes_ptrWrites (v : Half) (l : List (Nat × Half)) (c : LensCore) : coreSizes (ptrWrites v l c) = coreSizes c :=
  foldl_keeps coreSizes (fun _ _ => by simp [coreSizes]) l c

@[simp] theorem coreSizes_takeSettings (c : LensCore) : coreSizes (takeSettings c) = coreSizes c := by
  unfold takeSettings
  rw [foldl_keeps coreSizes]
  · split <;> rfl
  · intro c k
    dsimp only
    split
    · split <;> simp [coreSizes]
    · rfl

theorem coreSizes_beginBlock {c : LensCore} (k : Int) (l : List (Nat × Bool)) (h : coreSizes c = coreWhole) :
    coreSizes (beginBlock k l c) = coreWhole := by
  have hc : coreSizes { c with cycles := 0, slots := c.slots.map fun q => { q with needInit := false } } = coreWhole := by
    rw [← h]
    simp [coreSizes]
  unfold beginBlock
  split
  · exact coreSizes_enterKernel _ _ _ _ _ hc
  · exact hc

/-- An operation of a core that ends leaves the sizes of its register files as they are. -/
def KeepsSizes (f : LensCore → LensRes) : Prop := ∀ c r, f c = .ok r → coreSizes c = coreWhole → coreSizes r = coreWhole

theorem keepsSizes_of_ok {f : LensCore → LensRes} {g : LensCore → LensCore} (hf : ∀ c, f c = .ok (g c))
    (hg : ∀ c, coreSizes (g c) = coreSizes c) : KeepsSizes f := by
  intro c r hr h
  cases (hf c).symm.trans hr
  rw [hg, h]

theorem keepsSizes_writeSel {r : Nat} {v : Word} {c c' : LensCore} (h : writeSel r v c = .ok c') : coreSizes c' = coreSizes c := by
  unfold writeSel at h
  dsimp only at h
  split at h
  · cases h
    simp [coreSizes]
  · split at h
    · cases h
      simp [coreSizes]
    · split at h
      · cases h
        simp [coreSizes]
      · split at h
        · cases h
          simp only [coreSizes, length_updAt]
          split <;> simp
        · split at h
          · cases h
            rfl
          · cases h

@[simp] theorem coreSizes_selWrite (sel : Nat) (v : Word) (c : LensCore) : coreSizes (selWrite sel v c) = coreSizes c := by
  unfold selWrite
  split
  · split
    · next h => exact keepsSizes_writeSel h
    · rfl
  · split
    · simp [coreSizes]
    · rfl

theorem keepsSizes_runOne {f : LensCore → LensRes} (h : KeepsSizes f) : KeepsSizes (runOne f) := by
  intro c r hr
  unfold runOne at hr
  split at hr
  · cases hr
  · exact h c r hr

theorem keepsSizes_repeatGo {f : LensCore → LensRes} (h : KeepsSizes f) (k : Nat) : KeepsSizes (repeatGo k f) := by
  induction k with
  | zero => exact keepsSizes_of_ok (g := id) (fun _ => rfl) (fun _ => rfl)
  | succ k ih =>
    intro c r hr hc
    unfold repeatGo at hr
    split at hr
    · cases hr
    · next c1 h1 => exact ih _ r hr (h c c1 h1 hc)

theorem keepsSizes_runAlu {f : LensCore → LensRes} (csrc : Bool) (h : KeepsSizes f) : KeepsSizes (runAlu csrc f) := by
  intro c r hr hc
  unfold runAlu at hr
  split at hr
  · cases hr
  · dsimp only at hr
    split at hr
    · cases hr
    · next c1 h1 =>
      split at hr
      · cases hr
      · next c2 h2 =>
        cases hr
        rw [coreSizes_nextInstr]
        exact keepsSizes_repeatGo h _ _ _ h2 (h c c1 h1 hc)

theorem keepsSizes_withMoves (v : Half) (x y : Move) (q : Option (Nat × Half)) {op : LensCore → LensCore}
    (h : ∀ c, coreSizes (op c) = coreSizes c) : KeepsSizes (withMoves v x y q op) := by
  intro c r hr hc
  unfold withMoves at hr
  split at hr
  · cases hr
  · cases hr
  · split at hr
    · cases hr
    · cases hr
      refine (coreSizes_ptrWrites ..).trans ?_
      rw [foldl_keeps coreSizes (fun _ _ => by simp [coreSizes]), h, hc]

theorem keepsSizes_aluOp (v : Half) (x y : Move) (d : BitVec 4) (f : LensCore → Word × Option Bool) : KeepsSizes (aluOp v x y d f) :=
  keepsSizes_runAlu false (keepsSizes_withMoves v x y none fun _ => by
    dsimp only
    rw [coreSizes_setZN, coreSizes_putD]
    rfl)

theorem keepsSizes_macOp (v : Half) (x y : Move) (p : BitVec 4) (csrc : Bool) {f : Int → LensCore → LensCore}
    (h : ∀ w c, coreSizes (f w c) = coreSizes c) : KeepsSizes (macOp v x y p csrc f) := by
  refine keepsSizes_runAlu csrc fun c r hr hc => ?_
  split at hr
  · cases hr
  · exact keepsSizes_withMoves v x y _ (h _) c r hr hc

/-! An instruction that is one of these, whatever its name. -/

theorem keepsSizes_of_aluOp {v : Half} {x y : Move} {d : BitVec 4} {f : LensCore → Word × Option Bool} {op : LensCore → LensRes}
    (h : ∀ c, op c = aluOp v x y d f c) : KeepsSizes op :=
  fun c r hr => keepsSizes_aluOp v x y d f c r ((h c).symm.trans hr)

theorem keepsSizes_of_macOp {v : Half} {x y : Move} {p : BitVec 4} {csrc : Bool} {f : Int → LensCore → LensCore} {op : LensCore → LensRes}
    (h : ∀ c, op c = macOp v x y p csrc f c) (hf : ∀ w c, coreSizes (f w c) = coreSizes c) : KeepsSizes op :=
  fun c r hr => keepsSizes_macOp v x y p csrc hf c r ((h c).symm.trans hr)

theorem keepsSizes_of_moves {v : Half} {x y : Move} {g : LensCore → LensCore} {op : LensCore → LensRes}
    (h : ∀ c, op c = runAlu false (withMoves v x y none g) c) (hg : ∀ c, coreSizes (g c) = coreSizes c) : KeepsSizes op :=
  fun c r hr => keepsSizes_runAlu false (keepsSizes_withMoves v x y none hg) c r ((h c).symm.trans hr)

theorem keepsSizes_lEndOp : KeepsSizes lEndOp := by
  intro c r hr hc
  unfold lEndOp at hr
  split at hr
  · cases hr
    exact hc
  · next x _ =>
    dsimp only at hr
    generalize hd : (if (x.init || c.discard) = true then _ else _ : LensCore) = d at hr
    have hsize : coreSizes d = coreWhole := by
      rw [← hd, ← hc]
      split <;> simp [coreSizes]
    split at hr
    · cases hr
      exact coreSizes_enterKernel _ _ _ _ _ hsize
    · cases hr
      rw [coreSizes_finishBlock, hsize]

theorem keepsSizes_lCallOp (t : BitVec 13) : KeepsSizes (lCallOp t) := by
  intro c r hr hc
  unfold lCallOp at hr
  split at hr
  · cases hr
  · cases hr
    exact hc

theorem keepsSizes_lRetOp (v : Half) : KeepsSizes (lRetOp v) := by
  intro c r hr hc
  unfold lRetOp at hr
  split at hr <;> (cases hr; exact hc)

theorem keepsSizes_lLoopOp (rt reg : Bool) (dc : BitVec 4) (count : Half) (e : BitVec 13) : KeepsSizes (lLoopOp rt reg dc count e) := by
  intro c r hr hc
  unfold lLoopOp at hr
  generalize (if reg = true then _ else _ : Nat) = n at hr
  dsimp only at hr
  split at hr
  · cases hr
  · split at hr
    · cases hr
      exact (coreSizes_afterInstr ..).trans hc
    · split at hr
      · cases hr
      · cases hr
        exact hc

theorem keepsSizes_lRepOp (reg : Bool) (dc : BitVec 4) (count : BitVec 13) : KeepsSizes (lRepOp reg dc count) := by
  intro c r hr hc
  unfold lRepOp at hr
  generalize (if reg = true then _ else _ : Nat) = n at hr
  dsimp only at hr
  split at hr
  · cases hr
  · split at hr
    · cases hr
      exact (coreSizes_afterInstr ..).trans hc
    · cases hr
      exact hc

theorem keepsSizes_lNopOp : KeepsSizes lNopOp := keepsSizes_of_ok (fun _ => rfl) (coreSizes_nextInstr 1)

theorem keepsSizes_lBrOp (cc : BitVec 4) (t : BitVec 13) : KeepsSizes (lBrOp cc t) :=
  keepsSizes_of_ok (fun _ => rfl) fun c => by split <;> simp

theorem keepsSizes_writeNext (r : Nat) (v : LensCore → Word) : KeepsSizes fun c => (writeSel r (v c) c).map (nextInstr 1) := by
  intro c t ht hc
  match h : writeSel r (v c) c with
  | .error e => simp [h, Except.map] at ht
  | .ok d =>
    simp only [h, Except.map, Except.ok.injEq] at ht
    rw [← ht, coreSizes_nextInstr, keepsSizes_writeSel h, hc]

end Sys2Proof.Machine
end


section
/-! What the shared operations do to the sizes of the tables: events, the watchdog, lines, replies, tenants, the Store. -/

namespace Sys2Proof.Machine

@[simp] theorem shape_msixTenant (s : State) (t : Nat) : shape (msixTenant s t) = shape s := by
  unfold msixTenant
  dsimp only
  repeat' split
  all_goals simp [shape]

@[simp] theorem shape_msixScan (k : Nat) (s : State) : shape (msixScan k s) = shape s := by
  induction k generalizing s with
  | zero => rfl
  | succ k ih => simp [msixScan, ih]

@[simp] theorem shape_fin (s : State) : outShape (fin s) = some (shape s) := by simp [fin]

@[simp] theorem shape_freezePins (s : State) : shape (freezePins s) = shape s := by simp [freezePins]

@[simp] theorem shape_fadeAllPorts (s : State) : shape (fadeAllPorts s) = shape s := by simp [fadeAllPorts]

@[simp] theorem shape_setBucket (code level : Nat) (s : State) : shape (setBucket code level s) = shape s := by simp [setBucket]

@[simp] theorem shape_recordC (code origin : Nat) (data : List Byte) (valid : Bool) (time hours : Nat) (raw : Bool) (s : State) :
    shape (recordC code origin data valid time hours raw s) = shape s := by
  rw [recordC_eq]
  rfl

@[simp] theorem shape_recordB (code origin : Nat) (data : List Byte) (s : State) : shape (recordB code origin data s) = shape s := by
  simp [recordB]

@[simp] theorem shape_record (code origin : Nat) (data : List (Nat × Nat)) (s : State) : shape (record code origin data s) = shape s := by
  simp [record]

@[simp] theorem shape_startDump (trigger : Nat) (flush : Bool) (s : State) : shape (startDump trigger flush s) = shape s := by
  unfold startDump
  split <;> simp

@[simp] theorem shape_nmiHandler (s : State) : shape (nmiHandler s) = shape s := by simp [nmiHandler]

@[simp] theorem shape_expire (cause : Nat) (s : State) : shape (expire cause s) = shape s := by simp [expire]

@[simp] theorem shape_wdRestart (s : State) : shape (wdRestart s) = shape s := by simp [wdRestart]

@[simp] theorem shape_wdJudge (value : Word) (s : State) : shape (wdJudge value s) = shape s := by simp [wdJudge]

@[simp] theorem shape_fwKey (s : State) : shape (fwKey s) = shape s := by simp [fwKey]

@[simp] theorem shape_wdTick (s : State) : shape (wdTick s) = shape s := by
  unfold wdTick
  dsimp only
  split
  · simp
  · split <;> simp

@[simp] theorem shape_tickHours (s : State) : shape (tickHours s) = shape s := by
  unfold tickHours
  dsimp only
  split
  · simp
  · split <;> simp

@[simp] theorem shape_sendTail (p : Nat) (s : State) : shape (sendTail p s) = shape s := by simp [sendTail]

@[simp] theorem shape_serveTails (s : State) : shape (serveTails s) = shape s := by simp [serveTails]

@[simp] theorem shape_takeLine (p bits : Nat) (s : State) : shape (takeLine p bits s) = shape s := by simp [takeLine]

@[simp] theorem shape_sendFirst (p : Nat) (x : Shaper) (s : State) : shape (sendFirst p x s) = shape s := by
  unfold sendFirst
  split <;> simp

@[simp] theorem shape_serveLine (s : State) (p : Nat) : shape (serveLine s p) = shape s := by simp [serveLine]

@[simp] theorem shape_serveLines (s : State) : shape (serveLines s) = shape s := by simp [serveLines]

@[simp] theorem shape_finishClose (t : Nat) (s : State) : shape (finishClose t s) = shape s := by simp [finishClose]

@[simp] theorem shape_deliverOne (t : Nat) (s : State) : shape (deliverOne t s) = shape s := by
  unfold deliverOne
  dsimp only
  split <;> simp

@[simp] theorem shape_deliverMany (k n : Nat) (s : State) : shape (deliverMany k n s) = shape s := by
  induction k generalizing s with
  | zero => rfl
  | succ k ih => simp [deliverMany, ih]

@[simp] theorem shape_deliver (t : Nat) (s : State) : shape (deliver t s) = shape s := by simp [deliver]

@[simp] theorem shape_enqueue (t : Nat) (timed : Bool) (r : Reply) (s : State) : shape (enqueue t timed r s) = shape s := by simp [enqueue]

@[simp] theorem shape_queueCell (c : QueuedCell) (s : State) : shape (queueCell c s) = shape s := by
  unfold queueCell
  split <;> simp

@[simp] theorem shape_post (t : Nat) (timed : Bool) (r : Reply) (s : State) : shape (post t timed r s) = shape s := by
  unfold post
  split
  · simp
  · split <;> simp

@[simp] theorem shape_refuseRaw (r : Req) (b : List Byte) (st : Status) (s : State) : shape (refuseRaw r b st s) = shape s := by
  simp [refuseRaw]

@[simp] theorem shape_drawKey (tag : Nat) (s : State) : shape (drawKey tag s) = shape s := by simp [drawKey]

@[simp] theorem shape_openTenant (t : Nat) (transports : Byte) (s : State) : shape (openTenant t transports s) = shape s := by
  simp [openTenant]

@[simp] theorem shape_forceClosed (t : Nat) (s : State) : shape (forceClosed t s) = shape s := by simp [forceClosed]

@[simp] theorem shape_drawFree (s : State) : shape (drawFree s).2 = shape s := by simp [drawFree]

@[simp] theorem shape_storePut (off : Nat) (b : Byte) (s : State) : shape (storePut off b s) = shape s := by
  unfold storePut
  split <;> simp

@[simp] theorem shape_storeWrite (off : Nat) (k : List (Byte × Bool)) (s : State) : shape (storeWrite off k s) = shape s := by
  induction k generalizing off s with
  | nil => rfl
  | cons x k ih => simp [storeWrite, ih]

@[simp] theorem shape_storePoke (off : Nat) (l : List Byte) (s : State) : shape (storePoke off l s) = shape s := by simp [storePoke]

@[simp] theorem shape_copyTo (t upTo : Nat) (s : State) : shape (copyTo t upTo s) = shape s := by
  unfold copyTo
  split <;> simp

@[simp] theorem shape_advanceCopy (t : Nat) (s : State) : shape (advanceCopy t s) = shape s := by
  unfold advanceCopy
  split <;> simp

@[simp] theorem shape_denyReply (timed : Bool) (s : State) (i : Instr) : shape (denyReply timed s i) = shape s := by
  unfold denyReply
  split <;> simp

@[simp] theorem shape_denyTaken (s : State) (a : Arrival) : shape (denyTaken s a) = shape s := by
  unfold denyTaken
  split <;> simp

@[simp] theorem shape_modGroup (t num : Nat) (f : Group → Group) (s : State) : shape (modGroup t num f s) = shape s := by simp [modGroup]

@[simp] theorem shape_disarm (s : State) : shape (disarm s) = shape s := by
  unfold disarm
  split <;> simp

@[simp] theorem shape_cancelPending (t : Nat) (pick : Instr → Bool) (s : State) : shape (cancelPending t pick s) = shape s := by
  simp [cancelPending]

@[simp] theorem shape_zeroiseKey (tag : Nat) (s : State) : shape (zeroiseKey tag s) = shape s := by simp [zeroiseKey]

@[simp] theorem shape_tellFreed (freed : List Nat) (s : State) : shape (tellFreed freed s) = shape s := by simp [tellFreed]

@[simp] theorem shape_fadeOutUnits (ty : Nat) (us : List Nat) (s : State) : shape (fadeOutUnits ty us s) = shape s := by simp [fadeOutUnits]

@[simp] theorem shape_advanceCopies (s : State) : shape (advanceCopies s) = shape s := by simp [advanceCopies]

@[simp] theorem shape_refuseTag (master what tag : Nat) (s : State) : shape (refuseTag master what tag s) = shape s := by simp [refuseTag]

@[simp] theorem shape_storeReadAs (master tag off n : Nat) (s : State) : shape (storeReadAs master tag off n s).1 = shape s := by
  unfold storeReadAs
  dsimp only
  split <;> simp

@[simp] theorem shape_apAnswer (error : Bool) (rdata : Option Word) (s : State) : shape (apAnswer error rdata s) = shape s := by
  simp [apAnswer]

@[simp] theorem shape_storeWriteAs (master tag off : Nat) (l : List (Byte × Bool)) (s : State) :
    shape (storeWriteAs master tag off l s).1 = shape s := by
  unfold storeWriteAs
  dsimp only
  split <;> simp

@[simp] theorem shape_debugStore (addr : Nat) (w : Option Word) (s : State) : shape (debugStore addr w s) = shape s := by
  unfold debugStore
  split
  · simp
  · split <;> simp

@[simp] theorem shape_apRetry (s : State) : shape (apRetry s) = shape s := by
  unfold apRetry
  split <;> simp

@[simp] theorem shape_releaseLock (s : State) : shape (releaseLock s) = shape s := by simp [releaseLock]

@[simp] theorem shape_clearCore (n : Nat) (s : State) : shape (clearCore n s) = shape s :=
  shape_modLens (fun c => by simp [coreSizes]) n s

@[simp] theorem shape_setHalted (k : Nat) (on : Bool) (s : State) : shape (setHalted k on s) = shape s := by simp [setHalted]

@[simp] theorem shape_revokeCore (s : State) (n : Nat) : shape (revokeCore s n) = shape s := by simp [revokeCore]

@[simp] theorem shape_stopPin (p : Nat) (s : State) : shape (stopPin p s) = shape s := by simp [stopPin]

end Sys2Proof.Machine
end


section
/-! What the operations of the units do to the sizes of the tables: revocation, power, gPTP, Prieth, the Last, pins, Prism, scenes. -/

namespace Sys2Proof.Machine

@[simp] theorem shape_stopMcg (m : Nat) (s : State) : shape (stopMcg m s) = shape s := by simp [stopMcg]

@[simp] theorem shape_stopUnits (ty : Nat) (us : List Nat) (s : State) : shape (stopUnits ty us s) = shape s := by
  unfold stopUnits
  split <;> simp

@[simp] theorem shape_setOwner (ty u t : Nat) (s : State) : shape (setOwner ty u t s) = shape s := by simp [setOwner]

@[simp] theorem shape_revokeUnits (t ty : Nat) (us : List Nat) (s : State) : shape (revokeUnits t ty us s) = shape s := by
  simp [revokeUnits]

@[simp] theorem shape_revokeAll (t : Nat) (s : State) : shape (revokeAll t s) = shape s := by simp [revokeAll]

@[simp] theorem shape_answer (who : RegMaster) (error write : Bool) (v : Word) (s : State) : shape (answer who error write v s) = shape s := by
  unfold answer
  dsimp only
  split <;> simp

@[simp] theorem shape_endDebugAccess (s : State) : shape (endDebugAccess s) = shape s := by
  unfold endDebugAccess
  dsimp only
  split <;> simp

@[simp] theorem shape_closeSession (cause : Nat) (s : State) : shape (closeSession cause s) = shape s := by simp [closeSession]

@[simp] theorem shape_stripTenant (t : Nat) (s : State) : shape (stripTenant t s) = shape s := by simp [stripTenant]

@[simp] theorem shape_closeTenant (t : Nat) (s : State) : shape (closeTenant t s).1 = shape s := by simp [closeTenant]

@[simp] theorem shape_grantUnits (ty t : Nat) (us : List Nat) (s : State) : shape (grantUnits ty t us s) = shape s := by simp [grantUnits]

@[simp] theorem shape_dropGroup (t num : Nat) (s : State) : shape (dropGroup t num s) = shape s := by simp [dropGroup]

@[simp] theorem shape_burn (field : Nat) (once : Bool) (v : BitVec 256) (s : State) : shape (burn field once v s) = shape s := by
  simp [burn]

@[simp] theorem shape_runImage (x : FwSlot) (slotB fallback : Bool) (s : State) : shape (runImage x slotB fallback s) = shape s := by
  simp [runImage]

@[simp] theorem shape_tellMode (who old new trigger : Nat) (s : State) : shape (tellMode who old new trigger s) = shape s := by
  simp [tellMode]

@[simp] theorem shape_tellWake (s : State) : shape (tellWake s) = shape s := by
  unfold tellWake
  split <;> simp

@[simp] theorem shape_holdTimeAct (s : State) : shape (holdTimeAct s) = shape s := by simp [holdTimeAct]

@[simp] theorem shape_stopAllPorts (s : State) : shape (stopAllPorts s) = shape s := by simp [stopAllPorts]

@[simp] theorem coreSizes_emptyCore (c : LensCore) : coreSizes (emptyCore c) = coreWhole := rfl

@[simp] theorem shape_loseCores {s : State} (hs : shape s = whole) : shape (loseCores s) = whole := by
  have hl : s.lens.map coreSizes = List.replicate 8 coreWhole := congrArg Shape.lens hs
  have h8 : s.lens.length = 8 := (map_eq_replicate_iff ..).1 hl |>.1
  rw [← hs]
  refine shape_lens ?_
  rw [hl, List.map_map, map_eq_replicate_iff]
  exact ⟨h8, fun _ _ => rfl⟩

@[simp] theorem shape_emptyPrism {s : State} (hs : shape s = whole) : shape (emptyPrism s) = whole := by
  have hp : s.prism.pipes.length = 6 := congrArg Shape.pipes hs
  rw [← hs]
  exact shape_modPrism_of (by simp) (by simp [hp])

@[simp] theorem shape_settlePrism (s : State) : shape (settlePrism s) = shape s := by simp [settlePrism]

@[simp] theorem shape_setLink (p : Nat) (up : Bool) (cause : Nat) (s : State) : shape (setLink p up cause s) = shape s := by simp [setLink]

@[simp] theorem shape_respond (q : MatrixReq) (error : Bool) (data : List Byte) (s : State) : shape (respond q error data s) = shape s := by
  simp [respond]

@[simp] theorem shape_settleBurst (s : State) (b : Burst) : shape (settleBurst s b) = shape s := by simp [settleBurst]

@[simp] theorem shape_settleBursts (s : State) : shape (settleBursts s) = shape s := by
  unfold settleBursts
  dsimp only
  split <;> simp

@[simp] theorem shape_holdDomains (l : List Nat) (s : State) : shape (holdDomains l s) = shape s := by simp [holdDomains]

@[simp] theorem shape_modRole (p : Nat) (extra : Bool) (f : PtpRole → PtpRole) (s : State) : shape (modRole p extra f s) = shape s := by
  simp [modRole]

@[simp] theorem shape_setRole (p : Nat) (extra : Bool) (role : Nat) (s : State) : shape (setRole p extra role s) = shape s := by
  simp [setRole]

@[simp] theorem shape_modDomain (extra : Bool) (f : PtpDomain → PtpDomain) (s : State) : shape (modDomain extra f s) = shape s := by
  simp [modDomain]

@[simp] theorem shape_setGm (extra : Bool) (gm : DWord) (steps : Nat) (s : State) : shape (setGm extra gm steps s) = shape s := by
  simp [setGm]

@[simp] theorem shape_staticRoles (extra : Bool) (s : State) : shape (staticRoles extra s) = shape s := by
  unfold staticRoles
  dsimp only
  split <;> simp

@[simp] theorem shape_followSource (extra : Bool) (old : Option Nat) (s : State) : shape (followSource extra old s) = shape s := by
  unfold followSource
  split <;> simp

@[simp] theorem shape_runBmca (extra : Bool) (s : State) : shape (runBmca extra s) = shape s := by simp [runBmca]

@[simp] theorem shape_refreshRoles (extra : Bool) (s : State) : shape (refreshRoles extra s) = shape s := by simp [refreshRoles]

@[simp] theorem shape_bothRoles (s : State) : shape (bothRoles s) = shape s := by simp [bothRoles]

@[simp] theorem shape_ethLost (p : Nat) (s : State) : shape (ethLost p s) = shape s := by simp [ethLost]

@[simp] theorem shape_plinkState (p new cause : Nat) (s : State) : shape (plinkState p new cause s) = shape s := by simp [plinkState]

@[simp] theorem shape_fabricMissed (fid cause : Nat) (s : State) : shape (fabricMissed fid cause s) = shape s := by simp [fabricMissed]

@[simp] theorem shape_setRate (s : State) : shape (setRate s) = shape s := by
  unfold setRate
  split <;> simp

@[simp] theorem shape_setServo (who : Nat) (new : Servo) (s : State) : shape (setServo who new s) = shape s := by simp [setServo]

@[simp] theorem shape_sourceLostOp (s : State) : shape (sourceLostOp s) = shape s := by
  unfold sourceLostOp
  split <;> simp

@[simp] theorem shape_unroot (s : State) : shape (unroot s) = shape s := by
  unfold unroot
  dsimp only
  repeat' split
  all_goals simp

@[simp] theorem shape_otherNodes (n : Nat) (s : State) : shape (otherNodes n s).2.2 = shape s := by
  unfold otherNodes
  split <;> simp

@[simp] theorem shape_sendExpress (p : Nat) (c : ExpressCell) (s : State) : shape (sendExpress p c s) = shape s := by simp [sendExpress]

@[simp] theorem shape_enumFinish (e : EnumRun) (s : State) : shape (enumFinish e s) = shape s := by simp [enumFinish]

@[simp] theorem shape_blockPort (p reason : Nat) (s : State) : shape (blockPort p reason s) = shape s := by simp [blockPort]

@[simp] theorem shape_enumGo (k : Nat) (s : State) : shape (enumGo k s) = shape s := by
  induction k generalizing s with
  | zero => rfl
  | succ k ih =>
    unfold enumGo
    split <;> simp [ih]

@[simp] theorem shape_reattachNext (s : State) : shape (reattachNext s) = shape s := by
  unfold reattachNext
  split
  · simp
  · split <;> simp

@[simp] theorem shape_enumStep (f : EnumRun → EnumRun) (s : State) : shape (enumStep f s) = shape s := by simp [enumStep]

@[simp] theorem shape_settlePrepare (s : State) : shape (settlePrepare s) = shape s := by
  unfold settlePrepare
  split <;> simp

@[simp] theorem shape_portDown (p cause : Nat) (s : State) : shape (portDown p cause s) = shape s := by
  unfold portDown
  dsimp only
  repeat' split
  all_goals simp

@[simp] theorem shape_plLost (p : Nat) (s : State) : shape (plLost p s) = shape s := by simp [plLost]

@[simp] theorem shape_setCore (mhz : Nat) (s : State) : shape (setCore mhz s) = shape s := by simp [setCore]

@[simp] theorem shape_holdStopUnits {s : State} (hs : shape s = whole) : shape (holdStopUnits s) = whole := by simp [holdStopUnits, hs]

@[simp] theorem shape_fadePortOutputs (s : State) : shape (fadePortOutputs s) = shape s := by simp [fadePortOutputs]

@[simp] theorem shape_fadeSinks (s : State) : shape (fadeSinks s) = shape s := by simp [fadeSinks]

@[simp] theorem shape_holdBegin {s : State} (hs : shape s = whole) : shape (holdBegin s) = whole := by simp [holdBegin, hs]

@[simp] theorem shape_holdAtL1 {s : State} (hs : shape s = whole) : shape (holdAtL1 s) = whole := by simp [holdAtL1, hs]

@[simp] theorem shape_loadCounter (s : State) : shape (loadCounter s) = shape s := by simp [loadCounter]

@[simp] theorem shape_settle (newest : Option (List Byte)) (s : State) : shape (settle newest s) = shape s := by simp [settle]

@[simp] theorem shape_resumeDump (d : Descriptor) (s : State) (k : Nat) : shape (resumeDump d s k) = shape s := by simp [resumeDump]

@[simp] theorem shape_enterHeld (h : HeldEvent) (s : State) : shape (enterHeld h s) = shape s := by simp [enterHeld]

@[simp] theorem shape_evrecStart (s : State) : shape (evrecStart s) = shape s := by
  unfold evrecStart
  dsimp only
  split
  · simp
  · split <;> simp

@[simp] theorem shape_report (p : Nat) (x : PinReport) (s : State) : shape (report p x s) = shape s := by simp [report]

@[simp] theorem shape_drive (p : Nat) (active : Bool) (at_ : Nat) (s : State) : shape (drive p active at_ s) = shape s := by simp [drive]

@[simp] theorem shape_startPulse (p width at_ : Nat) (s : State) : shape (startPulse p width at_ s) = shape s := by simp [startPulse]

@[simp] theorem shape_stepPin (new : Time) (forward : Bool) (s : State) (p : Nat) : shape (stepPin new forward s p) = shape s := by
  unfold stepPin
  dsimp only
  repeat' split
  all_goals simp

@[simp] theorem shape_resumePins (s : State) : shape (resumePins s) = shape s := by simp [resumePins]

@[simp] theorem shape_restorePins (us : Nat) (s : State) : shape (restorePins us s) = shape s := by simp [restorePins]

@[simp] theorem shape_wdStart (s : State) : shape (wdStart s) = shape s := by simp [wdStart]

@[simp] theorem shape_tellLowCell (s : State) (i : Nat) : shape (tellLowCell s i) = shape s := by simp [tellLowCell]

@[simp] theorem shape_tellLow (s : State) : shape (tellLow s) = shape s := by simp [tellLow]

@[simp] theorem shape_openSession (source scope : Nat) (duration : Option Nat) (s : State) :
    shape (openSession source scope duration s) = shape s := by simp [openSession]

@[simp] theorem shape_reachL1 (s : State) : shape (reachL1 s) = shape s := by simp [reachL1]

@[simp] theorem shape_hostStart (img : List Byte) {s : State} (hs : shape s = whole) : shape (hostStart img s) = whole := by
  simp [hostStart, hs]

@[simp] theorem shape_setOtherSlot (x : Option FwSlot) (bytes : List Byte) (s : State) : shape (setOtherSlot x bytes s) = shape s := by
  simp [setOtherSlot]

@[simp] theorem shape_renumber (q : Int) (s : State) : shape (renumber q s) = shape s := by
  unfold renumber
  dsimp only
  repeat' split
  all_goals simp [shape]

@[simp] theorem shape_moveGrid (d : Time) (s : State) : shape (moveGrid d s) = shape s := by simp [moveGrid]

@[simp] theorem shape_moveFrames (d : Time) (s : State) : shape (moveFrames d s) = shape s := by simp [moveFrames, shape]

@[simp] theorem shape_moveCounter (cause who : Nat) (base new : Time) (s : State) : shape (moveCounter cause who base new s) = shape s := by
  simp [moveCounter]

@[simp] theorem shape_stepByCommand (base : Time) (i : Instr) (s : State) : shape (stepByCommand base i s).1 = shape s := by
  unfold stepByCommand
  dsimp only
  repeat' split
  all_goals simp

@[simp] theorem shape_markPassed (new : Time) (s : State) : shape (markPassed new s) = shape s := by simp [markPassed]

@[simp] theorem shape_stepFsg (new : Time) (s : State) (k : Nat) : shape (stepFsg new s k) = shape s := by simp [stepFsg]

@[simp] theorem shape_judgeStep (base : Time) (s : State) : shape (judgeStep base s) = shape s := by simp [judgeStep]

@[simp] theorem shape_soloStep (i : Instr) (s : State) : shape (soloStep i s).1 = shape s := by simp [soloStep]

@[simp] theorem shape_slewTime (w : Slew) (s : State) : shape (slewTime w s).2 = shape s := by
  unfold slewTime
  dsimp only
  split <;> simp

@[simp] theorem shape_selectSource (who : Nat) (src domain : Byte) (s : State) : shape (selectSource who src domain s) = shape s := by
  simp [selectSource]

@[simp] theorem shape_retrim (pin : Nat) (s : State) (m : Nat) : shape (retrim pin s m) = shape s := by simp [retrim]

@[simp] theorem shape_configurePin (c : TpinCfg) (t : Time) (s : State) : shape (configurePin c t s) = shape s := by simp [configurePin]

@[simp] theorem shape_reportable (t : Time) (s : State) : shape (reportable t s).2 = shape s := by
  unfold reportable
  split <;> simp

@[simp] theorem shape_startEnumerate (setSource : Bool) (tenant : Nat) (s : State) : shape (startEnumerate setSource tenant s) = shape s := by
  simp [startEnumerate]

@[simp] theorem shape_applyMap (s : State) (c : MapCfg) : shape (applyMap s c) = shape s := by simp [applyMap]

@[simp] theorem shape_mapsDone (s : State) : shape (mapsDone s) = shape s := by simp [mapsDone]

@[simp] theorem shape_broadcast (c : ExpressCell) (s : State) : shape (broadcast c s) = shape s := by simp [broadcast]

@[simp] theorem shape_startPrepare (fid tenant group by_ : Nat) (s : State) : shape (startPrepare fid tenant group by_ s) = shape s := by
  simp [startPrepare]

@[simp] theorem shape_commitArmed (a : Armed) (w : Stamp) (s : State) : shape (commitArmed a w s) = shape s :=
  (shape_plink rfl).trans (by simp)

@[simp] theorem shape_abortArmed (fid : Nat) (s : State) : shape (abortArmed fid s) = shape s := by
  unfold abortArmed
  split <;> simp

@[simp] theorem shape_changeClass (src cls wind : Nat) (s : State) : shape (changeClass src cls wind s) = shape s := by simp [changeClass]

@[simp] theorem shape_setXp (t : Nat) (s : State) (i : XpItem) : shape (setXp t s i) = shape s := by simp [setXp]

@[simp] theorem shape_clearXp (t src bus : Nat) (s : State) : shape (clearXp t src bus s) = shape s := by simp [clearXp]

@[simp] theorem shape_setRoute (t sink : Nat) (source : Option Nat) (cut : Bool) (s : State) :
    shape (setRoute t sink source cut s) = shape s := by simp [setRoute]

@[simp] theorem shape_setRange (b r : Nat) (s : State) : shape (setRange b r s) = shape s := by simp [setRange]

@[simp] theorem shape_configBus (b family rate mode range : Nat) (s : State) : shape (configBus b family rate mode range s) = shape s := by
  simp [configBus]

@[simp] theorem shape_setParam (n slot word : Nat) (v : Word) (s : State) : shape (setParam n slot word v s) = shape s := by
  refine shape_modLens (fun c => ?_) n s
  dsimp only
  split
  · split <;> simp [coreSizes]
  · rfl

@[simp] theorem shape_applyEntry (t : Nat) (s : State) (e : List Byte) : shape (applyEntry t s e) = shape s := by
  unfold applyEntry
  split
  · simp
  · split <;> simp

@[simp] theorem shape_recallScene (t scene : Nat) (es : List (List Byte)) (s : State) : shape (recallScene t scene es s) = shape s := by
  simp [recallScene]

@[simp] theorem shape_tellImage (core slot : Byte) (page : Half) (offset : Word) (s : State) :
    shape (tellImage core slot page offset s) = shape s := by
  unfold tellImage
  split
  · exact shape_record ..
  · rfl

@[simp] theorem shape_modFlash (f : Flash → Flash) (s : State) : shape (modFlash f s) = shape s := by simp [modFlash]

@[simp] theorem shape_nvmFailure (a : Nat) (s : State) : shape (nvmFailure a s) = shape s := by simp [nvmFailure]

@[simp] theorem shape_evrecFailed (r : Req) (op a : Nat) (s : State) : shape (evrecFailed r op a s).1 = shape s := by simp [evrecFailed]

end Sys2Proof.Machine
end


section
/-! What changes of the power mode and cancelled work do to the sizes of the tables. -/

namespace Sys2Proof.Machine

@[simp] theorem shape_flashSpoil (a n : Nat) (s : State) : shape (flashSpoil a n s) = shape s := by simp [flashSpoil]

@[simp] theorem shape_spoilSector (a : Nat) (s : State) : shape (spoilSector a s) = shape s :=
  (shape_modEvrec _ _).trans (shape_flashSpoil a 4096 s)

@[simp] theorem shape_clampBucket (burst : Nat) (s : State) (code : Nat) : shape (clampBucket burst s code) = shape s := by
  simp [clampBucket]

@[simp] theorem shape_restartCores (s : State) : shape (restartCores s) = shape s := by
  refine shape_lens ?_
  rw [List.map_map]
  exact List.map_congr_left fun c _ => by simp [abortKernels, coreSizes]

@[simp] theorem shape_rampPortOutputs (s : State) : shape (rampPortOutputs s) = shape s := by simp [rampPortOutputs]

@[simp] theorem shape_resumePrism (s : State) : shape (resumePrism s) = shape s := by simp [resumePrism]

@[simp] theorem shape_fadesOver {s : State} (hs : shape s = whole) : shape (fadesOver s) = whole := by
  unfold fadesOver
  split
  · exact hs
  · split <;> simp [hs]

@[simp] theorem shape_cutCommit (s : State) : shape (cutCommit s) = shape s := by
  unfold cutCommit
  split
  · split <;> simp
  · simp

@[simp] theorem shape_stopClass2 (c : Instr) (s : State) : shape (stopClass2 c s) = shape s := by
  unfold stopClass2
  split <;> simp

@[simp] theorem shape_denyWork (s : State) (t : Nat) : shape (denyWork s t) = shape s := by
  unfold denyWork
  dsimp only
  repeat' split
  all_goals simp

@[simp] theorem shape_setMode (r : Req) (mode : Nat) (wake : Option Time) {s : State} (hs : shape s = whole) :
    shape (setMode r mode wake s) = whole := by
  unfold setMode
  dsimp only
  split
  · split <;> simp [hs]
  · split <;> simp [hs]
  · split <;> simp [hs]

@[simp] theorem shape_chgUpdate (s : State) : shape (chgUpdate s) = shape s := by simp [chgUpdate]

@[simp] theorem shape_say (r : Req) (i : Instr) (st : Status) (res : List Byte) (s : State) : shape (say r i st res s) = shape s := by
  simp [say]

end Sys2Proof.Machine
end


section
/-! What the meanings of the commands do to the sizes of the tables. -/

namespace Sys2Proof.Machine

/-- What a meaning does to a state leaves the sizes of its tables as the spec gives them. -/
structure Meaning.Keeps (m : Meaning) : Prop where
  onRefuse : ∀ (st : Status) {s : State}, shape s = whole → shape (m.onRefuse st s) = whole
  onAccept : ∀ {s : State}, shape s = whole → shape (m.onAccept s).1 = whole
  start : ∀ {s : State}, shape s = whole → shape (m.start s) = whole
  effect : ∀ (got : List Byte) {s : State}, shape s = whole → shape (m.effect got s).1 = whole

/-- A meaning that has an effect alone. -/
theorem Meaning.Keeps.of_effect {m : Meaning} (h : m.onRefuse = fun _ s => s) (ha : m.onAccept = fun s => (s, .pending, []))
    (hs : m.start = fun s => s) (he : ∀ (got : List Byte) (s : State), shape s = whole → shape (m.effect got s).1 = whole) : m.Keeps where
  onRefuse _ _ hw := by rwa [h]
  onAccept hw := by rwa [ha]
  start hw := by rwa [hs]
  effect got s := he got s

theorem keeps_sysInfoM (r : Req) : (sysInfoM r).Keeps := .of_effect rfl rfl rfl fun _ _ h => by simp [sysInfoM, h]

theorem keeps_tenantOpenM (tenant transports : Byte) : (tenantOpenM tenant transports).Keeps :=
  .of_effect rfl rfl rfl fun _ _ h => by simp [tenantOpenM, h]

theorem keeps_tenantCloseM (tenant : Byte) : (tenantCloseM tenant).Keeps :=
  .of_effect rfl rfl rfl fun _ _ h => by
    unfold tenantCloseM
    dsimp only
    split <;> simp [h]

theorem keeps_grantM (tenant type : Byte) (first count : Half) : (grantM tenant type first count).Keeps :=
  .of_effect rfl rfl rfl fun _ _ h => by simp [grantM, h]

theorem keeps_revokeM (tenant type : Byte) (first count : Half) : (revokeM tenant type first count).Keeps :=
  .of_effect rfl rfl rfl fun _ _ h => by simp [revokeM, h]

theorem keeps_groupCommitM (r : Req) : (groupCommitM r).Keeps where
  onRefuse _ _ h := h
  onAccept h := by
    unfold groupCommitM
    dsimp only
    split <;> simp [h]
  start h := h
  effect _ _ h := by
    unfold groupCommitM
    dsimp only
    split <;> simp [h]

theorem keeps_groupAbortM (r : Req) : (groupAbortM r).Keeps :=
  .of_effect rfl rfl rfl fun _ _ h => by
    unfold groupAbortM
    dsimp only
    split <;> simp [h]

theorem keeps_groupStatusM (r : Req) : (groupStatusM r).Keeps :=
  .of_effect rfl rfl rfl fun _ _ h => by
    unfold groupStatusM
    dsimp only
    split <;> simp [h]

theorem keeps_fuseReadM (field : Half) : (fuseReadM field).Keeps :=
  .of_effect rfl rfl rfl fun _ _ h => by
    unfold fuseReadM
    dsimp only
    split <;> simp [h]

theorem keeps_fuseProgramM (r : Req) (field : Half) (value : BitVec 256) : (fuseProgramM r field value).Keeps where
  onRefuse st s h := by simp [fuseProgramM, h]
  onAccept h := h
  start h := h
  effect got s h := by
    unfold fuseProgramM
    dsimp only
    split
    · split <;> simp [h]
    · exact h

theorem keeps_fwWriteM (offset : Word) (data : List Byte) : (fwWriteM offset data).Keeps :=
  .of_effect rfl rfl rfl fun _ _ h => by simp [fwWriteM, h]

theorem keeps_fwCommitM (r : Req) (size : Word) : (fwCommitM r size).Keeps :=
  .of_effect rfl rfl rfl fun _ _ h => by
    unfold fwCommitM
    dsimp only
    repeat' split
    all_goals simp [h]

theorem keeps_timeGetM (r : Req) : (timeGetM r).Keeps := .of_effect rfl rfl rfl fun _ _ h => by simp [timeGetM, h]

theorem keeps_timeSetM (r : Req) (time : Stamp) (utc flags : Half) : (timeSetM r time utc flags).Keeps :=
  .of_effect rfl rfl rfl fun _ _ h => by simp [timeSetM, h]

theorem keeps_timeStepM (r : Req) (offset : DWord) : (timeStepM r offset).Keeps :=
  .of_effect rfl rfl rfl fun _ _ h => by simp [timeStepM, h]

theorem keeps_timeAdjustM (offset : DWord) (slew : Word) : (timeAdjustM offset slew).Keeps :=
  .of_effect rfl rfl rfl fun _ _ h => by
    unfold timeAdjustM
    dsimp only
    split <;> simp [h]

theorem keeps_rateSetM (rate : Word) : (rateSetM rate).Keeps := .of_effect rfl rfl rfl fun _ _ h => by simp [rateSetM, h]

theorem keeps_sourceSetM (r : Req) (src domain : Byte) : (sourceSetM r src domain).Keeps :=
  .of_effect rfl rfl rfl fun _ _ h => by simp [sourceSetM, h]

theorem keeps_servoConfigM (stepThr lockThr unlockThr slewMax : Word) (lockCount loopBw : Half) :
    (servoConfigM stepThr lockThr unlockThr slewMax lockCount loopBw).Keeps :=
  .of_effect rfl rfl rfl fun _ _ h => by
    unfold servoConfigM
    dsimp only
    split <;> simp [h]

theorem keeps_lastStatusM : lastStatusM.Keeps := .of_effect rfl rfl rfl fun _ _ h => by simp [lastStatusM, h]

@[simp] theorem calSizes_setTerm (item index sub : Nat) (v : Int) (c : Calib) : calSizes (setTerm item index sub v c) = calSizes c := by
  unfold setTerm
  split <;> simp [calSizes]

theorem keeps_calSetM (item index sub : Byte) (value : Word) : (calSetM item index sub value).Keeps :=
  .of_effect rfl rfl rfl fun _ _ h => by simp [calSetM, h]

theorem keeps_calGetM (item index sub : Byte) : (calGetM item index sub).Keeps := .of_effect rfl rfl rfl fun _ _ h => by simp [calGetM, h]

theorem keeps_ethPortConfigM (port mode : Byte) (vid : Half) (mac : BitVec 48) : (ethPortConfigM port mode vid mac).Keeps :=
  .of_effect rfl rfl rfl fun _ _ h => by simp [ethPortConfigM, h]

theorem keeps_ethPortStatusM (port : Byte) : (ethPortStatusM port).Keeps := .of_effect rfl rfl rfl fun _ _ h => by simp [ethPortStatusM, h]

theorem keeps_gptpConfigM (c : GptpCfg) : (gptpConfigM c).Keeps := .of_effect rfl rfl rfl fun _ _ h => by simp [gptpConfigM, h]

theorem keeps_gptpPortRoleM (port role domains : Byte) : (gptpPortRoleM port role domains).Keeps :=
  .of_effect rfl rfl rfl fun _ _ h => by simp [gptpPortRoleM, h]

theorem keeps_gptpStatusM (domain : Byte) : (gptpStatusM domain).Keeps :=
  .of_effect rfl rfl rfl fun _ _ h => by
    unfold gptpStatusM
    dsimp only
    split <;> simp [h]

theorem keeps_avtpTalkerConfigM (c : AvtpCfg) : (avtpTalkerConfigM c).Keeps :=
  .of_effect rfl rfl rfl fun _ _ h => by simp [avtpTalkerConfigM, h]

theorem keeps_avtpListenerConfigM (c : AvtpCfg) : (avtpListenerConfigM c).Keeps :=
  .of_effect rfl rfl rfl fun _ _ h => by simp [avtpListenerConfigM, h]

theorem keeps_avtpStreamStartM (r : Req) (dir stream : Byte) : (avtpStreamStartM r dir stream).Keeps :=
  .of_effect rfl rfl rfl fun _ _ h => by simp [avtpStreamStartM, h]

theorem keeps_avtpStreamStopM (dir stream : Byte) : (avtpStreamStopM dir stream).Keeps :=
  .of_effect rfl rfl rfl fun _ _ h => by simp [avtpStreamStopM, h]

theorem keeps_avtpStreamStatusM (dir stream : Byte) : (avtpStreamStatusM dir stream).Keeps :=
  .of_effect rfl rfl rfl fun _ _ h => by simp [avtpStreamStatusM, h]

theorem keeps_crfConfigM (c : CrfCfg) : (crfConfigM c).Keeps := .of_effect rfl rfl rfl fun _ _ h => by simp [crfConfigM, h]

theorem keeps_cbsConfigM (port : Byte) (idleA idleB : Word) : (cbsConfigM port idleA idleB).Keeps :=
  .of_effect rfl rfl rfl fun _ _ h => by simp [cbsConfigM, h]

theorem keeps_ethRxFilterM (ports actions rlog2 : Byte) (base : DWord) : (ethRxFilterM ports actions rlog2 base).Keeps :=
  .of_effect rfl rfl rfl fun _ _ h => by simp [ethRxFilterM, h]

theorem keeps_tpinConfigM (r : Req) (c : TpinCfg) : (tpinConfigM r c).Keeps :=
  .of_effect rfl rfl rfl fun _ _ h => by
    unfold tpinConfigM
    dsimp only
    split <;> simp [h]

theorem keeps_tpinScheduleM (r : Req) (pin action policy : Byte) (time : Stamp) : (tpinScheduleM r pin action policy time).Keeps :=
  .of_effect rfl rfl rfl fun _ _ h => by simp [tpinScheduleM, h]

theorem keeps_tpinCancelM (pin : Byte) (handle : Half) : (tpinCancelM pin handle).Keeps :=
  .of_effect rfl rfl rfl fun _ _ h => by simp [tpinCancelM, h]

theorem keeps_tpinCaptureReadM (r : Req) (pin max_ : Byte) : (tpinCaptureReadM r pin max_).Keeps :=
  .of_effect rfl rfl rfl fun _ _ h => by simp [tpinCaptureReadM, h]

theorem keeps_reflexConfigM (c : ReflexCfg) : (reflexConfigM c).Keeps := .of_effect rfl rfl rfl fun _ _ h => by simp [reflexConfigM, h]

theorem keeps_reflexWindowM (c : WindowCfg) : (reflexWindowM c).Keeps := .of_effect rfl rfl rfl fun _ _ h => by simp [reflexWindowM, h]

theorem keeps_fsgConfigM (r : Req) (c : FsgCfg) : (fsgConfigM r c).Keeps := .of_effect rfl rfl rfl fun _ _ h => by simp [fsgConfigM, h]

theorem keeps_fsgStartM (r : Req) (k : Byte) : (fsgStartM r k).Keeps := .of_effect rfl rfl rfl fun _ _ h => by simp [fsgStartM, h]

theorem keeps_fsgStopM (k : Byte) : (fsgStopM k).Keeps := .of_effect rfl rfl rfl fun _ _ h => by simp [fsgStopM, h]

theorem keeps_fsgStatusM (k : Byte) : (fsgStatusM k).Keeps :=
  .of_effect rfl rfl rfl fun _ _ h => by
    unfold fsgStatusM
    dsimp only
    split <;> simp [h]

theorem keeps_plinkStatusM (port : Byte) : (plinkStatusM port).Keeps := .of_effect rfl rfl rfl fun _ _ h => by simp [plinkStatusM, h]

theorem keeps_plinkEnumerateM (r : Req) (flags : Byte) : (plinkEnumerateM r flags).Keeps where
  onRefuse _ _ h := h
  onAccept h := h
  start h := by simp [plinkEnumerateM, h]
  effect _ _ h := by simp [plinkEnumerateM, h]

theorem keeps_plinkTopologyM : plinkTopologyM.Keeps := .of_effect rfl rfl rfl fun _ _ h => by simp [plinkTopologyM, h]

theorem keeps_plinkAudioMapM (c : MapCfg) : (plinkAudioMapM c).Keeps := .of_effect rfl rfl rfl fun _ _ h => by simp [plinkAudioMapM, h]

theorem keeps_fabricPrepareM (r : Req) (fid tenant : Byte) (group : Half) : (fabricPrepareM r fid tenant group).Keeps where
  onRefuse _ _ h := h
  onAccept h := by simp [fabricPrepareM, h]
  start h := h
  effect _ _ h := by
    unfold fabricPrepareM
    dsimp only
    split <;> simp [h]

theorem keeps_fabricApplyM (r : Req) (fid : Byte) : (fabricApplyM r fid).Keeps where
  onRefuse _ _ h := h
  onAccept h := by
    unfold fabricApplyM
    dsimp only
    split <;> simp [h]
  start h := h
  effect _ _ h := by simp [fabricApplyM, h]

theorem keeps_fabricAbortM (r : Req) (fid : Byte) : (fabricAbortM r fid).Keeps :=
  .of_effect rfl rfl rfl fun _ _ h => by simp [fabricAbortM, h]

theorem keeps_plinkDelayGetM (port : Byte) : (plinkDelayGetM port).Keeps := .of_effect rfl rfl rfl fun _ _ h => by simp [plinkDelayGetM, h]

theorem keeps_mcgConfigM (mcg mode family mult : Byte) (window : Half) : (mcgConfigM mcg mode family mult window).Keeps :=
  .of_effect rfl rfl rfl fun _ _ h => by
    unfold mcgConfigM
    dsimp only
    split
    · rw [shape_record]
      exact (shape_audio rfl rfl).trans ((shape_modMcg ..).trans h)
    · exact (shape_modMcg ..).trans h

theorem keeps_mcgMeasureM (mcg : Byte) : (mcgMeasureM mcg).Keeps := .of_effect rfl rfl rfl fun _ _ h => by simp [mcgMeasureM, h]

theorem keeps_aportConfigM (c : AportCfg) : (aportConfigM c).Keeps := .of_effect rfl rfl rfl fun _ _ h => by simp [aportConfigM, h]

theorem keeps_aportStartM (port : Byte) : (aportStartM port).Keeps := .of_effect rfl rfl rfl fun _ _ h => by simp [aportStartM, h]

theorem keeps_aportStopM (port : Byte) : (aportStopM port).Keeps := .of_effect rfl rfl rfl fun _ _ h => by simp [aportStopM, h]

theorem keeps_aportMaskM (port : Byte) (tx rx : Word) : (aportMaskM port tx rx).Keeps :=
  .of_effect rfl rfl rfl fun _ _ h => by simp [aportMaskM, h]

theorem keeps_aportRateM (r : Req) (port mcg rate : Byte) : (aportRateM r port mcg rate).Keeps :=
  .of_effect rfl rfl rfl fun _ _ h => by simp [aportRateM, h]

theorem keeps_aportStatusM (port : Byte) : (aportStatusM port).Keeps := .of_effect rfl rfl rfl fun _ _ h => by simp [aportStatusM, h]

theorem keeps_prismInputClassM (src : Half) (cls wind : Byte) : (prismInputClassM src cls wind).Keeps :=
  .of_effect rfl rfl rfl fun _ _ h => by simp [prismInputClassM, h]

theorem keeps_prismXpSetM (r : Req) (l : List XpItem) : (prismXpSetM r l).Keeps :=
  .of_effect rfl rfl rfl fun _ _ h => by simp [prismXpSetM, h]

theorem keeps_prismXpClearM (r : Req) (l : List XpKey) : (prismXpClearM r l).Keeps :=
  .of_effect rfl rfl rfl fun _ _ h => by simp [prismXpClearM, h]

theorem keeps_prismRouteM (r : Req) (sink source : Half) (flags : Byte) : (prismRouteM r sink source flags).Keeps :=
  .of_effect rfl rfl rfl fun _ _ h => by simp [prismRouteM, h]

theorem keeps_prismBusConfigM (bus family rate mode range : Byte) : (prismBusConfigM bus family rate mode range).Keeps :=
  .of_effect rfl rfl rfl fun _ _ h => by simp [prismBusConfigM, h]

theorem keeps_prismBusRangeM (bus range : Byte) : (prismBusRangeM bus range).Keeps :=
  .of_effect rfl rfl rfl fun _ _ h => by simp [prismBusRangeM, h]

theorem keeps_prismDirectGainM (src : Half) (bus : Byte) (gain : Half) : (prismDirectGainM src bus gain).Keeps :=
  .of_effect rfl rfl rfl fun _ _ h => by simp [prismDirectGainM, h]

theorem keeps_prismStatusM (bus : Byte) : (prismStatusM bus).Keeps := .of_effect rfl rfl rfl fun _ _ h => by simp [prismStatusM, h]

theorem keeps_sceneStoreM (r : Req) (scene : Byte) (page : Half) (offset : Word) : (sceneStoreM r scene page offset).Keeps :=
  .of_effect rfl rfl rfl fun _ _ h => by
    unfold sceneStoreM
    dsimp only
    repeat' split
    all_goals simp [h]

theorem keeps_sceneRecallM (r : Req) (scene : Byte) : (sceneRecallM r scene).Keeps where
  onRefuse st s h := by
    unfold sceneRecallM
    dsimp only
    split
    · split
      · split <;> simp [h]
      · exact h
    · exact h
  onAccept h := h
  start h := h
  effect _ _ h := by simp [sceneRecallM, h]

theorem keeps_sceneDeleteM (r : Req) (scene : Byte) : (sceneDeleteM r scene).Keeps :=
  .of_effect rfl rfl rfl fun _ _ h => by simp [sceneDeleteM, h]

theorem keeps_sceneListM (r : Req) : (sceneListM r).Keeps := .of_effect rfl rfl rfl fun _ _ h => by simp [sceneListM, h]

theorem keeps_mirrorConfigM (r : Req) (family rate block : Byte) (len : Half) : (mirrorConfigM r family rate block len).Keeps :=
  .of_effect rfl rfl rfl fun _ _ h => by simp [mirrorConfigM, h]

theorem keeps_mirrorStatusM (r : Req) : (mirrorStatusM r).Keeps := .of_effect rfl rfl rfl fun _ _ h => by simp [mirrorStatusM, h]

theorem keeps_lensLoadM (r : Req) (core slot : Byte) (page : Half) (offset : Word) : (lensLoadM r core slot page offset).Keeps where
  onRefuse st s h := by
    unfold lensLoadM
    dsimp only
    rw [shape_ite, shape_tellImage, h, ite_self]
  onAccept h := h
  start h := h
  effect _ s h := by
    unfold lensLoadM
    dsimp only
    split
    · rw [shape_ite, shape_tellImage, h, ite_self]
    · rw [shape_record, shape_modLens (coreSizes_loadKernel _ _ _), h]

theorem keeps_lensChainM (r : Req) (g : ChainCfg) : (lensChainM r g).Keeps :=
  .of_effect rfl rfl rfl fun _ s h => (shape_modLens (fun _ => by simp [coreSizes]) _ s).trans h

theorem keeps_lensStartM (core slots : Byte) : (lensStartM core slots).Keeps :=
  .of_effect rfl rfl rfl fun _ s h => (shape_modLens (fun _ => by simp [coreSizes]) _ s).trans h

theorem keeps_lensStopM (r : Req) (core slots : Byte) : (lensStopM r core slots).Keeps :=
  .of_effect rfl rfl rfl fun _ s h => (shape_modLens (fun _ => by simp [coreSizes]) _ s).trans h

theorem keeps_lensParamM (l : List LensItem) : (lensParamM l).Keeps := .of_effect rfl rfl rfl fun _ _ h => by simp [lensParamM, h]

theorem keeps_lensStatusM (core : Byte) : (lensStatusM core).Keeps := .of_effect rfl rfl rfl fun _ _ h => by simp [lensStatusM, h]

theorem keeps_lensDeadlineM (core strikes : Byte) (guard : Half) : (lensDeadlineM core strikes guard).Keeps :=
  .of_effect rfl rfl rfl fun _ s h =>
    (shape_modLens (f := fun c => { c with deadlineSet := some (strikes.toNat, guard.toNat) }) (fun _ => rfl) _ s).trans h

theorem keeps_pageInfoM (r : Req) : (pageInfoM r).Keeps := .of_effect rfl rfl rfl fun _ _ h => by simp [pageInfoM, h]

theorem keeps_pageReadM (r : Req) (page : Half) (offset : Word) (length : Half) : (pageReadM r page offset length).Keeps :=
  .of_effect rfl rfl rfl fun _ _ h => by simp [pageReadM, h]

theorem keeps_pageWriteM (page : Half) (offset : Word) (data : List Byte) : (pageWriteM page offset data).Keeps :=
  .of_effect rfl rfl rfl fun _ _ h => by simp [pageWriteM, h]

theorem keeps_pageCopyM (r : Req) (src dst : Half) : (pageCopyM r src dst).Keeps :=
  .of_effect rfl rfl rfl fun _ _ h => by simp [pageCopyM, h]

theorem keeps_evrecConfigM (r : Req) (cBase cSize dumpBase : Word) (tick : Half) : (evrecConfigM r cBase cSize dumpBase tick).Keeps where
  onRefuse st s h := by simp [evrecConfigM, h]
  onAccept h := h
  start h := h
  effect got s h := by
    unfold evrecConfigM
    dsimp only
    split
    · rw [shape_record, shape_modEvrec, shape_modFlash, h]
    · rw [shape_evrecFailed, shape_spoilSector, h]

theorem keeps_evrecReadM (r : Req) (channel max_ : Byte) (from_ : Word) : (evrecReadM r channel max_ from_).Keeps :=
  .of_effect rfl rfl rfl fun _ _ h => by
    unfold evrecReadM
    dsimp only
    split <;> simp [h]

theorem keeps_evrecStatusM : evrecStatusM.Keeps := .of_effect rfl rfl rfl fun _ _ h => by simp [evrecStatusM, h]

theorem keeps_evrecRateM (code rate : Half) (burst : Byte) : (evrecRateM code rate burst).Keeps :=
  .of_effect rfl rfl rfl fun _ s h => by
    unfold evrecRateM
    dsimp only
    generalize eventCodes = l
    split
    · rw [shape_modEvrec, shape_foldl (shape_clampBucket _), h]
    · rw [shape_modEvrec, shape_clampBucket, h]

theorem keeps_evrecFlushM : evrecFlushM.Keeps where
  onRefuse st s h := by simp [evrecFlushM, h]
  onAccept h := h
  start h := by simp [evrecFlushM, h]
  effect _ _ h := by
    unfold evrecFlushM
    dsimp only
    split <;> simp [h]

theorem keeps_evrecEraseM (r : Req) (target : Byte) : (evrecEraseM r target).Keeps where
  onRefuse _ _ h := h
  onAccept h := h
  start h := by simp [evrecEraseM, h]
  effect got s h := by
    unfold evrecEraseM
    dsimp only
    split
    · rw [shape_record]
      split
      · split <;> simp [h]
      · split <;> simp [h]
    · rw [shape_evrecFailed, shape_spoilSector, shape_ite, shape_modEvrec, h, ite_self]

theorem keeps_wdogConfigM (r : Req) (period : Half) : (wdogConfigM r period).Keeps where
  onRefuse st s h := by simp [wdogConfigM, h]
  onAccept h := h
  start h := h
  effect _ _ h := by simp [wdogConfigM, h]

theorem keeps_wdogStatusM : wdogStatusM.Keeps := .of_effect rfl rfl rfl fun _ _ h => by simp [wdogStatusM, h]

theorem keeps_wdogCountClearM : wdogCountClearM.Keeps := .of_effect rfl rfl rfl fun _ _ h => by simp [wdogCountClearM, h]

theorem keeps_superviseStatusM : superviseStatusM.Keeps := .of_effect rfl rfl rfl fun _ _ h => by simp [superviseStatusM, h]

theorem keeps_powerModeM (r : Req) (mode flags : Byte) (wakeAt : Stamp) : (powerModeM r mode flags wakeAt).Keeps :=
  .of_effect rfl rfl rfl fun _ _ h => by simp [powerModeM, h]

theorem keeps_powerStatusM : powerStatusM.Keeps := .of_effect rfl rfl rfl fun _ _ h => by simp [powerStatusM, h]

theorem keeps_coreClockM (r : Req) (mhz : Half) : (coreClockM r mhz).Keeps := .of_effect rfl rfl rfl fun _ _ h => by simp [coreClockM, h]

theorem keeps_holdConfigM (c : HoldCfg) : (holdConfigM c).Keeps := .of_effect rfl rfl rfl fun _ _ h => by simp [holdConfigM, h]

theorem keeps_stackStatusM : stackStatusM.Keeps := .of_effect rfl rfl rfl fun _ _ h => by simp [stackStatusM, h]

theorem shape_discardVolts {f : Pwr → Pwr} (hv : ∀ p, (f p).volts.length = 12) (hl : ∀ p, (f p).lowSeen.length = p.lowSeen.length)
    {s : State} (hs : shape s = whole) : shape (modPwr f s) = whole := by
  have h12 : s.pwr.volts.length = 12 := congrArg Shape.volts hs
  rw [← hs]
  exact shape_pwr ((hv _).trans h12.symm) (hl _)

theorem keeps_balanceConfigM (c : BalanceCfg) : (balanceConfigM c).Keeps :=
  .of_effect rfl rfl rfl fun _ s h => by
    unfold balanceConfigM
    dsimp only
    rw [shape_chgUpdate, shape_ite, shape_modPwr (f := openSwitches) (fun _ => rfl) (fun _ => rfl), ite_self, shape_ite]
    split
    · refine shape_discardVolts (fun _ => ?_) (fun _ => ?_) ?_
      · exact rfl
      · exact rfl
      · exact h
    · simp [h]

theorem keeps_dbgOpenM (scope : Byte) (duration : Half) : (dbgOpenM scope duration).Keeps :=
  .of_effect rfl rfl rfl fun _ _ h => by simp [dbgOpenM, h]

theorem keeps_dbgCloseM : dbgCloseM.Keeps := .of_effect rfl rfl rfl fun _ _ h => by simp [dbgCloseM, h]

theorem keeps_dbgStatusM : dbgStatusM.Keeps := .of_effect rfl rfl rfl fun _ _ h => by simp [dbgStatusM, h]

/-- Every command of Tables 4.5 and after has a meaning that keeps the tables of units. -/
theorem keeps_meaningOf {i : Instr} {m : Meaning} (h : meaningOf i = some m) : m.Keeps := by
  cases i
  case sysInfo => exact Option.some.inj h ▸ keeps_sysInfoM ..
  case tenantOpen => exact Option.some.inj h ▸ keeps_tenantOpenM ..
  case tenantClose => exact Option.some.inj h ▸ keeps_tenantCloseM ..
  case grant => exact Option.some.inj h ▸ keeps_grantM ..
  case revoke => exact Option.some.inj h ▸ keeps_revokeM ..
  case groupCommit => exact Option.some.inj h ▸ keeps_groupCommitM ..
  case groupAbort => exact Option.some.inj h ▸ keeps_groupAbortM ..
  case groupStatus => exact Option.some.inj h ▸ keeps_groupStatusM ..
  case fuseRead => exact Option.some.inj h ▸ keeps_fuseReadM ..
  case fuseProgram => exact Option.some.inj h ▸ keeps_fuseProgramM ..
  case fwWrite => exact Option.some.inj h ▸ keeps_fwWriteM ..
  case fwCommit => exact Option.some.inj h ▸ keeps_fwCommitM ..
  case timeGet => exact Option.some.inj h ▸ keeps_timeGetM ..
  case timeSet => exact Option.some.inj h ▸ keeps_timeSetM ..
  case timeStep => exact Option.some.inj h ▸ keeps_timeStepM ..
  case timeAdjust => exact Option.some.inj h ▸ keeps_timeAdjustM ..
  case rateSet => exact Option.some.inj h ▸ keeps_rateSetM ..
  case sourceSet => exact Option.some.inj h ▸ keeps_sourceSetM ..
  case servoConfig => exact Option.some.inj h ▸ keeps_servoConfigM ..
  case lastStatus => exact Option.some.inj h ▸ keeps_lastStatusM
  case calSet => exact Option.some.inj h ▸ keeps_calSetM ..
  case calGet => exact Option.some.inj h ▸ keeps_calGetM ..
  case ethPortConfig => exact Option.some.inj h ▸ keeps_ethPortConfigM ..
  case ethPortStatus => exact Option.some.inj h ▸ keeps_ethPortStatusM ..
  case gptpConfig => exact Option.some.inj h ▸ keeps_gptpConfigM ..
  case gptpPortRole => exact Option.some.inj h ▸ keeps_gptpPortRoleM ..
  case gptpStatus => exact Option.some.inj h ▸ keeps_gptpStatusM ..
  case avtpTalkerConfig => exact Option.some.inj h ▸ keeps_avtpTalkerConfigM ..
  case avtpListenerConfig => exact Option.some.inj h ▸ keeps_avtpListenerConfigM ..
  case avtpStreamStart => exact Option.some.inj h ▸ keeps_avtpStreamStartM ..
  case avtpStreamStop => exact Option.some.inj h ▸ keeps_avtpStreamStopM ..
  case avtpStreamStatus => exact Option.some.inj h ▸ keeps_avtpStreamStatusM ..
  case crfConfig => exact Option.some.inj h ▸ keeps_crfConfigM ..
  case cbsConfig => exact Option.some.inj h ▸ keeps_cbsConfigM ..
  case ethRxFilter => exact Option.some.inj h ▸ keeps_ethRxFilterM ..
  case tpinConfig => exact Option.some.inj h ▸ keeps_tpinConfigM ..
  case tpinSchedule => exact Option.some.inj h ▸ keeps_tpinScheduleM ..
  case tpinCancel => exact Option.some.inj h ▸ keeps_tpinCancelM ..
  case tpinCaptureRead => exact Option.some.inj h ▸ keeps_tpinCaptureReadM ..
  case reflexConfig => exact Option.some.inj h ▸ keeps_reflexConfigM ..
  case reflexWindow => exact Option.some.inj h ▸ keeps_reflexWindowM ..
  case fsgConfig => exact Option.some.inj h ▸ keeps_fsgConfigM ..
  case fsgStart => exact Option.some.inj h ▸ keeps_fsgStartM ..
  case fsgStop => exact Option.some.inj h ▸ keeps_fsgStopM ..
  case fsgStatus => exact Option.some.inj h ▸ keeps_fsgStatusM ..
  case plinkStatus => exact Option.some.inj h ▸ keeps_plinkStatusM ..
  case plinkEnumerate => exact Option.some.inj h ▸ keeps_plinkEnumerateM ..
  case plinkTopology => exact Option.some.inj h ▸ keeps_plinkTopologyM
  case plinkAudioMap => exact Option.some.inj h ▸ keeps_plinkAudioMapM ..
  case fabricPrepare => exact Option.some.inj h ▸ keeps_fabricPrepareM ..
  case fabricApply => exact Option.some.inj h ▸ keeps_fabricApplyM ..
  case fabricAbort => exact Option.some.inj h ▸ keeps_fabricAbortM ..
  case plinkDelayGet => exact Option.some.inj h ▸ keeps_plinkDelayGetM ..
  case mcgConfig => exact Option.some.inj h ▸ keeps_mcgConfigM ..
  case mcgMeasure => exact Option.some.inj h ▸ keeps_mcgMeasureM ..
  case aportConfig => exact Option.some.inj h ▸ keeps_aportConfigM ..
  case aportStart => exact Option.some.inj h ▸ keeps_aportStartM ..
  case aportStop => exact Option.some.inj h ▸ keeps_aportStopM ..
  case aportMask => exact Option.some.inj h ▸ keeps_aportMaskM ..
  case aportRate => exact Option.some.inj h ▸ keeps_aportRateM ..
  case aportStatus => exact Option.some.inj h ▸ keeps_aportStatusM ..
  case prismInputClass => exact Option.some.inj h ▸ keeps_prismInputClassM ..
  case prismXpSet => exact Option.some.inj h ▸ keeps_prismXpSetM ..
  case prismXpClear => exact Option.some.inj h ▸ keeps_prismXpClearM ..
  case prismRoute => exact Option.some.inj h ▸ keeps_prismRouteM ..
  case prismBusConfig => exact Option.some.inj h ▸ keeps_prismBusConfigM ..
  case prismBusRange => exact Option.some.inj h ▸ keeps_prismBusRangeM ..
  case prismDirectGain => exact Option.some.inj h ▸ keeps_prismDirectGainM ..
  case prismStatus => exact Option.some.inj h ▸ keeps_prismStatusM ..
  case sceneStore => exact Option.some.inj h ▸ keeps_sceneStoreM ..
  case sceneRecall => exact Option.some.inj h ▸ keeps_sceneRecallM ..
  case sceneDelete => exact Option.some.inj h ▸ keeps_sceneDeleteM ..
  case sceneList => exact Option.some.inj h ▸ keeps_sceneListM ..
  case mirrorConfig => exact Option.some.inj h ▸ keeps_mirrorConfigM ..
  case mirrorStatus => exact Option.some.inj h ▸ keeps_mirrorStatusM ..
  case lensLoad => exact Option.some.inj h ▸ keeps_lensLoadM ..
  case lensChain => exact Option.some.inj h ▸ keeps_lensChainM ..
  case lensStart => exact Option.some.inj h ▸ keeps_lensStartM ..
  case lensStop => exact Option.some.inj h ▸ keeps_lensStopM ..
  case lensParam => exact Option.some.inj h ▸ keeps_lensParamM ..
  case lensStatus => exact Option.some.inj h ▸ keeps_lensStatusM ..
  case lensDeadline => exact Option.some.inj h ▸ keeps_lensDeadlineM ..
  case pageInfo => exact Option.some.inj h ▸ keeps_pageInfoM ..
  case pageRead => exact Option.some.inj h ▸ keeps_pageReadM ..
  case pageWrite => exact Option.some.inj h ▸ keeps_pageWriteM ..
  case pageCopy => exact Option.some.inj h ▸ keeps_pageCopyM ..
  case evrecConfig => exact Option.some.inj h ▸ keeps_evrecConfigM ..
  case evrecRead => exact Option.some.inj h ▸ keeps_evrecReadM ..
  case evrecStatus => exact Option.some.inj h ▸ keeps_evrecStatusM
  case evrecRate => exact Option.some.inj h ▸ keeps_evrecRateM ..
  case evrecFlush => exact Option.some.inj h ▸ keeps_evrecFlushM
  case evrecErase => exact Option.some.inj h ▸ keeps_evrecEraseM ..
  case wdogConfig => exact Option.some.inj h ▸ keeps_wdogConfigM ..
  case wdogStatus => exact Option.some.inj h ▸ keeps_wdogStatusM
  case wdogCountClear => exact Option.some.inj h ▸ keeps_wdogCountClearM
  case superviseStatus => exact Option.some.inj h ▸ keeps_superviseStatusM
  case powerMode => exact Option.some.inj h ▸ keeps_powerModeM ..
  case powerStatus => exact Option.some.inj h ▸ keeps_powerStatusM
  case coreClock => exact Option.some.inj h ▸ keeps_coreClockM ..
  case holdConfig => exact Option.some.inj h ▸ keeps_holdConfigM ..
  case stackStatus => exact Option.some.inj h ▸ keeps_stackStatusM
  case balanceConfig => exact Option.some.inj h ▸ keeps_balanceConfigM ..
  case dbgOpen => exact Option.some.inj h ▸ keeps_dbgOpenM ..
  case dbgClose => exact Option.some.inj h ▸ keeps_dbgCloseM
  case dbgStatus => exact Option.some.inj h ▸ keeps_dbgStatusM
  all_goals cases h

end Sys2Proof.Machine
end


section
/-! The sizes of the tables as a packet is accepted, staged, held and applied (R98, R100, R104). -/

namespace Sys2Proof.Machine

@[simp] theorem shape_sayInterim (r : Req) (i : Instr) (st : Status) (res : List Byte) (s : State) :
    shape (sayInterim r i st res s) = shape s := by simp [sayInterim]

@[simp] theorem shape_stage (i : Instr) (r : Req) (m : Meaning) (s : State) : shape (stage i r m s) = shape s := by simp [stage]

theorem whole_foldl {α : Type} {f : State → α → State} (hf : ∀ {s : State} (x : α), shape s = whole → shape (f s x) = whole) (l : List α)
    {s : State} (hs : shape s = whole) : shape (l.foldl f s) = whole := by
  induction l generalizing s with
  | nil => exact hs
  | cons x l ih => exact ih (hf x hs)

@[simp] theorem shape_startClass2 (i : Instr) (r : Req) {m : Meaning} {s : State} (hm : m.Keeps) (hs : shape s = whole) :
    shape (startClass2 i r m s) = whole := by
  have h : shape (m.onAccept s).1 = whole := hm.onAccept hs
  unfold startClass2
  generalize m.onAccept s = a at h ⊢
  dsimp only
  split
  · exact hm.start (by simp [h])
  · simp [h]

@[simp] theorem shape_hold (i : Instr) (r : Req) {m : Meaning} (due : Time) (timed : Bool) {s : State} (hm : m.Keeps)
    (hs : shape s = whole) : shape (hold i r m due timed s) = whole := by
  have h : shape (m.onAccept s).1 = whole := hm.onAccept hs
  unfold hold
  generalize m.onAccept s = a at h ⊢
  simp [h]

@[simp] theorem shape_holdWrite (d : Nat) (j : HeldCmd) (s : State) : shape (holdWrite d j s) = shape s := by simp [holdWrite]

@[simp] theorem shape_runNow (i : Instr) (r : Req) {m : Meaning} {s : State} (hm : m.Keeps) (hs : shape s = whole) :
    shape (runNow i r m s) = whole := by
  unfold runNow
  split
  · simp [hs]
  · exact (shape_say ..).trans (hm.effect _ hs)

@[simp] theorem shape_execute (i : Instr) (r : Req) {m : Meaning} {s : State} (hm : m.Keeps) (hs : shape s = whole) :
    shape (execute i r m s) = whole := by
  simp [execute, hm, hs]

@[simp] theorem shape_accept (i : Instr) (r : Req) {m : Meaning} {s : State} (hm : m.Keeps) (hs : shape s = whole) :
    shape (accept i r m s) = whole := by
  unfold accept
  split
  · exact (shape_say ..).trans (hm.onRefuse _ hs)
  · exact shape_execute i r hm hs

@[simp] theorem shape_runAs (r : Req) (b : List Byte) {s : State} (hs : shape s = whole) : shape (runAs r b s) = whole := by
  unfold runAs
  split
  · simp [hs]
  · split
    · simp [hs]
    · split
      · next h => exact shape_accept _ _ (keeps_meaningOf h) hs
      · exact hs

@[simp] theorem shape_runRemote (r : Req) (b : List Byte) {s : State} (hs : shape s = whole) : shape (runRemote r b s) = whole := by
  unfold runRemote
  dsimp only
  repeat' split
  all_goals simp [hs]

@[simp] theorem shape_runRaw (r : Req) (b : List Byte) {s : State} (hs : shape s = whole) : shape (runRaw r b s) = whole := by
  unfold runRaw
  split
  · simp [hs]
  · split
    · simp [hs]
    · split
      · next h => exact shape_accept _ _ (keeps_meaningOf h) hs
      · exact hs

@[simp] theorem shape_runTaken (k : Nat) {s : State} (hs : shape s = whole) : shape (runTaken k s) = whole := by
  induction k generalizing s with
  | zero => exact hs
  | succ k ih =>
    unfold runTaken
    split
    · exact hs
    · exact ih (by simp [hs])
    · dsimp only
      split
      · next h => exact ih (shape_accept _ _ (keeps_meaningOf h) (by simp [hs]))
      · exact ih (by simp [hs])

@[simp] theorem shape_runWaiting {s : State} (hs : shape s = whole) : shape (runWaiting s) = whole := by simp [runWaiting, hs]

@[simp] theorem shape_lockAfter (q : MatrixReq) (error : Bool) (s : State) : shape (lockAfter q error s) = shape s := by simp [lockAfter]

@[simp] theorem shape_atStore (q : MatrixReq) (s : State) : shape (atStore q s) = shape s := by simp [atStore]

@[simp] theorem shape_illegalAccess (master target addr tag : Nat) (s : State) : shape (illegalAccess master target addr tag s) = shape s := by
  simp [illegalAccess]

@[simp] theorem shape_refuseIllegal (q : MatrixReq) (s : State) : shape (refuseIllegal q s) = shape s := by simp [refuseIllegal]

@[simp] theorem shape_atRom (q : MatrixReq) (s : State) : shape (atRom q s) = shape s := by simp [atRom]

@[simp] theorem shape_finishJob (j : HeldCmd) {s : State} (hs : shape s = whole) : shape (finishJob j s) = whole := by
  unfold finishJob
  split
  · next h => exact (shape_post ..).trans ((keeps_meaningOf h).effect _ hs)
  · exact hs

@[simp] theorem shape_inboxWrite (t off : Nat) (bs : List Byte) (s : State) : shape (inboxWrite t off bs s) = shape s := by
  simp [inboxWrite]

@[simp] theorem shape_requestHalt (cores : BitVec 9) (s : State) : shape (requestHalt cores s) = shape s := by simp [requestHalt]

@[simp] theorem shape_markOverdue (s : State) : shape (markOverdue s) = shape s := by simp [markOverdue]

@[simp] theorem shape_tellLate (t : Nat) (p : Pending) (s : State) : shape (tellLate t p s) = shape s := by
  unfold tellLate
  split <;> simp

@[simp] theorem shape_applyHeld (t : Nat) (p : Pending) (done : Nat) {s : State} (hs : shape s = whole) :
    shape (applyHeld t p done s) = whole := by
  unfold applyHeld
  split
  · next h =>
    refine (shape_post ..).trans ?_
    split
    · exact (keeps_meaningOf h).onRefuse _ hs
    · exact (keeps_meaningOf h).effect _ (by simp [hs])
  · exact hs

@[simp] theorem shape_issueHeld (t : Nat) (p : Pending) (done : Nat) {s : State} (hs : shape s = whole) :
    shape (issueHeld t p done s) = whole := by
  unfold issueHeld
  split <;> simp [hs]

@[simp] theorem shape_applyOverdue {s : State} (t : Nat) (hs : shape s = whole) : shape (applyOverdue s t) = whole :=
  whole_foldl (fun _ h => shape_issueHeld _ _ _ h) _ (by simp [hs])

theorem shape_stepHeld (base : Time) {a : State × Option Time} (x : Nat × Pending) (hs : shape a.1 = whole) :
    shape (stepHeld base a x).1 = whole := by
  unfold stepHeld
  dsimp only
  split
  · next h =>
    split
    · exact (shape_post ..).trans ((keeps_meaningOf h).onRefuse _ hs)
    · simp [hs]
    · simp [hs]
  · exact hs

theorem shape_foldl_stepHeld (base : Time) (l : List (Nat × Pending)) {a : State × Option Time} (hs : shape a.1 = whole) :
    shape (l.foldl (stepHeld base) a).1 = whole := by
  induction l generalizing a with
  | nil => exact hs
  | cons x l ih => exact ih (shape_stepHeld base x hs)

@[simp] theorem shape_applySteps (l : List (Nat × Pending)) {s : State} (hs : shape s = whole) : shape (applySteps l s) = whole := by
  have h := shape_foldl_stepHeld (cycleEnd s) l
    (a := (l.foldl (fun s x => modTenant x.1 (fun n => { n with pend := n.pend.erase x.2 }) s) s, none)) (by simp [hs])
  unfold applySteps
  dsimp only
  split
  · simp [h]
  · exact h

@[simp] theorem shape_ctlResumed {s : State} (hs : shape s = whole) : shape (ctlResumed s) = whole := by
  have h : ∀ {u : State}, shape u = whole → shape ((List.range 16).foldl applyOverdue u) = whole :=
    fun hu => whole_foldl (fun t ht => shape_applyOverdue t ht) _ hu
  simp [ctlResumed, h, hs]

@[simp] theorem shape_afterHalt (before : State) {s : State} (hs : shape s = whole) : shape (afterHalt before s) = whole := by
  simp [afterHalt, hs]

@[simp] theorem shape_resumeCores (cores : BitVec 9) {s : State} (hs : shape s = whole) : shape (resumeCores cores s) = whole :=
  shape_afterHalt _ (by simp [hs])

@[simp] theorem shape_drawCtlPc (s : State) : shape (drawCtlPc s) = shape s := by simp [drawCtlPc]

end Sys2Proof.Machine
end


section
/-! The sizes of the tables as a Lens core runs. -/

namespace Sys2Proof.Machine

@[simp] theorem shape_countMiss (n : Nat) (s : State) : shape (countMiss n s) = shape s := by
  unfold countMiss
  dsimp only
  split
  · rw [shape_record, shape_modLens, shape_record, shape_modLens]
    · exact fun _ => rfl
    · intro c
      rw [← coreSizes_abortKernels c]
      simp [coreSizes]
  · rw [shape_record, shape_modLens]
    exact fun _ => rfl

@[simp] theorem shape_kernelFault (n : Nat) (e : LensCause) (s : State) : shape (kernelFault n e s) = shape s := by
  unfold kernelFault
  dsimp only
  split
  · rfl
  · next r _ =>
    rw [shape_modLens coreSizes_abortKernels, shape_record, shape_countMiss, shape_modLens]
    exact coreSizes_fadeOutputs r.out

/-- An operation that ends leaves the sizes of the tables as the spec gives them. -/
def KeepsWhole (op : State → Except LensCause State) : Prop := ∀ {s t : State}, op s = .ok t → shape s = whole → shape t = whole

theorem shape_lensInstr (n : Fin 8) (i : Instr) {op : State → Except LensCause State} (hop : KeepsWhole op) {s : State}
    (hs : shape s = whole) : shape (lensInstr n i op s) = whole := by
  unfold lensInstr
  dsimp only
  split
  · simp [hs]
  · split
    · simp [hs]
    · split
      · exact hs
      · split
        · simp [hs]
        · next t ht => simp [hop ht hs]

theorem shape_lensTurn {n : Fin 8} {i : Instr} {op : State → Except LensCause State} (hop : KeepsWhole op) {s : State}
    (hs : shape s = whole) : outShape (lensTurn n i op s) = some whole := by
  unfold lensTurn
  split
  · rw [outShape_next, hs]
  · rw [shape_fin, shape_lensInstr n i hop hs]

theorem coreSizes_core {n : Nat} {s : State} (hs : shape s = whole) (hn : n < s.lens.length) : coreSizes (s.core n) = coreWhole := by
  have hl : s.lens.map coreSizes = List.replicate 8 coreWhole := congrArg Shape.lens hs
  rw [State.core, nth, List.getD_eq_getElem _ _ hn]
  exact ((map_eq_replicate_iff ..).1 hl).2 _ (List.getElem_mem hn)

/-- A change of one core that leaves it the sizes of the spec. -/
theorem shape_modLens_core {n : Nat} {f : LensCore → LensCore} {s : State} (hs : shape s = whole)
    (h : n < s.lens.length → coreSizes (f (s.core n)) = coreWhole) : shape (modLens n f s) = whole := by
  rw [← hs]
  refine shape_lens (List.ext_getElem (by simp) fun i hi _ => ?_)
  simp only [List.length_map, length_updAt] at hi
  simp only [updAt, List.getElem_map, List.getElem_modify]
  split
  · next hni =>
    subst hni
    have hcore := coreSizes_core hs hi
    have h := h hi
    rw [State.core, nth, List.getD_eq_getElem _ _ hi] at h hcore
    rw [h, hcore]
  · rfl

theorem keepsWhole_onCore {n : Nat} {f : LensCore → LensRes} (hf : KeepsSizes f) : KeepsWhole (onCore n f) := by
  intro s t h hs
  unfold onCore at h
  match hc : f (s.core n) with
  | .error e => simp [hc, Except.map] at h
  | .ok c =>
    simp only [hc, Except.map, Except.ok.injEq] at h
    rw [← h]
    exact shape_modLens_core hs fun hn => hf _ c hc (coreSizes_core hs hn)

theorem keepsWhole_runOne {n : Nat} {f : LensCore → LensRes} (hf : KeepsSizes f) : KeepsWhole (onCore n (runOne f)) :=
  keepsWhole_onCore (keepsSizes_runOne hf)

theorem keepsWhole_onCoreFree {n : Nat} {f : Half → LensCore → LensRes} (hf : ∀ v, KeepsSizes (f v)) : KeepsWhole (onCoreFree n f) :=
  fun {s} _ h hs => keepsWhole_onCore (hf _) (s := (drawFree s).2) h hs

theorem keepsWhole_lBrkOp (n : Nat) : KeepsWhole (lBrkOp n) := by
  intro s t h hs
  unfold lBrkOp at h
  split at h
  · cases h
  · next u hu =>
    cases h
    simp [keepsWhole_runOne keepsSizes_lNopOp hu hs]

theorem keepsWhole_busOp {n : Nat} {a : BitVec 4} {mask beats : Nat} {f : Nat → State → Except LensCause (State × Bool × (LensCore → LensCore))}
    (hf : ∀ {addr : Nat} {s : State} {r : State × Bool × (LensCore → LensCore)}, f addr s = .ok r →
      shape r.1 = shape s ∧ ∀ c, coreSizes (r.2.2 c) = coreSizes c) : KeepsWhole (busOp n a mask beats f) := by
  intro s t h hs
  unfold busOp at h
  dsimp only at h
  split at h
  · cases h
  · split at h
    · cases h
    · split at h
      · cases h
        exact hs
      · split at h
        · cases h
        · next u err g hr =>
          obtain ⟨hu, hg⟩ := hf hr
          cases h
          rw [shape_modLens, hu, hs]
          intro c
          rw [coreSizes_nextInstr, ← hg c]
          rfl

@[simp] theorem shape_noPath (n a : Nat) (s : State) : shape (noPath n a s) = shape s := by simp [noPath]

@[simp] theorem shape_granted (target master : Nat) (s : State) : shape (granted target master s) = shape s := by simp [granted]

@[simp] theorem shape_coreLoad (n a : Nat) (s : State) : shape (coreLoad n a s).1 = shape s := by
  unfold coreLoad
  split <;> simp

theorem keepsWhole_lLdsOp (n : Nat) (d a : BitVec 4) : KeepsWhole (lLdsOp n d a) :=
  keepsWhole_busOp fun h => by
    cases h
    exact ⟨shape_coreLoad .., coreSizes_putD _ _⟩

@[simp] theorem shape_coreStore (n a : Nat) (v : Word) (s : State) : shape (coreStore n a v s).1 = shape s := by
  unfold coreStore
  split <;> simp

theorem keepsWhole_lStsOp (n : Nat) (d a : BitVec 4) : KeepsWhole (lStsOp n d a) :=
  keepsWhole_busOp fun h => by
    cases h
    exact ⟨shape_coreStore .., fun _ => rfl⟩

theorem keepsWhole_lLksOp (n : Nat) (d a : BitVec 4) : KeepsWhole (lLksOp n d a) :=
  keepsWhole_busOp fun h => by
    cases h
    exact ⟨by simp, coreSizes_putD _ _⟩

theorem keepsWhole_lUnsOp (n : Nat) (d a : BitVec 4) : KeepsWhole (lUnsOp n d a) :=
  keepsWhole_busOp fun h => by
    split at h
    · cases h
      exact ⟨by simp, fun _ => rfl⟩
    · cases h
      refine ⟨?_, fun _ => rfl⟩
      dsimp only
      split
      · split <;> simp
      · simp

theorem keepsWhole_lLdbOp (n : Nat) (p : BitVec 3) (a n1 : BitVec 4) : KeepsWhole (lLdbOp n p a n1) := by
  intro s t hst
  unfold lLdbOp at hst
  refine keepsWhole_busOp (fun {addr u r} h => ?_) hst
  dsimp only at h
  split at h
  · cases h
  by_cases hburst : burstOk addr (n1.toNat + 1) = true
  · rw [if_pos hburst] at h
    cases h
    exact ⟨(shape_storeReadAs ..).trans (shape_granted ..), fun c => by simp [coreSizes]⟩
  · rw [if_neg hburst] at h
    cases h
    exact ⟨shape_noPath .., fun c => by simp [coreSizes]⟩

theorem keepsWhole_lStbOp (n : Nat) (p : BitVec 3) (a n1 : BitVec 4) : KeepsWhole (lStbOp n p a n1) := by
  intro s t hst
  unfold lStbOp at hst
  refine keepsWhole_busOp (fun {addr u r} h => ?_) hst
  dsimp only at h
  split at h
  · cases h
  by_cases hburst : burstOk addr (n1.toNat + 1) = true
  · rw [if_pos hburst] at h
    cases h
    exact ⟨(shape_storeWriteAs ..).trans (shape_granted ..), fun c => by simp [coreSizes]⟩
  · rw [if_neg hburst] at h
    cases h
    exact ⟨shape_noPath .., fun c => by simp [coreSizes]⟩

/-- Every row of Tables 11.5 to 11.10. -/
theorem shape_lensRow (i : Instr) {s : State} (hs : shape s = whole) : outShape (lensRow i s) = some whole := by
  cases i
  case lNop => exact shape_lensTurn (keepsWhole_runOne keepsSizes_lNopOp) hs
  case lEnd => exact shape_lensTurn (keepsWhole_runOne keepsSizes_lEndOp) hs
  case lBr => exact shape_lensTurn (keepsWhole_runOne (keepsSizes_lBrOp _ _)) hs
  case lCall => exact shape_lensTurn (keepsWhole_runOne (keepsSizes_lCallOp _)) hs
  case lRet => exact shape_lensTurn (keepsWhole_onCoreFree fun v => keepsSizes_runOne (keepsSizes_lRetOp v)) hs
  case lLoop => exact shape_lensTurn (keepsWhole_runOne (keepsSizes_lLoopOp _ _ _ _ _)) hs
  case lRep => exact shape_lensTurn (keepsWhole_runOne (keepsSizes_lRepOp _ _ _)) hs
  case lBrk => exact shape_lensTurn (keepsWhole_lBrkOp _) hs
  case lAdd | lSub | lAnd | lOr | lXor | lAsl | lAsr | lLsr | lAbs | lNeg | lMin | lMax | lMov =>
    refine shape_lensTurn (keepsWhole_onCoreFree fun v => ?_) hs
    exact keepsSizes_of_aluOp fun _ => rfl
  case lCmp | lPar =>
    refine shape_lensTurn (keepsWhole_onCoreFree fun v => ?_) hs
    exact keepsSizes_of_moves (fun _ => rfl) fun _ => rfl
  case lMpy =>
    refine shape_lensTurn (keepsWhole_onCoreFree fun v => ?_) hs
    exact keepsSizes_of_macOp (fun _ => rfl) fun _ _ => coreSizes_putA ..
  case lMpy4 =>
    refine shape_lensTurn (keepsWhole_onCoreFree fun v => ?_) hs
    refine keepsSizes_of_macOp (fun _ => rfl) fun _ c => ?_
    exact foldl_keeps coreSizes (fun c (x : Nat × Int) => coreSizes_putA x.1 x.2 c) _ c
  case lMac | lMac4 | lMac2e | lMac2c =>
    refine shape_lensTurn (keepsWhole_onCoreFree fun v => ?_) hs
    exact keepsSizes_of_macOp (fun _ => rfl) fun _ _ => coreSizes_accumAll ..
  case lClr | lMva =>
    refine shape_lensTurn (keepsWhole_onCoreFree fun v => ?_) hs
    exact keepsSizes_of_moves (fun _ => rfl) fun _ => coreSizes_putA ..
  case lClr4 =>
    refine shape_lensTurn (keepsWhole_onCoreFree fun v => ?_) hs
    refine keepsSizes_of_moves (fun _ => rfl) fun c => ?_
    exact foldl_keeps coreSizes (fun c j => coreSizes_putA _ 0 c) _ c
  case lRnd =>
    refine shape_lensTurn (keepsWhole_onCoreFree fun v => ?_) hs
    refine keepsSizes_of_moves (fun _ => rfl) fun c => ?_
    exact coreSizes_putD ..
  case lLdi => exact shape_lensTurn (keepsWhole_runOne (keepsSizes_writeNext _ _)) hs
  case lMvr => exact shape_lensTurn (keepsWhole_runOne (keepsSizes_writeNext _ _)) hs
  case lLds => exact shape_lensTurn (keepsWhole_lLdsOp _ _ _) hs
  case lSts => exact shape_lensTurn (keepsWhole_lStsOp _ _ _) hs
  case lLks => exact shape_lensTurn (keepsWhole_lLksOp _ _ _) hs
  case lUns => exact shape_lensTurn (keepsWhole_lUnsOp _ _ _) hs
  case lLdb => exact shape_lensTurn (keepsWhole_lLdbOp _ _ _ _) hs
  case lStb => exact shape_lensTurn (keepsWhole_lStbOp _ _ _ _) hs
  all_goals exact congrArg some hs

theorem shape_of_outShape {o : Out} {t : State} (h : outShape o = some whole) (ho : o = .next t) : shape t = whole := by
  rw [ho] at h
  exact Option.some.inj h

theorem shape_lensOnce (n : Fin 8) {s : State} (hs : shape s = whole) : shape (lensOnce n s) = whole := by
  unfold lensOnce
  dsimp only
  split
  · simp [hs]
  · split
    · simp [hs]
    · split
      · next ht => exact shape_of_outShape (shape_lensRow _ hs) ht
      · exact hs

theorem shape_lensSteps (k : Nat) (n : Fin 8) {s : State} (hs : shape s = whole) : shape (lensSteps k n s) = whole := by
  induction k generalizing s with
  | zero => exact hs
  | succ k ih =>
    have h := shape_lensOnce n hs
    unfold lensSteps
    dsimp only
    split
    · exact ih h
    · exact h

theorem shape_stepCore {s : State} (k : Nat) (hs : shape s = whole) : shape (stepCore s k) = whole := by
  unfold stepCore
  split
  · exact hs
  · split
    · simp [hs]
    · rw [shape_setHalted]
      split
      · exact shape_lensSteps _ _ (by simp [hs])
      · simp [hs]

@[simp] theorem shape_stepCores (cores : BitVec 9) {s : State} (hs : shape s = whole) : shape (stepCores cores s) = whole :=
  whole_foldl (fun k h => shape_stepCore k h) _ hs

@[simp] theorem shape_lcnDataWrite (n : Nat) (v : Word) (s : State) : shape (lcnDataWrite n v s) = shape s := by simp [lcnDataWrite]

end Sys2Proof.Machine
end


section
/-! The sizes of the tables at the Eyelets, the register bridge and the bus matrix. -/

namespace Sys2Proof.Machine

@[simp] theorem shape_dbgWrite (off : Nat) (v : Word) {s : State} (hs : shape s = whole) : shape (dbgWrite off v s) = whole := by
  unfold dbgWrite
  dsimp only
  repeat' split
  all_goals simp [hs]

@[simp] theorem shape_doTake (t : Nat) (via : Transport) (s : State) : shape (doTake t via s) = shape s := by simp [doTake]

@[simp] theorem shape_hostBootSubmit (i : Instr) (r : Req) {m : Meaning} {s : State} (hm : m.Keeps) (hs : shape s = whole) :
    shape (hostBootSubmit i r m s) = whole := by
  unfold hostBootSubmit
  generalize (if (_ && _) = true then 0 else 1 : Nat) = b
  split
  · exact hs
  · split <;> simp [hm, hs]

@[simp] theorem shape_takeRaw (r : Req) (b : List Byte) {s : State} (hs : shape s = whole) : shape (takeRaw r b s) = whole := by
  unfold takeRaw
  split
  · split
    · simp [hs]
    · split
      · next h => exact shape_hostBootSubmit _ _ (keeps_meaningOf h) hs
      · exact hs
  · simp [hs]

@[simp] theorem shape_takeInbox (t : Nat) {s : State} (hs : shape s = whole) : shape (takeInbox t s) = whole := by simp [takeInbox, hs]

@[simp] theorem shape_doSend (t : Nat) (via : Transport) {s : State} (hs : shape s = whole) : shape (doSend t via s) = whole := by
  simp [doSend, hs]

@[simp] theorem shape_setBase (t : Nat) (f : Tenant → Tenant) (s : State) : shape (setBase t f s) = shape s := by simp [setBase]

@[simp] theorem shape_setRingCfg (t : Nat) (v : Word) (s : State) : shape (setRingCfg t v s) = shape s := by simp [setRingCfg]

@[simp] theorem shape_setCTail (t : Nat) (tail : Half) (s : State) : shape (setCTail t tail s) = shape s := by simp [setCTail]

@[simp] theorem shape_setRHead (t : Nat) (head : Half) (s : State) : shape (setRHead t head s) = shape s := by simp [setRHead]

@[simp] theorem shape_eyWrite (t off : Nat) (v : Word) (via : Transport) {s : State} (hs : shape s = whole) :
    shape (eyWrite t off v via s) = whole := by
  unfold eyWrite
  dsimp only
  repeat' split
  all_goals simp [hs]

@[simp] theorem shape_regPut (a : Nat) (v : Word) {s : State} (hs : shape s = whole) : shape (regPut a v s) = whole := by
  unfold regPut
  split <;> simp [hs]

@[simp] theorem shape_latchTime (t : Nat) (s : State) : shape (latchTime t s) = shape s := by simp [latchTime]

@[simp] theorem shape_readEffect (a : Nat) (s : State) : shape (readEffect a s) = shape s := by simp [readEffect]

@[simp] theorem shape_complete (h : HeldAccess) {s : State} (hs : shape s = whole) : shape (complete h s) = whole := by
  unfold complete
  split <;> simp [hs]

@[simp] theorem shape_bridge (h : HeldAccess) {s : State} (hs : shape s = whole) : shape (bridge h s) = whole := by simp [bridge, hs]

@[simp] theorem shape_atBridge (q : MatrixReq) {s : State} (hs : shape s = whole) : shape (atBridge q s) = whole := by simp [atBridge, hs]

@[simp] theorem shape_putLocal (n o : Nat) (v : Word) (s : State) : shape (putLocal n o v s) = shape s := by
  refine shape_modLens (fun c => ?_) n s
  split
  · rfl
  · split <;> rfl

@[simp] theorem shape_putWords (a : Nat) (put : List (Byte × Bool)) (k : Nat) (s : State) : shape (putWords a put k s) = shape s := by
  induction k with
  | zero => rfl
  | succ k ih => simp [putWords, ih]

@[simp] theorem shape_atLocal (q : MatrixReq) (s : State) : shape (atLocal q s) = shape s := by
  unfold atLocal
  dsimp only
  split
  · simp
  · split <;> simp

@[simp] theorem shape_windowRead (a n : Nat) (s : State) : shape (windowRead a n s).2 = shape s := by simp [windowRead]

@[simp] theorem shape_atNvm (q : MatrixReq) (s : State) : shape (atNvm q s) = shape s := by simp [atNvm]

@[simp] theorem shape_atPcie (q : MatrixReq) (s : State) : shape (atPcie q s) = shape s := by simp [atPcie]

@[simp] theorem shape_atTarget (q : MatrixReq) {s : State} (hs : shape s = whole) : shape (atTarget q s) = whole := by
  unfold atTarget
  split <;> simp [hs]

@[simp] theorem shape_finishBursts {s : State} (hs : shape s = whole) : shape (finishBursts s) = whole :=
  whole_foldl (fun _ h => shape_atTarget _ h) _ (by simp [hs])

@[simp] theorem shape_afterLock (before : State) {s : State} (hs : shape s = whole) : shape (afterLock before s) = whole := by
  simp [afterLock, hs]

@[simp] theorem shape_grant (q : MatrixReq) {s : State} (hs : shape s = whole) : shape (grant q s) = whole := by
  unfold grant
  split <;> simp [hs]

@[simp] theorem shape_matrixAccess (q : MatrixReq) {s : State} (hs : shape s = whole) : shape (matrixAccess q s) = whole := by
  simp [matrixAccess, hs]

@[simp] theorem shape_arbitrate (k : Nat) {s : State} (hs : shape s = whole) : shape (arbitrate k s) = whole := by
  induction k generalizing s with
  | zero => exact hs
  | succ k ih =>
    unfold arbitrate
    split
    · exact ih (shape_matrixAccess _ (by simp [hs]))
    · exact hs

@[simp] theorem shape_matrixCycle (l : List MatrixReq) {s : State} (hs : shape s = whole) : shape (matrixCycle l s) = whole :=
  shape_afterLock _ (shape_arbitrate _ (by simp [hs]))

@[simp] theorem shape_idleStep {s : State} (hs : shape s = whole) : outShape (idleStep s) = some whole := by simp [idleStep, hs]

@[simp] theorem shape_submit (i : Instr) {m : Meaning} {s : State} (hm : m.Keeps) (hs : shape s = whole) :
    shape (submit i m s) = whole := by
  unfold submit
  split
  · exact hs
  · simp [hm, hs]

@[simp] theorem shape_execSend (t : Fin 16) (via : Transport) {s : State} (hs : shape s = whole) :
    outShape (execSend t via s) = some whole := by simp [execSend, hs]

@[simp] theorem shape_execTake (t : Fin 16) (via : Transport) (s : State) : outShape (execTake t via s) = some (shape s) := by
  simp [execTake]

@[simp] theorem shape_takeSlot (t : Nat) (slot : List Byte) {s : State} (hs : shape s = whole) : shape (takeSlot t slot s) = whole := by
  simp [takeSlot, hs]

@[simp] theorem shape_execPacketTake (t : Fin 16) (ring : Option (List Byte)) {s : State} (hs : shape s = whole) :
    outShape (execPacketTake t ring s) = some whole := by
  unfold execPacketTake
  split <;> simp [hs]

@[simp] theorem shape_execEyCringIdxTailWrite (t : Fin 16) (tail : Half) (s : State) :
    outShape (execEyCringIdxTailWrite t tail s) = some (shape s) := by simp [execEyCringIdxTailWrite]

@[simp] theorem shape_execEyRringIdxHeadWrite (t : Fin 16) (head : Half) (s : State) :
    outShape (execEyRringIdxHeadWrite t head s) = some (shape s) := by simp [execEyRringIdxHeadWrite]

@[simp] theorem shape_execEyRingCfgWrite (t : Fin 16) (value : Word) (s : State) :
    outShape (execEyRingCfgWrite t value s) = some (shape s) := by simp [execEyRingCfgWrite]

@[simp] theorem shape_execEyTimeLatch (t : Fin 16) (s : State) : outShape (execEyTimeLatch t s) = some (shape s) := by
  simp [execEyTimeLatch]

@[simp] theorem shape_execWdogServe (value : Word) (s : State) : outShape (execWdogServe value s) = some (shape s) := by
  simp [execWdogServe]

end Sys2Proof.Machine
end


section
/-! The sizes of the tables at timed commands, swaps, resets, clocks that are lost or return, and start-up. -/

namespace Sys2Proof.Machine

@[simp] theorem shape_spiByte (port t : Nat) (via : Transport) {s : State} (x : Nat × Byte) (hs : shape s = whole) :
    shape (spiByte port t via s x) = whole := by simp [spiByte, hs]

@[simp] theorem shape_hostWrite (via : Transport) (addr : Word) (size : BitVec 3) (v : Word) {s : State} (hs : shape s = whole) :
    shape (hostWrite via addr size v s) = whole := by
  unfold hostWrite
  dsimp only
  split
  · exact hs
  · split
    · exact whole_foldl (fun x h => shape_spiByte _ _ _ x h) _ hs
    · simp [hs]

@[simp] theorem shape_hostRead (via : Transport) (addr : Word) (size : BitVec 3) (s : State) : shape (hostRead via addr size s) = shape s := by
  unfold hostRead
  split <;> simp

@[simp] theorem shape_spiAccess (port : Fin 2) (instruction : Byte) (addr : Word) (size : BitVec 3) (v : Word) {s : State} (hs : shape s = whole) :
    shape (spiAccess port instruction addr size v s) = whole := by simp [spiAccess, hs]

@[simp] theorem shape_bridgeDebug (h : HeldAccess) {s : State} (hs : shape s = whole) : shape (bridgeDebug h s) = whole := by
  simp [bridgeDebug, hs]

@[simp] theorem shape_apStart (addr : Word) (w : Option Word) (consume : Bool) {s : State} (hs : shape s = whole) :
    shape (apStart addr w consume s) = whole := by
  unfold apStart
  dsimp only
  repeat' split
  all_goals simp [hs]

@[simp] theorem shape_execRegisterWrite (who : RegMaster) (addr : Word) (size : BitVec 3) (value : Word) {s : State} (hs : shape s = whole) :
    outShape (execRegisterWrite who addr size value s) = some whole := by
  unfold execRegisterWrite
  split <;> simp [hs]

@[simp] theorem shape_execRegisterHoldTimeout (domain : Fin 29) (s : State) :
    outShape (execRegisterHoldTimeout domain s) = some (shape s) := by
  unfold execRegisterHoldTimeout
  split <;> simp

@[simp] theorem shape_wakeBridge {s : State} (hs : shape s = whole) : shape (wakeBridge s) = whole := by
  unfold wakeBridge
  split <;> simp [hs]

@[simp] theorem shape_giveUp (h : HeldAccess) (s : State) : shape (giveUp h s) = shape s := by
  unfold giveUp
  split
  · simp
  · split <;> simp

@[simp] theorem shape_tellNoClock (d : Nat) (s : State) : shape (tellNoClock d s) = shape s := by simp [tellNoClock]

@[simp] theorem shape_tellHeld (h : HeldAccess) (s : State) : shape (tellHeld h s) = shape s := by simp [tellHeld]

@[simp] theorem shape_unhold (h : HeldAccess) (s : State) : shape (unhold h s) = shape s := by simp [unhold]

@[simp] theorem shape_execFenceWaitEnd (domain : Fin 29) {s : State} (hs : shape s = whole) :
    outShape (execFenceWaitEnd domain s) = some whole := by
  unfold execFenceWaitEnd
  split <;> simp [hs]

@[simp] theorem shape_execRemoteReplyTimeout (t : Fin 16) (tag : Half) (s : State) :
    outShape (execRemoteReplyTimeout t tag s) = some (shape s) := by
  unfold execRemoteReplyTimeout
  split <;> simp

@[simp] theorem shape_applyDue (t : Nat) {s : State} (hs : shape s = whole) : shape (applyDue t s) = whole := by
  unfold applyDue
  split <;> simp [hs]

@[simp] theorem shape_execTimedCommandApply (t : Fin 16) {s : State} (hs : shape s = whole) :
    outShape (execTimedCommandApply t s) = some whole := by simp [execTimedCommandApply, hs]

theorem shape_applyStaged {a : State × Bool} (x : Staged) (hs : shape a.1 = whole) : shape (applyStaged a x).1 = whole := by
  unfold applyStaged
  split
  · simp [hs]
  · split
    · next h => exact (keeps_meaningOf h).effect _ hs
    · exact hs

theorem shape_foldl_applyStaged (l : List Staged) {a : State × Bool} (hs : shape a.1 = whole) :
    shape (l.foldl applyStaged a).1 = whole := by
  induction l generalizing a with
  | nil => exact hs
  | cons x l ih => exact ih (shape_applyStaged x hs)

@[simp] theorem shape_dropPend (t : Nat) (p : Pending) (s : State) : shape (dropPend t p s) = shape s := by simp [dropPend]

@[simp] theorem shape_fabricDone (done : Nat) {s : State} (hs : shape s = whole) : shape (fabricDone done s) = whole := by
  unfold fabricDone
  dsimp only
  repeat' split
  all_goals simp [hs]

@[simp] theorem shape_applyEpoch (t : Nat) (p : Pending) (r : Req) (next : Time) (done : Nat) {s : State} (hs : shape s = whole) :
    shape (applyEpoch t p r next done s) = whole := by
  unfold applyEpoch
  split
  · exact hs
  · next g _ =>
    have h := shape_foldl_applyStaged (takeEpoch 0 g.staged).1
      (a := (modGroup t g.num (fun x => { x with staged := (takeEpoch 0 g.staged).2, epoch := x.epoch + 1 })
        (if g.epoch = 0 then tellLate t p s else s), g.noClock)) (by simp [hs])
    dsimp only
    generalize List.foldl applyStaged _ _ = a at h ⊢
    split
    · simp [h]
    · simp [h]

@[simp] theorem shape_applySwap (t : Nat) (next : Time) (done : Nat) {s : State} (p : Pending) (hs : shape s = whole) :
    shape (applySwap t next done s p) = whole := by
  unfold applySwap
  split <;> simp [hs]

@[simp] theorem shape_flipBanks (t : Nat) (s : State) : shape (flipBanks t s) = shape s := by
  refine shape_lens (List.ext_getElem (by simp) fun i _ _ => ?_)
  simp only [List.getElem_map, List.getElem_mapIdx]
  split <;> simp [coreSizes]

@[simp] theorem shape_swapAt (t : Nat) (n : Int) {s : State} (hs : shape s = whole) : shape (swapAt t n s) = whole := by
  have h : ∀ (l : List Pending) (next : Time) (done : Nat), shape (l.foldl (applySwap t next done) s) = whole :=
    fun l _ _ => whole_foldl (fun p hp => shape_applySwap _ _ _ p hp) l hs
  simp [swapAt, h, hs]

@[simp] theorem shape_execMirrorSwap (t : Fin 16) {s : State} (hs : shape s = whole) : outShape (execMirrorSwap t s) = some whole := by
  simp [execMirrorSwap, hs]

@[simp] theorem shape_runCycles (n : Nat) (s : State) : shape (runCycles n s) = shape s := rfl

@[simp] theorem shape_execTimeCycle (n : Nat) (s : State) : outShape (execTimeCycle n s) = some (shape s) := by simp [execTimeCycle]

@[simp] theorem shape_execSlewEnd (s : State) : outShape (execSlewEnd s) = some (shape s) := by
  unfold execSlewEnd
  split <;> simp

@[simp] theorem shape_execTempTermUpdate (die : BitVec 16) (s : State) : outShape (execTempTermUpdate die s) = some (shape s) := by
  simp [execTempTermUpdate]

@[simp] theorem shape_execSourceLost (s : State) : outShape (execSourceLost s) = some (shape s) := by simp [execSourceLost]

@[simp] theorem shape_execRefclkLost (s : State) : outShape (execRefclkLost s) = some (shape s) := by simp [execRefclkLost]

@[simp] theorem shape_execRefclkReturned (s : State) : outShape (execRefclkReturned s) = some (shape s) := by simp [execRefclkReturned]

@[simp] theorem shape_clearValid (cause : Nat) (s : State) : shape (clearValid cause s) = shape s := by simp [clearValid]

@[simp] theorem shape_execRefclkStopInSleep (s : State) : outShape (execRefclkStopInSleep s) = some (shape s) := by
  simp [execRefclkStopInSleep]

@[simp] theorem shape_startNext (k t : Nat) {s : State} (hs : shape s = whole) : shape (startNext k t s) = whole := by
  induction k generalizing s with
  | zero => exact hs
  | succ k ih =>
    unfold startNext
    split
    · exact hs
    · dsimp only
      split
      · next h =>
        split
        · exact ih (by simp [hs])
        · split
          · exact ih ((shape_say ..).trans ((keeps_meaningOf h).onRefuse _ (by simp [hs])))
          · exact (keeps_meaningOf h).start hs
      · exact ih (by simp [hs])

@[simp] theorem shape_endClass2 (t : Nat) (got : List Byte) {s : State} (hs : shape s = whole) : shape (endClass2 t got s) = whole := by
  unfold endClass2
  split
  · exact hs
  · split
    · next m _ h =>
      split
      · exact hs
      · rw [shape_finishClose]
        refine shape_startNext _ _ ?_
        split
        · simp [hs]
        · have he := (keeps_meaningOf h).effect got hs
          generalize m.effect got s = a at he ⊢
          simp [he]
    · exact hs

@[simp] theorem shape_settleClass2 {s : State} (hs : shape s = whole) : shape (settleClass2 s) = whole := by
  refine whole_foldl (fun {s} t hs => ?_) _ hs
  split
  · split
    · split <;> simp [hs]
    · split <;> simp [hs]
    · exact hs
  · exact hs

@[simp] theorem shape_wdStop (s : State) : shape (wdStop s) = shape s := by simp [wdStop]

@[simp] theorem shape_evrecStop (s : State) : shape (evrecStop s) = shape s := by simp [evrecStop]

@[simp] theorem shape_endAccesses (s : State) : shape (endAccesses s) = shape s := by
  unfold endAccesses
  dsimp only
  split <;> simp

@[simp] theorem shape_resetMedia {s : State} (hs : shape s = whole) : shape (resetMedia s) = whole := by
  have h : shape (stopAllPorts (loseCores (emptyPrism (settlePrism s)))) = whole := by simp [hs]
  unfold resetMedia
  generalize stopAllPorts (loseCores (emptyPrism (settlePrism s))) = u at h ⊢
  have hp : u.plink.ports.length = 4 := congrArg Shape.plink h
  rw [← h]
  simp [shape, hp]

@[simp] theorem shape_nvmOff (s : State) : shape (nvmOff s) = shape s := by simp [nvmOff]

@[simp] theorem shape_resetDbg {s : State} (hs : shape s = whole) : shape (resetDbg s) = whole := by
  have h8 : s.dbg.sel.length = 8 := congrArg Shape.sel hs
  rw [← hs]
  exact shape_modDbg_of h8.symm

@[simp] theorem shape_resetDomains {s : State} (hs : shape s = whole) : shape (resetDomains s) = whole := by
  have h : shape (wdStop (evrecStop (closeSession 2 (endAccesses (advanceCopies (cutCommit s)))))) = whole := by simp [hs]
  unfold resetDomains
  generalize wdStop (evrecStop (closeSession 2 (endAccesses (advanceCopies (cutCommit s))))) = u at h ⊢
  dsimp only
  generalize hv : modLast _ _ = v
  have hw : shape v = whole := by
    rw [← hv]
    simp [h]
  rw [← hw]
  simp [shape]

@[simp] theorem shape_flashCut (s : State) : shape (flashCut s) = shape s := by
  unfold flashCut
  dsimp only
  repeat' split
  all_goals simp

@[simp] theorem shape_dropPortFifos (s : State) : shape (dropPortFifos s) = shape s := by simp [dropPortFifos]

@[simp] theorem shape_coreLost {s : State} (hs : shape s = whole) : shape (coreLost s) = whole := by simp [coreLost, hs]

@[simp] theorem shape_slipUnder (p : Nat) (tx : Bool) (s : State) : shape (slipUnder p tx s) = shape s := by simp [slipUnder]

@[simp] theorem shape_portClockLost (p : Nat) (s : State) : shape (portClockLost p s) = shape s := by
  unfold portClockLost
  dsimp only
  split <;> simp

@[simp] theorem shape_portsLost (l : List Nat) (s : State) : shape (portsLost l s) = shape s := by simp [portsLost]

@[simp] theorem shape_timeLost (s : State) : shape (timeLost s) = shape s := by simp [timeLost]

@[simp] theorem shape_clockLoss (d : Nat) {s : State} (hs : shape s = whole) : shape (clockLoss d s) = whole := by simp [clockLoss, hs]

@[simp] theorem shape_declareLost (count : Nat) {s : State} (d : Nat) (hs : shape s = whole) : shape (declareLost count s d) = whole := by
  simp [declareLost, hs]

@[simp] theorem shape_unlock (k : Nat) {s : State} (hs : shape s = whole) : shape (unlock k s) = whole := by
  refine whole_foldl (fun {s} d hs => ?_) _ (by simp [hs])
  dsimp only
  split
  · exact shape_declareLost _ _ ((shape_drawFree s).trans hs)
  · exact hs

@[simp] theorem shape_execClockLost (domain : Fin 29) (how : ClockLoss) {s : State} (hs : shape s = whole) :
    outShape (execClockLost domain how s) = some whole := by
  unfold execClockLost
  dsimp only
  repeat' split
  all_goals simp [hs]

@[simp] theorem shape_stepTwo (env : StartEnv) (s : State) : shape (stepTwo env s) = shape s := by simp [stepTwo]

@[simp] theorem shape_enterRcFallback (s : State) : shape (enterRcFallback s) = shape s := by simp [enterRcFallback]

@[simp] theorem shape_stepThree (env : StartEnv) (s : State) : shape (stepThree env s) = shape s := by simp [stepThree]

@[simp] theorem shape_waitHost (s : State) : shape (waitHost s) = shape s := by simp [waitHost]

@[simp] theorem shape_trySlot (s : State) (b : Bool) : shape (trySlot s b).2 = shape s := by
  unfold trySlot
  dsimp only
  split
  · simp
  · split <;> simp

@[simp] theorem shape_flashBoot (s : State) : shape (flashBoot s).2 = shape s := by
  unfold flashBoot
  dsimp only
  have h := shape_trySlot s (slotBFirst s.sys)
  split
  · next heq =>
    rw [heq] at h
    exact (shape_runImage ..).trans h
  · next u heq =>
    rw [heq] at h
    have h2 := shape_trySlot u (!slotBFirst s.sys)
    split
    · next heq2 =>
      rw [heq2] at h2
      exact (shape_runImage ..).trans (h2.trans h)
    · next heq2 =>
      rw [heq2] at h2
      exact h2.trans h

@[simp] theorem shape_bootStep (s : State) : shape (bootStep s).2 = shape s := by
  unfold bootStep
  dsimp only
  have h := shape_flashBoot s
  split
  · simp
  · split
    · next heq =>
      rw [heq] at h
      exact h
    · next heq =>
      rw [heq] at h
      dsimp only
      split
      · simpa using h
      · exact h

@[simp] theorem shape_nvmDrive (s : State) : shape (nvmDrive s) = shape s := by simp [nvmDrive]

@[simp] theorem shape_fenceUnit (b cause : Nat) (s : State) : shape (fenceUnit b cause s) = shape s := by simp [fenceUnit]

@[simp] theorem shape_closeQuietly (t : Nat) (s : State) : shape (closeQuietly t s) = shape s := by simp [closeQuietly]

@[simp] theorem shape_closeAll (s : State) : shape (closeAll s) = shape s := by simp [closeAll]

@[simp] theorem shape_discardWork (s : State) (t : Nat) : shape (discardWork s t) = shape s := by simp [discardWork]

@[simp] theorem shape_evrecStoreLost (s : State) : shape (evrecStoreLost s) = shape s := by simp [evrecStoreLost, shape]

@[simp] theorem shape_storePowerUp (entropyOk : Bool) {s : State} (hs : shape s = whole) : shape (storePowerUp entropyOk s) = whole := by
  have ho : s.store.owner.length = 256 := congrArg Shape.owner hs
  have hk : s.store.keys.length = 17 := congrArg Shape.keys hs
  unfold storePowerUp
  dsimp only
  rw [shape_ite, shape_drawKey, shape_drawKey, ite_self, ← hs]
  refine shape_store ?_ hk.symm
  rw [List.length_append, List.length_replicate, List.length_replicate, ho]

@[simp] theorem shape_unitDefaults {s : State} (hs : shape s = whole) : shape (unitDefaults s) = whole := by
  simp only [shape, whole, Shape.mk.injEq] at hs
  simp [unitDefaults, shape, whole, hs, coreSizes, coreWhole]

/-- The calibration of a Store that was lost starts from its defaults. -/
theorem shape_calDefaults {f : Last → Last} (hf : ∀ l, (f l).cal = {}) {s : State} (hs : shape s = whole) :
    shape (modLast f s) = whole := by
  have hc : calSizes s.last.cal = [32, 4, 4, 4, 12] := congrArg Shape.cal hs
  rw [← hs]
  refine shape_last ?_
  rw [hf, hc]
  rfl

@[simp] theorem shape_stepFour (env : StartEnv) {s : State} (hs : shape s = whole) : shape (stepFour env s) = whole := by
  unfold stepFour
  dsimp only
  generalize hu : (if (s.store.lost || s.sys.fresh) = true then closeAll _ else List.foldl discardWork _ _ : State) = u
  have h : shape u = whole := by
    rw [← hu]
    simp [hs]
  have hv : shape (evrecStoreLost (modLast (fun l => { l with cal := {}, calOld := [] }) (storePowerUp env.entropyOk u))) = whole := by
    rw [shape_evrecStoreLost]
    exact shape_calDefaults (fun _ => rfl) (by simp [h])
  generalize evrecStoreLost _ = v at hv ⊢
  split
  · refine shape_unitDefaults ?_
    split
    · exact hv
    · exact h
  · split
    · exact hv
    · exact h

@[simp] theorem shape_start (kind : StartKind) (env : StartEnv) {s : State} (hs : shape s = whole) : shape (start kind env s) = whole := by
  unfold start
  dsimp only
  generalize hu : (if kind = .wake then _ else stepTwo env _ : State) = u
  have h : shape u = whole := by
    rw [← hu]
    simp [hs]
  split
  · exact h
  · split
    · simp [h]
    · have hb : shape (bootStep (nvmDrive (stepFour env (stepThree env u)))).2 = whole := by simp [h]
      split
      · next heq =>
        rw [heq] at hb
        simpa using hb
      · next heq =>
        rw [heq] at hb
        exact hb

@[simp] theorem shape_boot (kind : StartKind) (env : StartEnv) {s : State} (hs : shape s = whole) : shape (boot kind env s) = whole := by
  simp [boot, hs]

@[simp] theorem shape_freeDomains (l : List Nat) (s : State) : shape (freeDomains l s) = shape s := by simp [freeDomains]

@[simp] theorem shape_coreBack (s : State) : shape (coreBack s) = shape s := by simp [coreBack]

@[simp] theorem shape_portClockBack (p : Nat) (s : State) : shape (portClockBack p s) = shape s := by simp [portClockBack]

@[simp] theorem shape_portsBack (l : List Nat) (s : State) : shape (portsBack l s) = shape s := by simp [portsBack]

@[simp] theorem shape_timeBack (s : State) : shape (timeBack s) = shape s := by simp [timeBack]

@[simp] theorem shape_clockBack (d : Nat) {s : State} (hs : shape s = whole) : shape (clockBack d s) = whole := by simp [clockBack, hs]

@[simp] theorem shape_execClockReturned (domain : Fin 29) (how : ClockReturn) {s : State} (hs : shape s = whole) :
    outShape (execClockReturned domain how s) = some whole := by
  unfold execClockReturned
  dsimp only
  repeat' split
  all_goals simp [hs]

@[simp] theorem shape_execCrystalFail (s : State) : outShape (execCrystalFail s) = some (shape s) := by simp [execCrystalFail]

@[simp] theorem shape_loopStep (s : State) : shape (loopStep s) = shape s := by simp [loopStep]

@[simp] theorem shape_lockedSample (off : Time) (s : State) : shape (lockedSample off s) = shape s := by simp [lockedSample]

@[simp] theorem shape_countInRun (a : Time) (s : State) : shape (countInRun a s) = shape s := by simp [countInRun]

@[simp] theorem shape_applyStep (cause who : Nat) (new : Time) (s : State) : shape (applyStep cause who new s) = shape s := by
  simp [applyStep]

@[simp] theorem shape_acquireSample (off : Time) (s : State) : shape (acquireSample off s) = shape s := by simp [acquireSample]

@[simp] theorem shape_servoSample (off : Time) (s : State) : shape (servoSample off s) = shape s := by
  unfold servoSample
  dsimp only
  split
  · simp
  · split <;> simp

@[simp] theorem shape_capture (p : Nat) (falling : Bool) (t : Time) (at_ : Nat) (s : State) : shape (capture p falling t at_ s) = shape s := by
  simp [capture]

@[simp] theorem shape_reflexPass (pin : Nat) (t : Time) (at_ : Nat) (near : Bool) (s : State) (m : Nat) :
    shape (reflexPass pin t at_ near s m) = shape s := by simp [reflexPass]

@[simp] theorem shape_execCaptureEdge (p : Fin 32) (falling : Bool) (tap : Fin 8) (near : Bool) (s : State) :
    outShape (execCaptureEdge p falling tap near s) = some (shape s) := by simp [execCaptureEdge]

end Sys2Proof.Machine
end


section
/-! The sizes of the tables under the events of the Last, the pins, the ports of 06, Prieth and the audio ports. -/

namespace Sys2Proof.Machine

@[simp] theorem shape_fireAction (p : Nat) (a : PinAction) (at_ : Nat) (s : State) : shape (fireAction p a at_ s) = shape s := by
  unfold fireAction
  split <;> simp

@[simp] theorem shape_execScheduledAction (p : Fin 32) (s : State) : outShape (execScheduledAction p s) = some (shape s) := by
  unfold execScheduledAction
  dsimp only
  repeat' split
  all_goals simp

@[simp] theorem shape_execGridPulse (p : Fin 32) (s : State) : outShape (execGridPulse p s) = some (shape s) := by
  unfold execGridPulse
  dsimp only
  split <;> simp

@[simp] theorem shape_fsgPin (k : Nat) (c : FsgSet) (j : Int) (s : State) (p : Nat) : shape (fsgPin k c j s p) = shape s := by simp [fsgPin]

@[simp] theorem shape_launchEarly (k : Nat) (c : FsgSet) (j : Int) (s : State) : shape (launchEarly k c j s) = shape s := by
  simp [launchEarly]

@[simp] theorem shape_beginFrame (k : Nat) (c : FsgSet) (j : Int) (s : State) : shape (beginFrame k c j s) = shape s := by simp [beginFrame]

@[simp] theorem shape_execFsgFrameStart (k : Fin 8) (s : State) : outShape (execFsgFrameStart k s) = some (shape s) := by
  unfold execFsgFrameStart
  dsimp only
  repeat' split
  all_goals simp

@[simp] theorem shape_execEthLinkChange (p : Fin 4) (report : LinkReport) (cause : Byte) (s : State) :
    outShape (execEthLinkChange p report cause s) = some (shape s) := by
  unfold execEthLinkChange
  split <;> simp

@[simp] theorem shape_countRx (p : Nat) (s : State) : shape (countRx p s) = shape s := by simp [countRx]

@[simp] theorem shape_execEthFrameRx (p : Fin 4) (f : EthFrame) (s : State) : outShape (execEthFrameRx p f s) = some (shape s) := by
  simp [execEthFrameRx]

@[simp] theorem shape_sendPtp (p bits : Nat) (o : Output) (s : State) : shape (sendPtp p bits o s) = shape s := by simp [sendPtp]

@[simp] theorem shape_sendSync (extra : Bool) (p : Nat) (origin correction rate : Int) (s : State) :
    shape (sendSync extra p origin correction rate s) = shape s := by simp [sendSync]

@[simp] theorem shape_relaySync (p : Nat) (extra : Bool) (now rx : Time) (origin correction rate : Int) (s : State) (m : Nat) :
    shape (relaySync p extra now rx origin correction rate s m) = shape s := by simp [relaySync]

@[simp] theorem shape_syncComplete (p : Nat) (extra : Bool) (rx : Time) (origin correction rate : Int) (s : State) :
    shape (syncComplete p extra rx origin correction rate s) = shape s := by simp [syncComplete]

@[simp] theorem shape_execSync (p : Fin 4) (m : SyncMsg) (s : State) : outShape (execSync p m s) = some (shape s) := by
  unfold execSync
  dsimp only
  split
  · simp
  · split <;> simp

@[simp] theorem shape_execFollowUp (p : Fin 4) (m : FollowUpMsg) (s : State) : outShape (execFollowUp p m s) = some (shape s) := by
  unfold execFollowUp
  dsimp only
  repeat' split
  all_goals simp

@[simp] theorem shape_execAnnounce (p : Fin 4) (m : AnnounceMsg) (s : State) : outShape (execAnnounce p m s) = some (shape s) := by
  unfold execAnnounce
  dsimp only
  split
  · simp
  · split <;> simp

@[simp] theorem shape_setCapable (p : Nat) (b : Bool) (s : State) : shape (setCapable p b s) = shape s := by simp [setCapable]

@[simp] theorem shape_execPdelay (p : Fin 4) (m : PdelayMsg) (s : State) : outShape (execPdelay p m s) = some (shape s) := by
  unfold execPdelay
  dsimp only
  repeat' split
  all_goals simp

@[simp] theorem shape_execSyncInterval (extra : Bool) (s : State) : outShape (execSyncInterval extra s) = some (shape s) := by
  simp [execSyncInterval]

@[simp] theorem shape_execPdelayInterval (p : Fin 4) (s : State) : outShape (execPdelayInterval p s) = some (shape s) := by
  simp [execPdelayInterval]

@[simp] theorem shape_execAnnounceInterval (extra : Bool) (s : State) : outShape (execAnnounceInterval extra s) = some (shape s) := by
  simp [execAnnounceInterval]

@[simp] theorem shape_execSyncReceiptTimeout (p : Fin 4) (extra : Bool) (s : State) :
    outShape (execSyncReceiptTimeout p extra s) = some (shape s) := by
  unfold execSyncReceiptTimeout
  dsimp only
  split <;> simp

@[simp] theorem shape_execAnnounceReceiptTimeout (p : Fin 4) (extra : Bool) (s : State) :
    outShape (execAnnounceReceiptTimeout p extra s) = some (shape s) := by
  unfold execAnnounceReceiptTimeout
  dsimp only
  split <;> simp

@[simp] theorem shape_seqGap (k : Nat) (seq : Byte) (s : State) : shape (seqGap k seq s) = shape s := by
  unfold seqGap
  dsimp only
  split <;> simp

@[simp] theorem shape_judgePacket (k fs : Nat) (rx : Time) (b : Int) (samples : List (List Word)) (s : State) :
    shape (judgePacket k fs rx b samples s) = shape s := by simp [judgePacket]

@[simp] theorem shape_execAvtpPacket (k : Fin 64) (m : AvtpPkt) (s : State) : outShape (execAvtpPacket k m s) = some (shape s) := by
  unfold execAvtpPacket
  dsimp only
  repeat' split
  all_goals simp

@[simp] theorem shape_queueFrame (p cls bits : Nat) (f : AvFrame) (s : State) : shape (queueFrame p cls bits f s) = shape s := by
  simp [queueFrame]

@[simp] theorem shape_sendTalker (k : Nat) (g : StreamCfg) (bits : Nat) (body : AvBody) (s : State) :
    shape (sendTalker k g bits body s) = shape s := by simp [sendTalker]

@[simp] theorem shape_execAvtpTalkerInterval (k : Fin 64) (s : State) : outShape (execAvtpTalkerInterval k s) = some (shape s) := by
  unfold execAvtpTalkerInterval
  dsimp only
  split <;> simp

@[simp] theorem shape_execCrfPduSend (pdu : CrfPdu) (s : State) : outShape (execCrfPduSend pdu s) = some (shape s) := by
  unfold execCrfPduSend
  dsimp only
  split <;> simp

@[simp] theorem shape_execCommaAlign (port : Fin 4) (s : State) : outShape (execCommaAlign port s) = some (shape s) := by
  simp [execCommaAlign]

@[simp] theorem shape_execCommaLoss (port : Fin 4) {s : State} (hs : shape s = whole) : outShape (execCommaLoss port s) = some whole := by
  simp [execCommaLoss, hs]

@[simp] theorem shape_execLinkTimeout (port : Fin 4) {s : State} (hs : shape s = whole) : outShape (execLinkTimeout port s) = some whole := by
  simp [execLinkTimeout, hs]

@[simp] theorem shape_audioRx (p : Nat) (f : PlFrame) (s : State) : shape (audioRx p f s) = shape s := by
  unfold audioRx
  dsimp only
  repeat' split
  all_goals simp

@[simp] theorem shape_upstreamRx (p : Nat) (t : TimeCell) (stamp : Int) (s : State) : shape (upstreamRx p t stamp s) = shape s := by
  unfold upstreamRx
  dsimp only
  repeat' split
  all_goals simp

@[simp] theorem shape_timeCellRx (p : Nat) (t : TimeCell) (stamp : Int) (s : State) : shape (timeCellRx p t stamp s) = shape s := by
  simp [timeCellRx]

@[simp] theorem shape_frameRx (p : Nat) (f : PlFrame) (s : State) : shape (frameRx p f s) = shape s := by
  unfold frameRx
  dsimp only
  split <;> simp

@[simp] theorem shape_execPlinkFrame (port : Fin 4) (frame : PlFrame) {s : State} (hs : shape s = whole) :
    outShape (execPlinkFrame port frame s) = some whole := by simp [execPlinkFrame, hs]

@[simp] theorem shape_launch (p : Nat) (s : State) : shape (launch p s) = shape s := by simp [launch]

@[simp] theorem shape_execPlinkFrameLaunch (port : Fin 4) (s : State) : outShape (execPlinkFrameLaunch port s) = some (shape s) := by
  simp [execPlinkFrameLaunch]

@[simp] theorem shape_remoteReply (t : Nat) (b : List Byte) (s : State) : shape (remoteReply t b s) = shape s := by simp [remoteReply]

@[simp] theorem shape_cellPacket (c : CmdCell) {s : State} (hs : shape s = whole) : shape (cellPacket c s) = whole := by
  simp [cellPacket, hs]

@[simp] theorem shape_execCommandCell (port : Fin 4) (cell : CmdCell) {s : State} (hs : shape s = whole) :
    outShape (execCommandCell port cell s) = some whole := by
  unfold execCommandCell
  dsimp only
  repeat' split
  all_goals simp [hs]

@[simp] theorem shape_takeAddress (p addr depth : Nat) (setSource : Bool) (epoch : Half) (limit : Nat) (s : State) :
    shape (takeAddress p addr depth setSource epoch limit s) = shape s := by simp [takeAddress]

@[simp] theorem shape_execCellEnum (port : Fin 4) (addr : BitVec 12) (depth : Byte) (setSource : Bool) (epoch : Half) (limit : BitVec 12) (s : State) :
    outShape (execCellEnum port addr depth setSource epoch limit s) = some (shape s) := by simp [execCellEnum]

@[simp] theorem shape_enumDone (p next : Nat) (s : State) : shape (enumDone p next s) = shape s := by
  unfold enumDone
  split <;> simp

@[simp] theorem shape_execCellEnumDone (port : Fin 4) (next : BitVec 13) (epoch : Half) {s : State} (hs : shape s = whole) :
    outShape (execCellEnumDone port next epoch s) = some whole := by simp [execCellEnumDone, hs]

@[simp] theorem shape_execCellEnumReject (port : Fin 4) (reason : Byte) (epoch : Half) {s : State} (hs : shape s = whole) :
    outShape (execCellEnumReject port reason epoch s) = some whole := by simp [execCellEnumReject, hs]

@[simp] theorem shape_execCellPrepare (port : Fin 4) (fid : Byte) (tenant : Fin 16) (group : Half) (s : State) :
    outShape (execCellPrepare port fid tenant group s) = some (shape s) := by simp [execCellPrepare]

@[simp] theorem shape_execCellPrepareAck (port : Fin 4) (fid : Byte) (ready idle failed firstFailed : Half) {s : State} (hs : shape s = whole) :
    outShape (execCellPrepareAck port fid ready idle failed firstFailed s) = some whole := by simp [execCellPrepareAck, hs]

@[simp] theorem shape_execCellApply (port : Fin 4) (fid : Byte) (time : Stamp) (s0 : State) :
    outShape (execCellApply port fid time s0) = some (shape s0) := by
  unfold execCellApply
  dsimp only
  split
  · simp
  · split <;> simp

@[simp] theorem shape_execCellAbort (port : Fin 4) (fid : Byte) (s : State) : outShape (execCellAbort port fid s) = some (shape s) := by
  simp [execCellAbort]

@[simp] theorem shape_execPrepareTimeout {s : State} (hs : shape s = whole) : outShape (execPrepareTimeout s) = some whole := by
  simp [execPrepareTimeout, hs]

@[simp] theorem shape_execArmTimeout (s : State) : outShape (execArmTimeout s) = some (shape s) := by
  unfold execArmTimeout
  split <;> simp

@[simp] theorem shape_slipOver (p : Nat) (tx : Bool) (s : State) : shape (slipOver p tx s) = shape s := by simp [slipOver]

@[simp] theorem shape_writeFifo (p : Nat) (tx : Bool) (depth : Nat) (frame : Word × List Word) (s : State) :
    shape (writeFifo p tx depth frame s) = shape s := by simp [writeFifo]

@[simp] theorem shape_readFifo (p : Nat) (tx : Bool) (depth : Nat) (s : State) : shape (readFifo p tx depth s).2 = shape s := by
  unfold readFifo
  dsimp only
  split
  · simp
  · split <;> simp

@[simp] theorem shape_dataFrame (p : Nat) (c : AportCfg) (sdi : List Bool) (s : State) : shape (dataFrame p c sdi s) = shape s := by
  unfold dataFrame
  dsimp only
  split <;> simp

@[simp] theorem shape_execPortFrameStart (port : Fin 8) (sdi : List Bool) (s : State) :
    outShape (execPortFrameStart port sdi s) = some (shape s) := by
  unfold execPortFrameStart
  dsimp only
  repeat' split
  all_goals simp

@[simp] theorem shape_frameError (p bits : Nat) (s : State) : shape (frameError p bits s) = shape s := by simp [frameError]

@[simp] theorem shape_execSlaveFrameSync (port : Fin 8) (bits : Nat) (tap : Fin 8) (s : State) :
    outShape (execSlaveFrameSync port bits tap s) = some (shape s) := by
  unfold execSlaveFrameSync
  dsimp only
  repeat' split
  all_goals simp

@[simp] theorem shape_execSlaveFrameTimeout (port : Fin 8) (s : State) : outShape (execSlaveFrameTimeout port s) = some (shape s) := by
  unfold execSlaveFrameTimeout
  dsimp only
  split <;> simp

@[simp] theorem shape_execPrerollEnd (port : Fin 8) (s : State) : outShape (execPrerollEnd port s) = some (shape s) := by
  simp [execPrerollEnd]

@[simp] theorem shape_execPostrollEnd (port : Fin 8) (s : State) : outShape (execPostrollEnd port s) = some (shape s) := by
  simp [execPostrollEnd]

@[simp] theorem shape_startPostroll (p : Nat) (s : State) : shape (startPostroll p s) = shape s := by
  unfold startPostroll
  dsimp only
  split <;> simp

@[simp] theorem shape_endOverrun (p : Nat) (tx : Bool) (s : State) : shape (endOverrun p tx s) = shape s := by
  unfold endOverrun
  dsimp only
  split <;> simp

@[simp] theorem shape_applyMask (p : Nat) (tx : Bool) (s : State) : shape (applyMask p tx s) = shape s := by
  unfold applyMask
  dsimp only
  split <;> simp

@[simp] theorem shape_portFadeDone (p : Nat) (tx : Bool) (s : State) : shape (portFadeDone p tx s) = shape s := by simp [portFadeDone]

@[simp] theorem shape_execFadeComplete (port : Fin 8) (tx : Bool) {s : State} (hs : shape s = whole) :
    outShape (execFadeComplete port tx s) = some whole := by simp [execFadeComplete, hs]

@[simp] theorem shape_execAportRateSwitch (port : Fin 8) (s : State) : outShape (execAportRateSwitch port s) = some (shape s) := by
  unfold execAportRateSwitch
  dsimp only
  split <;> simp

@[simp] theorem shape_execMcgWindowEnd (mcg : Fin 4) (edges : Nat) (span : EdgeSpan) (s : State) :
    outShape (execMcgWindowEnd mcg edges span s) = some (shape s) := by simp [execMcgWindowEnd]

@[simp] theorem shape_feedLink (p : Nat) (b : Int) (v : Word) (acc : List (Nat × Int) × State) (k : SlotMap) :
    shape (feedLink p b v acc k).2 = shape acc.2 := by
  unfold feedLink
  split <;> simp

@[simp] theorem shape_linkSlot (p : Nat) (b : Int) (acc : List (Nat × Int) × State) (slot : Nat) :
    shape (linkSlot p b acc slot).2 = shape acc.2 := by simp [linkSlot]

@[simp] theorem shape_linkAt (fs : Nat) (b : Int) (acc : List (Nat × Int) × State) (p : Nat) : shape (linkAt fs b acc p).2 = shape acc.2 := by
  unfold linkAt
  split <;> simp

@[simp] theorem shape_forwardLinks (fs : Nat) (b : Int) (s : State) : shape (forwardLinks fs b s) = shape s := by simp [forwardLinks]

@[simp] theorem shape_takeInput (p : Nat) (s : State) : shape (takeInput p s).2 = shape s := by
  unfold takeInput
  dsimp only
  split
  · simp
  · split <;> simp

@[simp] theorem shape_gatherPorts (k n : Nat) (s : State) : shape (gatherPorts k n s).2 = shape s := by
  induction k generalizing s with
  | zero => rfl
  | succ k ih =>
    unfold gatherPorts
    dsimp only
    repeat' split
    all_goals simp [ih]

@[simp] theorem shape_giveOutput (p : Nat) (frame : List Word) (s : State) : shape (giveOutput p frame s) = shape s := by
  unfold giveOutput
  split <;> simp

@[simp] theorem shape_deliverPort (fs : Nat) (l : List (Nat × Word)) (s : State) (p : Nat) : shape (deliverPort fs l s p) = shape s := by
  simp [deliverPort]

end Sys2Proof.Machine
end


section
/-! The sizes of the tables under the events of Prism, the Lens blocks, the recorder, power and debug. -/

namespace Sys2Proof.Machine

@[simp] theorem shape_deliverTalker (fs : Nat) (b : Int) (l : List (Nat × Word)) (s : State) (k : Nat) :
    shape (deliverTalker fs b l s k) = shape s := by
  unfold deliverTalker
  dsimp only
  split <;> simp

@[simp] theorem shape_deliverLink (fs : Nat) (b : Int) (l : List (Nat × Word)) (s : State) (p : Nat) :
    shape (deliverLink fs b l s p) = shape s := by simp [deliverLink]

@[simp] theorem shape_deliverLens (fs : Nat) (l : List (Nat × Word)) (s : State) (n : Nat) : shape (deliverLens fs l s n) = shape s := by
  unfold deliverLens
  split
  · rfl
  · exact shape_modLens (fun _ => by simp [coreSizes]) n s

@[simp] theorem shape_deliverAll (fs : Nat) (b : Int) (l : List (Nat × Word)) (s : State) : shape (deliverAll fs b l s) = shape s := by
  simp [deliverAll]

@[simp] theorem shape_fadeSink (acc : List (Nat × Word) × State) (x : Nat × Word) : shape (fadeSink acc x).2 = shape acc.2 := by
  unfold fadeSink
  split <;> simp

@[simp] theorem shape_deliverBus (s : State) (b : Nat) : shape (deliverBus s b) = shape s := by simp [deliverBus]

@[simp] theorem shape_busStage (sums : List (Nat × Int)) (s : State) (b : Nat) : shape (busStage sums s b) = shape s := by simp [busStage]

@[simp] theorem shape_sinkStage (acc : List (Nat × Word) × State) (x : Nat × Int) : shape (sinkStage acc x).2 = shape acc.2 := by
  simp [sinkStage]

@[simp] theorem shape_mixStage (fs pipe : Nat) (s : State) : shape (mixStage fs pipe s) = shape s := by
  unfold mixStage
  split <;> simp

@[simp] theorem shape_listenerChannel (x : Option (List Word)) (base : Nat) (acc : List (Nat × Int) × State) (i : Nat) :
    shape (listenerChannel x base acc i).2 = shape acc.2 := by simp [listenerChannel]

@[simp] theorem shape_listenerAt (fs : Nat) (b : Int) (acc : List (Nat × Int) × State) (k : Nat) :
    shape (listenerAt fs b acc k).2 = shape acc.2 := by
  unfold listenerAt
  dsimp only
  repeat' split
  all_goals simp

@[simp] theorem shape_slotOutput (n k : Nat) (t : Int) (s : State) : shape (slotOutput n k t s).2 = shape s := by
  unfold slotOutput
  dsimp only
  split
  · rfl
  · exact shape_modLens (fun _ => by simp [coreSizes]) n s

@[simp] theorem shape_lensSlotAt (n : Nat) (b : Int) (acc : List (Nat × Int) × State) (k : Nat) :
    shape (lensSlotAt n b acc k).2 = shape acc.2 := by
  unfold lensSlotAt
  split
  · split <;> simp
  · simp

@[simp] theorem shape_lensAt (fs : Nat) (b : Int) (acc : List (Nat × Int) × State) (n : Nat) : shape (lensAt fs b acc n).2 = shape acc.2 := by
  unfold lensAt
  split <;> simp

@[simp] theorem shape_gather (fs : Nat) (b : Int) (s : State) : shape (gather fs b s).2 = shape s := by simp [gather]

@[simp] theorem shape_filterStage (fs : Nat) (acc : List (Nat × Int) × State) (x : Nat × Int) :
    shape (filterStage fs acc x).2 = shape acc.2 := by
  unfold filterStage
  split <;> simp

@[simp] theorem shape_xpStage (fs : Nat) (vals : List (Nat × Int)) (acc : List (Nat × Int) × List Xp × List Nat × State) (x : Xp) :
    shape (xpStage fs vals acc x).2.2.2 = shape acc.2.2.2 := by
  unfold xpStage
  dsimp only
  repeat' split
  all_goals simp

@[simp] theorem shape_routeStage (fs : Nat) (vals : List (Nat × Int)) (acc : (List SinkForm × List (Nat × Int)) × List Route × List Nat × State) (x : Route) :
    shape (routeStage fs vals acc x).2.2.2 = shape acc.2.2.2 := by
  unfold routeStage
  dsimp only
  repeat' split
  all_goals simp

@[simp] theorem shape_foldl_xpStage (fs : Nat) (vals : List (Nat × Int)) (l : List Xp)
    (a : List (Nat × Int) × List Xp × List Nat × State) : shape (l.foldl (xpStage fs vals) a).2.2.2 = shape a.2.2.2 :=
  foldl_keeps (fun a : List (Nat × Int) × List Xp × List Nat × State => shape a.2.2.2) (fun a x => shape_xpStage fs vals a x) l a

@[simp] theorem shape_foldl_routeStage (fs : Nat) (vals : List (Nat × Int)) (l : List Route)
    (a : (List SinkForm × List (Nat × Int)) × List Route × List Nat × State) :
    shape (l.foldl (routeStage fs vals) a).2.2.2 = shape a.2.2.2 :=
  foldl_keeps (fun a : (List SinkForm × List (Nat × Int)) × List Route × List Nat × State => shape a.2.2.2)
    (fun a x => shape_routeStage fs vals a x) l a

@[simp] theorem shape_routeAll (fs : Nat) (vals : List (Nat × Int)) (s : State) : shape (routeAll fs vals s).2 = shape s := by
  simp [routeAll]

@[simp] theorem shape_prismBoundary (fs pipe : Nat) (s : State) : shape (prismBoundary fs pipe s) = shape s := by simp [prismBoundary]

@[simp] theorem shape_execPrismSample (family : Bool) (rate : Fin 3) (s : State) :
    outShape (execPrismSample family rate s) = some (shape s) := by simp [execPrismSample]

@[simp] theorem shape_execBusRangeStepDown (bus : Fin 128) (s : State) : outShape (execBusRangeStepDown bus s) = some (shape s) := by
  simp [execBusRangeStepDown]

@[simp] theorem shape_passOutput (n j : Nat) (k : Int) (s : State) : shape (passOutput n j k s) = shape s := by simp [passOutput]

@[simp] theorem shape_fillInput (n slot : Nat) (k : Int) (s : State) : shape (fillInput n slot k s) = shape s := by
  unfold fillInput
  dsimp only
  split
  · split
    · exact shape_modLens (fun _ => by rfl) n s
    · rw [shape_modLens]
      · exact shape_foldl_snd (fun _ _ => by exact shape_slotOutput ..) _ _
      · exact fun _ => rfl
  · rfl

@[simp] theorem shape_blockStart (n : Nat) {s : State} (hs : shape s = whole) : shape (blockStart n s) = whole := by
  have hkeep : ∀ u : State, shape (modLens n (fun c => { c with inBlk := [] }) u) = shape u := fun u =>
    shape_modLens (fun _ => by rfl) n u
  unfold blockStart
  dsimp only
  split
  · rw [hkeep, hs]
  · split
    · rw [shape_modLens, shape_countMiss, hs]
      intro c
      split
      · rfl
      · exact coreSizes_fadeOutputs ..
    · split
      · rw [hkeep, hs]
      · generalize hu : List.foldl (fun s j => passOutput n j _ s) s (List.range 4) = u
        have h : shape u = whole := by
          rw [← hu, shape_foldl (fun _ _ => shape_passOutput ..), hs]
        generalize hv : List.foldl _ (modLens n _ u) (List.range 4) = v
        have hw : shape v = whole := by
          rw [← hv, shape_foldl (fun _ _ => by simp), shape_modLens, h]
          intro c
          rw [coreSizes_takeSettings]
          simp [coreSizes]
        exact shape_modLens_core hw fun hn => coreSizes_beginBlock _ _ (coreSizes_core hw hn)

@[simp] theorem shape_execBlockStart (core : Fin 8) {s : State} (hs : shape s = whole) : outShape (execBlockStart core s) = some whole := by
  simp [execBlockStart, hs]

@[simp] theorem shape_execDeadlineMiss (core : Fin 8) (s : State) : outShape (execDeadlineMiss core s) = some (shape s) := by
  unfold execDeadlineMiss
  dsimp only
  split
  · rfl
  · next r _ =>
    split
    · rfl
    · split
      · rw [shape_fin, shape_modLens, shape_modLens (coreSizes_fadeOutputs r.out)]
        exact fun _ => rfl
      · rw [shape_fin, shape_modLens, shape_countMiss, shape_modLens (coreSizes_fadeOutputs r.out)]
        intro c
        split
        · rfl
        · split
          · exact coreSizes_abortKernels c
          · rfl

@[simp] theorem shape_execCoreMemoryClearDone (core : Fin 8) {s : State} (hs : shape s = whole) :
    outShape (execCoreMemoryClearDone core s) = some whole := by
  unfold execCoreMemoryClearDone
  split
  · rw [shape_fin, shape_modLens_core hs fun _ => coreSizes_emptyCore _]
  · rw [outShape_next, hs]

@[simp] theorem shape_execStoreAccess (l : List MatrixReq) {s : State} (hs : shape s = whole) :
    outShape (execStoreAccess l s) = some whole := by simp [execStoreAccess, hs]

@[simp] theorem shape_execLockTimeout {s : State} (hs : shape s = whole) : outShape (execLockTimeout s) = some whole := by
  unfold execLockTimeout
  split <;> simp [hs]

@[simp] theorem shape_scanDone (s : State) : shape (scanDone s) = shape s := by
  unfold scanDone
  split
  · rfl
  · dsimp only
    split
    · rfl
    · rw [shape_record]
      exact (shape_tenants (by simp)).trans (by simp)

@[simp] theorem shape_execChannelCScanDone (s : State) : outShape (execChannelCScanDone s) = some (shape s) := by
  simp [execChannelCScanDone]

@[simp] theorem shape_nvmOk (s : State) : shape (nvmOk s) = shape s := by simp [nvmOk]

@[simp] theorem shape_execChannelCProgramDone (ok : Bool) (s : State) : outShape (execChannelCProgramDone ok s) = some (shape s) := by
  unfold execChannelCProgramDone
  split <;> simp

@[simp] theorem shape_modDump (f : Dump → Dump) (s : State) : shape (modDump f s) = shape s := by simp [modDump]

@[simp] theorem shape_dumpWrite (ok : Bool) (a : Nat) (l : List Byte) (s : State) : shape (dumpWrite ok a l s) = shape s := by
  simp [dumpWrite]

@[simp] theorem shape_endDump (d : Dump) (s : State) : shape (endDump d s) = shape s := by simp [endDump]

@[simp] theorem shape_dumpPage (ok : Bool) (s : State) : shape (dumpPage ok s) = shape s := by
  unfold dumpPage
  split <;> simp

@[simp] theorem shape_execDumpPageDone (ok : Bool) (s : State) : outShape (execDumpPageDone ok s) = some (shape s) := by
  simp [execDumpPageDone]

@[simp] theorem shape_operatingMark (s : State) : shape (operatingMark s) = shape s := by
  unfold operatingMark
  split
  · split
    · rfl
    · exact (shape_record ..).trans ((shape_modSys ..).trans (shape_modEvrec ..))
  · rfl

@[simp] theorem shape_execOperatingTimeMark (s : State) : outShape (execOperatingTimeMark s) = some (shape s) := by
  simp [execOperatingTimeMark]

@[simp] theorem shape_execWatchdogExpiry (s : State) : outShape (execWatchdogExpiry s) = some (shape s) := by simp [execWatchdogExpiry]

@[simp] theorem shape_execGraceEnd (env : StartEnv) {s : State} (hs : shape s = whole) : outShape (execGraceEnd env s) = some whole := by
  simp [execGraceEnd, hs]

@[simp] theorem openSwitches_volts (p : Pwr) : (openSwitches p).volts = p.volts := rfl

@[simp] theorem openSwitches_lowSeen (p : Pwr) : (openSwitches p).lowSeen = p.lowSeen := rfl

@[simp] theorem shape_enterHoldover (old : Nat) {s : State} (hs : shape s = whole) : shape (enterHoldover old s) = whole := by
  simp [enterHoldover, hs]

@[simp] theorem shape_execPowerFailTrip {s : State} (hs : shape s = whole) : outShape (execPowerFailTrip s) = some whole := by
  simp [execPowerFailTrip, hs]

@[simp] theorem shape_execMainPowerReturn (s : State) : outShape (execMainPowerReturn s) = some (shape s) := by simp [execMainPowerReturn]

@[simp] theorem shape_execHoldEnRelease {s : State} (hs : shape s = whole) : outShape (execHoldEnRelease s) = some whole := by
  simp [execHoldEnRelease, hs]

@[simp] theorem shape_execHoldTimeEnd (s : State) : outShape (execHoldTimeEnd s) = some (shape s) := by simp [execHoldTimeEnd]

@[simp] theorem shape_modeOff {s : State} (hs : shape s = whole) : shape (modeOff s) = whole := by
  simp [modeOff, hs]

@[simp] theorem shape_execHoldoverEnd {s : State} (hs : shape s = whole) : outShape (execHoldoverEnd s) = some whole := by
  simp [execHoldoverEnd, hs]

@[simp] theorem shape_shuntCurrent (nv : BitVec 32) (s : State) : shape (shuntCurrent nv s).2 = shape s := by
  unfold shuntCurrent
  dsimp only
  split
  · simp
  · split <;> simp

@[simp] theorem shape_lowCell (s : State) (i : Nat) : shape (lowCell s i) = shape s := by simp [lowCell]

@[simp] theorem shape_holdFail (cause trigger : Nat) (s : State) : shape (holdFail cause trigger s) = shape s := by simp [holdFail]

@[simp] theorem shape_execCellMeasurement (cells : List Half) (shuntNv : BitVec 32) {s : State} (hs : shape s = whole) :
    outShape (execCellMeasurement cells shuntNv s) = some whole := by
  unfold execCellMeasurement
  dsimp only
  split
  · rw [outShape_next, hs]
  · split
    · simp [hs]
    · generalize hu : List.foldl lowCell _ _ = u
      have h : shape u = whole := by
        rw [← hu, shape_foldl shape_lowCell]
        refine shape_discardVolts (fun _ => ?_) (fun _ => ?_) ?_
        · simp
        · rfl
        · simp [hs]
      simp [h]

@[simp] theorem shape_execBalanceTick (s : State) : outShape (execBalanceTick s) = some (shape s) := by
  unfold execBalanceTick
  dsimp only
  rw [shape_fin, shape_modPwr]
  · intro p
    split <;> rfl
  · intro p
    split <;> rfl

@[simp] theorem shape_execHeartbeat (s : State) : outShape (execHeartbeat s) = some (shape s) := by simp [execHeartbeat]

@[simp] theorem shape_execHeartbeatTimeout (s : State) : outShape (execHeartbeatTimeout s) = some (shape s) := by
  simp [execHeartbeatTimeout]

@[simp] theorem shape_execCellOvervoltage (cell : Fin 12) (mv : Half) (s : State) :
    outShape (execCellOvervoltage cell mv s) = some (shape s) := by simp [execCellOvervoltage]

@[simp] theorem shape_execChgEnRecovery (s : State) : outShape (execChgEnRecovery s) = some (shape s) := by simp [execChgEnRecovery]

@[simp] theorem shape_execShankSilent (s : State) : outShape (execShankSilent s) = some (shape s) := by simp [execShankSilent]

@[simp] theorem shape_execSleepEntry {s : State} (hs : shape s = whole) : outShape (execSleepEntry s) = some whole := by
  simp [execSleepEntry, hs]

@[simp] theorem shape_execWake (source : WakeSource) (s : State) : outShape (execWake source s) = some (shape s) := by simp [execWake]

@[simp] theorem shape_execWakeRelease (env : StartEnv) {s : State} (hs : shape s = whole) : outShape (execWakeRelease env s) = some whole := by
  simp [execWakeRelease, hs]

@[simp] theorem shape_execThetaHigh (theta : Half) (s : State) : outShape (execThetaHigh theta s) = some (shape s) := by
  simp [execThetaHigh]

@[simp] theorem shape_execThetaLow (theta : Half) (s : State) : outShape (execThetaLow theta s) = some (shape s) := by simp [execThetaLow]

@[simp] theorem shape_evrecAonLost (s : State) : shape (evrecAonLost s) = shape s := by simp [evrecAonLost]

@[simp] theorem shape_aonLost {s : State} (hs : shape s = whole) : shape (aonLost s) = whole := by
  unfold aonLost
  dsimp only
  generalize hu : modEvrec _ (evrecAonLost (resetDomains (cutCommit (flashCut s)))) = u
  have h : shape u = whole := by
    rw [← hu]
    simp [hs]
  simp only [shape, whole, Shape.mk.injEq] at h
  simp only [shape, whole, Shape.mk.injEq, h, true_and]
  exact ⟨rfl, rfl, rfl, rfl, rfl, rfl, rfl, rfl, rfl, rfl, rfl, rfl, rfl, rfl, rfl⟩

@[simp] theorem shape_execAonPowerLoss {s : State} (hs : shape s = whole) : outShape (execAonPowerLoss s) = some whole := by
  simp [execAonPowerLoss, hs]

@[simp] theorem shape_execStoreRetentionTrip (s : State) : outShape (execStoreRetentionTrip s) = some (shape s) := by
  simp [execStoreRetentionTrip]

@[simp] theorem shape_execPciePerst (low : Bool) (s : State) : outShape (execPciePerst low s) = some (shape s) := by simp [execPciePerst]

@[simp] theorem shape_execPowerOnReset {s : State} (hs : shape s = whole) : outShape (execPowerOnReset s) = some whole := by
  simp [execPowerOnReset, hs]

@[simp] theorem shape_execResetNAssert {s : State} (hs : shape s = whole) : outShape (execResetNAssert s) = some whole := by
  simp [execResetNAssert, hs]

@[simp] theorem shape_execResetNRelease (env : StartEnv) {s : State} (hs : shape s = whole) :
    outShape (execResetNRelease env s) = some whole := by simp [execResetNRelease, hs]

@[simp] theorem shape_evrecFenced (s : State) : shape (evrecFenced s) = shape s := by simp [evrecFenced]

@[simp] theorem shape_execSelfTestDone (unit : Fin 21) (pass : Bool) (cause : Byte) (s : State) :
    outShape (execSelfTestDone unit pass cause s) = some (shape s) := by simp [execSelfTestDone]

@[simp] theorem shape_tapLoad (ir : BitVec 5) (s : State) : shape (tapLoad ir s) = shape s := by simp [tapLoad]

@[simp] theorem shape_execDbgAp (addr wdata : Word) (write consume go : Bool) {s : State} (hs : shape s = whole) :
    outShape (execDbgAp addr wdata write consume go s) = some whole := by simp [execDbgAp, hs]

@[simp] theorem shape_execDbgChal (s : State) : outShape (execDbgChal s) = some (shape s) := by simp [execDbgChal]

@[simp] theorem shape_execDbgResp (scope reserved : Byte) (duration : Half) (pubX pubY sigR sigS : BitVec 256) (s : State) :
    outShape (execDbgResp scope reserved duration pubX pubY sigR sigS s) = some (shape s) := by simp [execDbgResp]

@[simp] theorem shape_nvmBoundary (s : State) : shape (nvmBoundary s) = shape s := by simp [nvmBoundary]

@[simp] theorem shape_execExtest {s : State} (hs : shape s = whole) : outShape (execExtest s) = some whole := by simp [execExtest, hs]

@[simp] theorem shape_execExtestExit (load : TapLoad) {s : State} (hs : shape s = whole) : outShape (execExtestExit load s) = some whole := by
  simp [execExtestExit, hs]

@[simp] theorem shape_execDebugSessionExpiry {s : State} (hs : shape s = whole) : outShape (execDebugSessionExpiry s) = some whole := by
  simp [execDebugSessionExpiry, hs]

@[simp] theorem shape_execDbgHalt (cores : BitVec 9) (s : State) : outShape (execDbgHalt cores s) = some (shape s) := by simp [execDbgHalt]

@[simp] theorem shape_execCoreHalted (core : Fin 9) (s : State) : outShape (execCoreHalted core s) = some (shape s) := by
  simp [execCoreHalted]

@[simp] theorem shape_execDbgResume (cores : BitVec 9) {s : State} (hs : shape s = whole) : outShape (execDbgResume cores s) = some whole := by
  simp [execDbgResume, hs]

@[simp] theorem shape_execDbgStep (cores : BitVec 9) {s : State} (hs : shape s = whole) : outShape (execDbgStep cores s) = some whole := by
  simp [execDbgStep, hs]

@[simp] theorem shape_execDbgLcnDataWrite (core : Fin 8) (value : Word) (s : State) :
    outShape (execDbgLcnDataWrite core value s) = some (shape s) := by simp [execDbgLcnDataWrite]

@[simp] theorem shape_execPulseTrailingEdge (p : Fin 32) (s : State) : outShape (execPulseTrailingEdge p s) = some (shape s) := by
  unfold execPulseTrailingEdge
  dsimp only
  repeat' split
  all_goals simp

@[simp] theorem shape_execGateBoundary (m : Fin 16) (s : State) : outShape (execGateBoundary m s) = some (shape s) := by
  simp [execGateBoundary]

@[simp] theorem shape_execCoarseCounterUpdate (s : State) : outShape (execCoarseCounterUpdate s) = some (shape s) := by
  unfold execCoarseCounterUpdate
  split
  · rw [outShape_next, shape_modLast]
    exact fun _ => rfl
  · rfl

@[simp] theorem shape_execMirrorLoaderFilled (t : Fin 16) (s : State) : outShape (execMirrorLoaderFilled t s) = some (shape s) := by
  simp [execMirrorLoaderFilled]

@[simp] theorem shape_execClass2CommandDone (t : Fin 16) (ok : Bool) (readback : BitVec 256) {s : State} (hs : shape s = whole) :
    outShape (execClass2CommandDone t ok readback s) = some whole := by simp [execClass2CommandDone, hs]

@[simp] theorem shape_execSectorEraseDone (ok : Bool) (s : State) : outShape (execSectorEraseDone ok s) = some (shape s) := by
  unfold execSectorEraseDone
  dsimp only
  repeat' split
  all_goals simp

@[simp] theorem shape_execRegisterAcknowledge (domain : Fin 29) {s : State} (hs : shape s = whole) :
    outShape (execRegisterAcknowledge domain s) = some whole := by
  unfold execRegisterAcknowledge
  split <;> simp [hs]

@[simp] theorem shape_execSpitCsNRise (port : Fin 2) (s : State) : outShape (execSpitCsNRise port s) = some (shape s) := by
  simp [execSpitCsNRise]

end Sys2Proof.Machine
end


section
/-! The invariant of R19: no step changes the size of a table of units. -/

namespace Sys2Proof.Machine

theorem exec_of_core {i : Instr} {n : Fin 8} (s : State) (h : coreOf i = some n) : exec i s = lensRow i s := by
  cases i <;> cases h <;> rfl

/-- Every command of the block leaves the tables of units their sizes: a packet's by its meaning, a Lens row's by its operation, every
other one's by what its own operation keeps. -/
theorem shape_exec (i : Instr) {s : State} (hs : shape s = whole) : outShape (exec i s) = some whole := by
  match hm : meaningOf i with
  | some m => rw [exec_of_meaning s hm, shape_fin, shape_submit i (keeps_meaningOf hm) hs]
  | none =>
    match hc : coreOf i with
    | some n => rw [exec_of_core s hc, shape_lensRow i hs]
    | none =>
      cases i
      case send => exact shape_execSend _ _ hs
      case take => exact (shape_execTake ..).trans (congrArg some hs)
      case packetTake => exact shape_execPacketTake _ _ hs
      case eyCringIdxTailWrite => exact (shape_execEyCringIdxTailWrite ..).trans (congrArg some hs)
      case eyRringIdxHeadWrite => exact (shape_execEyRringIdxHeadWrite ..).trans (congrArg some hs)
      case eyRingCfgWrite => exact (shape_execEyRingCfgWrite ..).trans (congrArg some hs)
      case eyTimeLatch => exact (shape_execEyTimeLatch ..).trans (congrArg some hs)
      case wdogServe => exact (shape_execWdogServe ..).trans (congrArg some hs)
      case registerWrite => exact shape_execRegisterWrite _ _ _ _ hs
      case registerHoldTimeout => exact (shape_execRegisterHoldTimeout ..).trans (congrArg some hs)
      case fenceWaitEnd => exact shape_execFenceWaitEnd _ hs
      case remoteReplyTimeout => exact (shape_execRemoteReplyTimeout ..).trans (congrArg some hs)
      case timedCommandApply => exact shape_execTimedCommandApply _ hs
      case mirrorSwap => exact shape_execMirrorSwap _ hs
      case timeCycle => exact (shape_execTimeCycle ..).trans (congrArg some hs)
      case slewEnd => exact (shape_execSlewEnd ..).trans (congrArg some hs)
      case tempTermUpdate => exact (shape_execTempTermUpdate ..).trans (congrArg some hs)
      case sourceLost => exact (shape_execSourceLost ..).trans (congrArg some hs)
      case refclkLost => exact (shape_execRefclkLost ..).trans (congrArg some hs)
      case refclkReturned => exact (shape_execRefclkReturned ..).trans (congrArg some hs)
      case refclkStopInSleep => exact (shape_execRefclkStopInSleep ..).trans (congrArg some hs)
      case clockLost => exact shape_execClockLost _ _ hs
      case clockReturned => exact shape_execClockReturned _ _ hs
      case crystalFail => exact (shape_execCrystalFail ..).trans (congrArg some hs)
      case captureEdge => exact (shape_execCaptureEdge ..).trans (congrArg some hs)
      case scheduledAction => exact (shape_execScheduledAction ..).trans (congrArg some hs)
      case gridPulse => exact (shape_execGridPulse ..).trans (congrArg some hs)
      case fsgFrameStart => exact (shape_execFsgFrameStart ..).trans (congrArg some hs)
      case ethLinkChange => exact (shape_execEthLinkChange ..).trans (congrArg some hs)
      case ethFrameRx => exact (shape_execEthFrameRx ..).trans (congrArg some hs)
      case sync => exact (shape_execSync ..).trans (congrArg some hs)
      case followUp => exact (shape_execFollowUp ..).trans (congrArg some hs)
      case announce => exact (shape_execAnnounce ..).trans (congrArg some hs)
      case pdelay => exact (shape_execPdelay ..).trans (congrArg some hs)
      case syncInterval => exact (shape_execSyncInterval ..).trans (congrArg some hs)
      case pdelayInterval => exact (shape_execPdelayInterval ..).trans (congrArg some hs)
      case announceInterval => exact (shape_execAnnounceInterval ..).trans (congrArg some hs)
      case syncReceiptTimeout => exact (shape_execSyncReceiptTimeout ..).trans (congrArg some hs)
      case announceReceiptTimeout => exact (shape_execAnnounceReceiptTimeout ..).trans (congrArg some hs)
      case avtpPacket => exact (shape_execAvtpPacket ..).trans (congrArg some hs)
      case avtpTalkerInterval => exact (shape_execAvtpTalkerInterval ..).trans (congrArg some hs)
      case crfPduSend => exact (shape_execCrfPduSend ..).trans (congrArg some hs)
      case commaAlign => exact (shape_execCommaAlign ..).trans (congrArg some hs)
      case commaLoss => exact shape_execCommaLoss _ hs
      case linkTimeout => exact shape_execLinkTimeout _ hs
      case plinkFrame => exact shape_execPlinkFrame _ _ hs
      case plinkFrameLaunch => exact (shape_execPlinkFrameLaunch ..).trans (congrArg some hs)
      case commandCell => exact shape_execCommandCell _ _ hs
      case cellEnum => exact (shape_execCellEnum ..).trans (congrArg some hs)
      case cellEnumDone => exact shape_execCellEnumDone _ _ _ hs
      case cellEnumReject => exact shape_execCellEnumReject _ _ _ hs
      case cellPrepare => exact (shape_execCellPrepare ..).trans (congrArg some hs)
      case cellPrepareAck => exact shape_execCellPrepareAck _ _ _ _ _ _ hs
      case cellApply => exact (shape_execCellApply ..).trans (congrArg some hs)
      case cellAbort => exact (shape_execCellAbort ..).trans (congrArg some hs)
      case prepareTimeout => exact shape_execPrepareTimeout hs
      case armTimeout => exact (shape_execArmTimeout ..).trans (congrArg some hs)
      case portFrameStart => exact (shape_execPortFrameStart ..).trans (congrArg some hs)
      case slaveFrameSync => exact (shape_execSlaveFrameSync ..).trans (congrArg some hs)
      case slaveFrameTimeout => exact (shape_execSlaveFrameTimeout ..).trans (congrArg some hs)
      case prerollEnd => exact (shape_execPrerollEnd ..).trans (congrArg some hs)
      case postrollEnd => exact (shape_execPostrollEnd ..).trans (congrArg some hs)
      case fadeComplete => exact shape_execFadeComplete _ _ hs
      case aportRateSwitch => exact (shape_execAportRateSwitch ..).trans (congrArg some hs)
      case mcgWindowEnd => exact (shape_execMcgWindowEnd ..).trans (congrArg some hs)
      case prismSample => exact (shape_execPrismSample ..).trans (congrArg some hs)
      case busRangeStepDown => exact (shape_execBusRangeStepDown ..).trans (congrArg some hs)
      case blockStart => exact shape_execBlockStart _ hs
      case deadlineMiss => exact (shape_execDeadlineMiss ..).trans (congrArg some hs)
      case coreMemoryClearDone => exact shape_execCoreMemoryClearDone _ hs
      case storeAccess => exact shape_execStoreAccess _ hs
      case lockTimeout => exact shape_execLockTimeout hs
      case channelCScanDone => exact (shape_execChannelCScanDone ..).trans (congrArg some hs)
      case channelCProgramDone => exact (shape_execChannelCProgramDone ..).trans (congrArg some hs)
      case dumpPageDone => exact (shape_execDumpPageDone ..).trans (congrArg some hs)
      case operatingTimeMark => exact (shape_execOperatingTimeMark ..).trans (congrArg some hs)
      case watchdogExpiry => exact (shape_execWatchdogExpiry ..).trans (congrArg some hs)
      case graceEnd => exact shape_execGraceEnd _ hs
      case powerFailTrip => exact shape_execPowerFailTrip hs
      case mainPowerReturn => exact (shape_execMainPowerReturn ..).trans (congrArg some hs)
      case holdEnRelease => exact shape_execHoldEnRelease hs
      case holdTimeEnd => exact (shape_execHoldTimeEnd ..).trans (congrArg some hs)
      case holdoverEnd => exact shape_execHoldoverEnd hs
      case cellMeasurement => exact shape_execCellMeasurement _ _ hs
      case balanceTick => exact (shape_execBalanceTick ..).trans (congrArg some hs)
      case heartbeat => exact (shape_execHeartbeat ..).trans (congrArg some hs)
      case heartbeatTimeout => exact (shape_execHeartbeatTimeout ..).trans (congrArg some hs)
      case cellOvervoltage => exact (shape_execCellOvervoltage ..).trans (congrArg some hs)
      case chgEnRecovery => exact (shape_execChgEnRecovery ..).trans (congrArg some hs)
      case shankSilent => exact (shape_execShankSilent ..).trans (congrArg some hs)
      case sleepEntry => exact shape_execSleepEntry hs
      case wake => exact (shape_execWake ..).trans (congrArg some hs)
      case wakeRelease => exact shape_execWakeRelease _ hs
      case thetaHigh => exact (shape_execThetaHigh ..).trans (congrArg some hs)
      case thetaLow => exact (shape_execThetaLow ..).trans (congrArg some hs)
      case aonPowerLoss => exact shape_execAonPowerLoss hs
      case storeRetentionTrip => exact (shape_execStoreRetentionTrip ..).trans (congrArg some hs)
      case pciePerst => exact (shape_execPciePerst ..).trans (congrArg some hs)
      case powerOnReset => exact shape_execPowerOnReset hs
      case resetNAssert => exact shape_execResetNAssert hs
      case resetNRelease => exact shape_execResetNRelease _ hs
      case selfTestDone => exact (shape_execSelfTestDone ..).trans (congrArg some hs)
      case dbgAp => exact shape_execDbgAp _ _ _ _ _ hs
      case dbgChal => exact (shape_execDbgChal ..).trans (congrArg some hs)
      case dbgResp _ reserved _ _ _ _ _ => exact (shape_execDbgResp _ reserved ..).trans (congrArg some hs)
      case extest => exact shape_execExtest hs
      case extestExit => exact shape_execExtestExit _ hs
      case debugSessionExpiry => exact shape_execDebugSessionExpiry hs
      case dbgHalt => exact (shape_execDbgHalt ..).trans (congrArg some hs)
      case coreHalted => exact (shape_execCoreHalted ..).trans (congrArg some hs)
      case dbgResume => exact shape_execDbgResume _ hs
      case dbgStep => exact shape_execDbgStep _ hs
      case dbgLcnDataWrite => exact (shape_execDbgLcnDataWrite ..).trans (congrArg some hs)
      case pulseTrailingEdge => exact (shape_execPulseTrailingEdge ..).trans (congrArg some hs)
      case gateBoundary => exact (shape_execGateBoundary ..).trans (congrArg some hs)
      case coarseCounterUpdate => exact (shape_execCoarseCounterUpdate ..).trans (congrArg some hs)
      case mirrorLoaderFilled => exact (shape_execMirrorLoaderFilled ..).trans (congrArg some hs)
      case class2CommandDone => exact shape_execClass2CommandDone _ _ _ hs
      case sectorEraseDone => exact (shape_execSectorEraseDone ..).trans (congrArg some hs)
      case registerAcknowledge => exact shape_execRegisterAcknowledge _ hs
      case spitCsNRise => exact (shape_execSpitCsNRise ..).trans (congrArg some hs)
      case lNop | lEnd | lBr | lCall | lRet | lLoop | lRep | lBrk | lAdd | lSub | lAnd | lOr | lXor | lAsl | lAsr | lLsr | lAbs |
          lNeg | lMin | lMax | lMov | lCmp | lPar | lMpy | lMac | lMpy4 | lMac4 | lMac2e | lMac2c | lClr | lClr4 | lRnd | lMva |
          lLdi | lMvr | lLds | lSts | lLks | lUns | lLdb | lStb =>
        cases hc
      all_goals cases hm

theorem shape_step {s : State} (hs : shape s = whole) : outShape (step s) = some whole := by
  unfold step
  split
  · exact shape_idleStep hs
  · exact shape_exec _ hs

/-- Settles O5: every operation keeps the sizes of the tables, and so does every command. -/
theorem stepKeepsShape : Obligations.StepKeepsShape := by
  intro s t hs ht
  rw [shaped_iff] at hs ⊢
  exact shape_of_outShape (shape_step hs) ht

end Sys2Proof.Machine
end
